-- ==== Sys2Proof/Word.lean ====
section
/-! DEFINITION. The word types of the AQ7410 model and nothing else (00_scope.md R5: registers are 32 bits wide). -/
namespace Sys2Proof

/-- One byte of memory, of a galley slot or of a datagram. -/
abbrev Byte := BitVec 8

/-- One 32-bit register or one 32-bit lane (R5). -/
abbrev Word := BitVec 32

/-- One 512-bit vector register or one 64-byte token (02_tiles.md R44). -/
abbrev Vec := BitVec 512

end Sys2Proof
end

