-- ==== Sys2Proof/Syntax.lean ====
section
/-! DEFINITION. The commands of the AQ7410 block: one constructor per row of spec/opcode_table.json, each with the row's
operands. `t` is a physical tile index (00_scope.md R6), `m` a master ID (11_memory_and_ecc.md Table 11-8); a row that IS
a register write carries the word written as `v`, and a row that reports an outside happening carries what happened. -/
namespace Sys2Proof

/-- Where a control token arrives (05_chase_fabric.md R132 to R139): a tile, the output facing engine, steering unit `k`
of switch `sw`, or a spill stream of a slot (09_impressions.md R209). -/
inductive Node where
  | tile (t : Nat)
  | fe
  | steer (sw k : Nat)
  | spill (slot i : Nat)
deriving DecidableEq, Repr

/-- A control token's way in (R131, R132): control input `k` of the node, and the bits of its 17-bit word, parity bit on top,
that changed on the way. -/
structure CtlOp where
  k : Nat
  flip : Nat := 0
deriving DecidableEq, Repr

/-- A START of the loader by master `m`: run to its end, or, where `pause` is given, left in progress after that many of the writes
of R30 (R34). -/
structure LoadReq where
  m : Nat
  pause : Option Nat := none
deriving DecidableEq, Repr

/-- A START of a live update by master `m`: run to its end, or, with `pause`, as far as that many further steps of Table 16-8 after its
first (R376, R378). -/
structure UpdReq where
  m : Nat
  pause : Option Nat := none
deriving DecidableEq, Repr

/-- A core's failure: its cause, and whether only step 1 of Table 16-7 is taken, so that its roles have no holder yet (R374). -/
structure McFail where
  cause : Nat
  hold : Bool := false
deriving DecidableEq, Repr

/-- A token that lands at loop input port `port`, and whether its parity is broken (R131, R189). -/
structure LoopOp where
  port : Nat
  parityBad : Bool := false
deriving DecidableEq, Repr

/-- How a token comes to a tile galley: with its parity broken (R131), or with the copies of the galley's write pointer differing at its
update, and then perhaps with the occupancy count's parity broken too (R289). -/
structure ArriveOp where
  parityBad : Bool := false
  ptrBad : Bool := false
  countBad : Bool := false
deriving DecidableEq, Repr

/-- A token's way out of the galley of a source: the number of its route, and whether the copies of the galley's read pointer differ at
its update (R289). -/
structure EgressOp where
  src : Nat
  ptrBad : Bool := false
deriving DecidableEq, Repr

/-- A write from outside into an ingress galley: the TYPE of its packet (Table 12-6), and whether the copies of the galley's write
pointer differ at its update (R289). -/
structure IngressIn where
  ty : Nat
  ptrBad : Bool := false
deriving DecidableEq, Repr

/-- A stream engine that meets an error, and whether it is that its galley's write pointers differ (R279, R289). -/
structure EngFail where
  e : Nat
  ptrBad : Bool := false
deriving DecidableEq, Repr

/-- An ABORT of the scrub by master `m`, after the scrub has come `words` code words further (R265). -/
structure ScrubCut where
  m : Nat
  words : Nat := 0
deriving DecidableEq, Repr

/-- How a frame comes to a network port: whether its FCS and coding are right, and how many bytes the port's receive buffer then
holds (R293, R294). -/
structure RxWay where
  fcsOk : Bool
  held : Nat := 0
deriving DecidableEq, Repr

/-- What a self-test found: a CAUSE of Table 17-9, 0 where the unit passed; for HBM the lanes found bad, as channel and lane, and the
retired frames whose row the stack could repair for good (R271, Table 17-7); `checks` counts the sensors, monitors and pace
oscillators that failed (Table 17-7). -/
structure TestResult where
  cause : Nat
  lanes : List (Nat × Nat) := []
  rows : List Nat := []
  checks : Nat := 0
deriving DecidableEq, Repr

/-- A turn of the forme copier of tile `t`: how many units of its job's work it does before anything else comes between (R179). -/
structure CopyTurn where
  t : Nat
  units : Nat
deriving DecidableEq, Repr

/-- The operand fields of a VOP word (Table 3-1, format V). -/
structure VecOp where
  vd : BitVec 3
  va : BitVec 3
  vb : BitVec 3
  w : BitVec 2
  ty : BitVec 2
  sat : Bool
  imm : BitVec 6
deriving DecidableEq, Repr

/-- The operand fields of a FIRE word (Tables 3-8 and 4-3). -/
structure FireOp where
  inp : BitVec 8
  out : BitVec 4
  p : Bool
  xs : Bool
  xr : BitVec 3
  acc : BitVec 4
  ow : Bool
  ge : Bool
  ix : Bool
  zf : Bool
  hx : Bool
deriving DecidableEq, Repr

/-- The operand fields of a REQ word: the level-1 layout of Table 3-9 or the level-2 layout of Table 4-4. -/
inductive ReqOp where
  | l1 (c : BitVec 4) (act : BitVec 2) (ofmt : BitVec 3) (dst : Bool) (dreg : BitVec 3) (rsc rzp rcl : BitVec 4)
      (ix : Bool)
  | l2 (c : BitVec 4) (act : BitVec 2) (ofmt : BitVec 4) (dst : Bool) (dreg : BitVec 3) (rq : BitVec 4)
      (fr sw ix : Bool)
deriving DecidableEq, Repr

/-- A decoded picture as planes of samples, each plane a list of rows; `bits` is the sample depth. -/
structure Picture where
  width : Nat
  height : Nat
  bits : Nat
  planes : List (List (List Nat))
deriving DecidableEq, Repr

/-- What a decoder made of its access unit (13_network_and_video.md R303 to R306); the coding standards it follows are
outside the spec. `irap` says that the unit held an IDR or IRAP picture, `refs` how many reference pictures its parameter sets need;
each picture output comes with how many of the context's access units before this one it was coded in. `begun` says that the first
row of the picture of a unit not yet whole has come (R302). -/
inductive DecOut where
  | unsupported
  | streamError
  | pictures (irap : Bool) (refs : Nat) (l : List (Nat × Picture))
  | begun (irap : Bool)
deriving DecidableEq, Repr

/-- How far a stream port record came (14_stream_port_and_burl.md R318, R320). -/
inductive SpKind where
  | whole
  | opened
  | broken
deriving DecidableEq, Repr

/-- A record as it came over the lanes of the stream port (R318). -/
structure SpRec where
  ch : Nat
  seq : Nat
  payload : List Byte
  crc : Nat
  kind : SpKind
deriving DecidableEq, Repr

/-- What comes over the lanes of the stream port: a record as its blocks spell it, or, lane by lane, 66-bit words as sync header and
64 scrambled bits (14_stream_port_and_burl.md R316 to R318). -/
inductive SpIn where
  | record (r : SpRec)
  | words (lanes : List (List (Nat × Nat)))
deriving DecidableEq, Repr

/-- How a request's packet is made (15_host_quoins_events.md R339, R345, Table 15-3): as its operation asks; with a MAGIC or VERSION
that is wrong or a length that is not 16 + LENGTH; or with a LENGTH that its operation does not have. -/
inductive PktForm where
  | right
  | wrongHeader
  | wrongLength
deriving DecidableEq, Repr

/-- The header of a request of the control transport (15_host_quoins_events.md R339, R345): its transport, TAG, the source address
and port of a management datagram, and the form of the packet. -/
structure HostHdr where
  mgmt : Bool
  tag : Nat
  src : Nat
  form : PktForm
deriving DecidableEq, Repr

/-- What the network boot server delivers (16_firmware_and_security.md R364): the image, ledger and health map files. -/
structure BootSrc where
  image : Option (List Byte)
  ledger : Option (List Byte)
  health : Option (List Byte)
deriving DecidableEq, Repr

/-- The reply of the core regulator to one poll of the trip (18_signals_and_package.md R420). -/
inductive PmReply where
  | none
  | iout (linear11 : Nat)
  | status (iout temp : Bool)
deriving DecidableEq, Repr

/-- The instructions of the test access port (16_firmware_and_security.md R386). -/
inductive TapIns where
  | bypass
  | idcode
  | sample
  | extest
  | clamp
  | highz
  | other (code : Nat)
deriving DecidableEq, Repr

/-- The commands, in the order of spec/opcode_table.json. -/
inductive Instr where
  /-- REGISTER_WRITE (R9): A register write with no row of its own sets its fields, or is refused whole with a bus error and REG_WRITE_REFUSED. -/
  | registerWrite (m : Nat) (addr : Nat) (v : Nat)
  /-- RC_READ (R10): A read of an RC field returns its value and then clears it, keeping any increment made in the same moment. -/
  | rcRead (m : Nat) (addr : Nat)
  /-- LOAD_START (R18): LOAD_CTRL.START runs the load checks of Table 1-4 in order, then places and commits the forme, or refuses it at the first check that fails. -/
  | loadStart (r : LoadReq)
  /-- LOAD_UNLOAD (R33): LOAD_CTRL.UNLOAD takes a RESIDENT or STOPPED slot into DRAINING and stops admission for its contexts. -/
  | loadUnload (m : Nat)
  /-- FORME_UNLOADED (R33): Once the drained frames are complete, the contexts are unbound and the tiles are bank-cleared and released; FORME_UNLOADED is raised at the release of the last tile. -/
  | formeUnloaded (slot : Nat)
  /-- FORME_RELOCK (R35): Once the forme has drained, the loader locks it up again without the lost tile, recomputes the bounds and re-admits or stops each context. -/
  | formeRelock (slot : Nat)
  /-- FRAME_START (R135): FRAME_START arriving on a control input; once FRAME_START and FRAME_TICKET are on every input, the tile checks the tickets, initialises as R51 states and forwards the frame start. -/
  | frameStart (d : Node) (c : CtlOp)
  /-- FRAME_TICKET (R132): FRAME_TICKET arriving on a control input, carrying the ticket of the frame that starts. -/
  | frameTicket (d : Node) (c : CtlOp)
  /-- FRAME_END (R134): FRAME_END arriving on a control input sets frame marks on the input ports of its PORT_MASK and makes the next feed active. -/
  | frameEnd (d : Node) (c : CtlOp)
  /-- FRAME_END_ABORTED (R134): FRAME_END_ABORTED arriving on a control input sets frame marks like FRAME_END and marks the frame as aborted. -/
  | frameEndAborted (d : Node) (c : CtlOp)
  /-- TILE_FRAME_END (R39): Once ENDF has completed and the frame end is on every input, the tile discards margin rows, resets generators and counters, and forwards the frame end. -/
  | tileFrameEnd (t : Nat)
  /-- END_OF_STREAM (R40): END_OF_STREAM arriving at a stage resets the context's slot to its initial values and is forwarded. -/
  | endOfStream (d : Node) (c : CtlOp)
  /-- TAG_RESET (R167): TAG_RESET, once on every enabled control input, zeroes block tags and tag counters, clears STREAM and is forwarded. -/
  | tagReset (d : Node) (c : CtlOp)
  /-- ABORT (R136): ABORT arriving on sub-channel X aborts the held frame, enters the ticket in the pending table, or has no effect; it is forwarded once. -/
  | abort (d : Node) (c : CtlOp)
  /-- ADD (R78): ALU ADD writes rs1 + rs2 to rd. -/
  | add (t : Nat) (rd : BitVec 4) (rs1 : BitVec 4) (rs2 : BitVec 4)
  /-- SUB (R78): ALU SUB writes rs1 − rs2 to rd. -/
  | sub (t : Nat) (rd : BitVec 4) (rs1 : BitVec 4) (rs2 : BitVec 4)
  /-- AND (R78): ALU AND writes the bitwise and of rs1 and rs2. -/
  | and (t : Nat) (rd : BitVec 4) (rs1 : BitVec 4) (rs2 : BitVec 4)
  /-- OR (R78): ALU OR writes the bitwise or of rs1 and rs2. -/
  | or (t : Nat) (rd : BitVec 4) (rs1 : BitVec 4) (rs2 : BitVec 4)
  /-- XOR (R78): ALU XOR writes the bitwise exclusive or of rs1 and rs2. -/
  | xor (t : Nat) (rd : BitVec 4) (rs1 : BitVec 4) (rs2 : BitVec 4)
  /-- SLL (R78): ALU SLL shifts rs1 left by rs2[4:0]. -/
  | sll (t : Nat) (rd : BitVec 4) (rs1 : BitVec 4) (rs2 : BitVec 4)
  /-- SRL (R78): ALU SRL shifts rs1 right by rs2[4:0], shifting in zeros. -/
  | srl (t : Nat) (rd : BitVec 4) (rs1 : BitVec 4) (rs2 : BitVec 4)
  /-- SRA (R78): ALU SRA shifts rs1 right by rs2[4:0], shifting in the sign. -/
  | sra (t : Nat) (rd : BitVec 4) (rs1 : BitVec 4) (rs2 : BitVec 4)
  /-- MUL (R78): ALU MUL writes bits [31:0] of the product. -/
  | mul (t : Nat) (rd : BitVec 4) (rs1 : BitVec 4) (rs2 : BitVec 4)
  /-- MULHS (R78): ALU MULHS writes bits [63:32] of the signed product. -/
  | mulhs (t : Nat) (rd : BitVec 4) (rs1 : BitVec 4) (rs2 : BitVec 4)
  /-- MULHU (R78): ALU MULHU writes bits [63:32] of the unsigned product. -/
  | mulhu (t : Nat) (rd : BitVec 4) (rs1 : BitVec 4) (rs2 : BitVec 4)
  /-- MIN (R78): ALU MIN writes the signed minimum. -/
  | min (t : Nat) (rd : BitVec 4) (rs1 : BitVec 4) (rs2 : BitVec 4)
  /-- MAX (R78): ALU MAX writes the signed maximum. -/
  | max (t : Nat) (rd : BitVec 4) (rs1 : BitVec 4) (rs2 : BitVec 4)
  /-- MINU (R78): ALU MINU writes the unsigned minimum. -/
  | minu (t : Nat) (rd : BitVec 4) (rs1 : BitVec 4) (rs2 : BitVec 4)
  /-- MAXU (R78): ALU MAXU writes the unsigned maximum. -/
  | maxu (t : Nat) (rd : BitVec 4) (rs1 : BitVec 4) (rs2 : BitVec 4)
  /-- SLT (R78): ALU SLT writes 1 if rs1 < rs2 signed, else 0. -/
  | slt (t : Nat) (rd : BitVec 4) (rs1 : BitVec 4) (rs2 : BitVec 4)
  /-- SLTU (R78): ALU SLTU writes 1 if rs1 < rs2 unsigned, else 0. -/
  | sltu (t : Nat) (rd : BitVec 4) (rs1 : BitVec 4) (rs2 : BitVec 4)
  /-- ADDI (R78): ADDI adds the sign-extended imm18 to rs1. -/
  | addi (t : Nat) (rd : BitVec 4) (rs1 : BitVec 4) (imm : BitVec 18)
  /-- ANDI (R78): ANDI ands rs1 with the zero-extended imm18. -/
  | andi (t : Nat) (rd : BitVec 4) (rs1 : BitVec 4) (imm : BitVec 18)
  /-- ORI (R78): ORI ors rs1 with the zero-extended imm18. -/
  | ori (t : Nat) (rd : BitVec 4) (rs1 : BitVec 4) (imm : BitVec 18)
  /-- XORI (R78): XORI exclusive-ors rs1 with the zero-extended imm18. -/
  | xori (t : Nat) (rd : BitVec 4) (rs1 : BitVec 4) (imm : BitVec 18)
  /-- SLLI (R78): SHI SLLI shifts rs1 left by the immediate amount. -/
  | slli (t : Nat) (rd : BitVec 4) (rs1 : BitVec 4) (sh : BitVec 5)
  /-- SRLI (R78): SHI SRLI shifts rs1 right by the immediate amount, shifting in zeros. -/
  | srli (t : Nat) (rd : BitVec 4) (rs1 : BitVec 4) (sh : BitVec 5)
  /-- SRAI (R78): SHI SRAI shifts rs1 right by the immediate amount, shifting in the sign. -/
  | srai (t : Nat) (rd : BitVec 4) (rs1 : BitVec 4) (sh : BitVec 5)
  /-- LUI (R78): LUI sets rd to imm22 × 1,024. -/
  | lui (t : Nat) (rd : BitVec 4) (imm : BitVec 22)
  /-- LW (R79): LW loads a 32-bit word of tile SRAM into rd. -/
  | lw (t : Nat) (rd : BitVec 4) (rs1 : BitVec 4) (imm : BitVec 18)
  /-- SW (R79): SW stores rd to tile SRAM by read-modify-write. -/
  | sw (t : Nat) (rd : BitVec 4) (rs1 : BitVec 4) (imm : BitVec 18)
  /-- LC (R80): LC loads a program memory word into rd as data. -/
  | lc (t : Nat) (rd : BitVec 4) (addr : BitVec 12)
  /-- MFS (R81): MFS reads a special into rd. -/
  | mfs (t : Nat) (rd : BitVec 4) (sel : BitVec 5)
  /-- MTS (R81): MTS writes rs1 to a writable special after checking its range. -/
  | mts (t : Nat) (rs1 : BitVec 4) (sel : BitVec 5)
  /-- AGW_WRITE (R82): AGW writes BASE, N_d or S_d of a generator's running configuration. -/
  | agwWrite (t : Nat) (ag : BitVec 2) (rs1 : BitVec 4) (fld : BitVec 4)
  /-- AGW_RESET (R82): AGW RESET sets all the generator's indices to 0 and clears WRAP. -/
  | agwReset (t : Nat) (ag : BitVec 2)
  /-- AGW_RESTORE (R82): AGW RESTORE reloads the generator's frame-start configuration. -/
  | agwRestore (t : Nat) (ag : BitVec 2)
  /-- LOOPI (R83): LOOPI opens a hardware loop with an immediate count, or skips to E + 1 for a count of 0. -/
  | loopi (t : Nat) (last : BitVec 12) (count : BitVec 14)
  /-- LOOPC (R83): LOOPC opens a hardware loop with a count taken from a program-memory constant. -/
  | loopc (t : Nat) (last : BitVec 12) (addr : BitVec 12)
  /-- LOOP_END (R84): After the end word of the innermost loop, its index is raised and execution repeats the body or closes the loop. -/
  | loopEnd (t : Nat)
  /-- BR (R85): BR branches to its target unconditionally. -/
  | br (t : Nat) (target : BitVec 12)
  /-- BLC (R85): BLC branches on the index of an open loop. -/
  | blc (t : Nat) (loop : BitVec 2) (cond : BitVec 2) (imm : BitVec 10) (target : BitVec 12)
  /-- BCK (R85): BCK branches on whether a program-memory constant is zero. -/
  | bck (t : Nat) (cond : BitVec 2) (addr : BitVec 12) (target : BitVec 12)
  /-- ENDF (R86): ENDF waits for all firings, REQs, copier jobs and the end-of-frame token, ending the tile's work on the frame. -/
  | endf (t : Nat)
  /-- VADD (R88): VOP VADD adds the lanes, wrapping or saturating. -/
  | vadd (t : Nat) (o : VecOp)
  /-- VSUB (R88): VOP VSUB subtracts the lanes. -/
  | vsub (t : Nat) (o : VecOp)
  /-- VMUL (R88): VOP VMUL multiplies the lanes. -/
  | vmul (t : Nat) (o : VecOp)
  /-- VMIN (R88): VOP VMIN takes the lesser lane. -/
  | vmin (t : Nat) (o : VecOp)
  /-- VMAX (R88): VOP VMAX takes the greater lane. -/
  | vmax (t : Nat) (o : VecOp)
  /-- VAND (R87): VOP VAND ands the lanes. -/
  | vand (t : Nat) (o : VecOp)
  /-- VOR (R87): VOP VOR ors the lanes. -/
  | vor (t : Nat) (o : VecOp)
  /-- VXOR (R87): VOP VXOR exclusive-ors the lanes. -/
  | vxor (t : Nat) (o : VecOp)
  /-- VMOV (R89): VOP VMOV copies the lanes bit for bit. -/
  | vmov (t : Nat) (o : VecOp)
  /-- VMAC (R88): VOP VMAC computes d + a × b with one rounding or saturation. -/
  | vmac (t : Nat) (o : VecOp)
  /-- VDUP (R87): VOP VDUP duplicates one half of the lanes of a. -/
  | vdup (t : Nat) (o : VecOp)
  /-- VSHL (R88): VOP VSHL shifts the lanes left. -/
  | vshl (t : Nat) (o : VecOp)
  /-- VSRL (R87): VOP VSRL shifts the lanes right, shifting in zeros. -/
  | vsrl (t : Nat) (o : VecOp)
  /-- VSRA (R87): VOP VSRA shifts the lanes right, shifting in the sign. -/
  | vsra (t : Nat) (o : VecOp)
  /-- VSRAR (R87): VOP VSRAR divides the lanes by 2^n with rounding. -/
  | vsrar (t : Nat) (o : VecOp)
  /-- VWIDEN (R87): VOP VWIDEN extends half of the lanes to the wider width. -/
  | vwiden (t : Nat) (o : VecOp)
  /-- VNARROW (R88): VOP VNARROW reduces two registers' lanes to the narrower width. -/
  | vnarrow (t : Nat) (o : VecOp)
  /-- VCVTF (R87): VOP VCVTF converts signed 16-bit lanes to FP16 or BF16. -/
  | vcvtf (t : Nat) (o : VecOp)
  /-- VCVTI (R89): VOP VCVTI converts FP16 or BF16 lanes to saturated signed 16-bit lanes. -/
  | vcvti (t : Nat) (o : VecOp)
  /-- VACT (R91): VOP VACT applies RELU, CLAMP, LEAKY or a byte table to each lane. -/
  | vact (t : Nat) (o : VecOp)
  /-- VFCVT (R118): VOP VFCVT converts lanes between FP16 and BF16. -/
  | vfcvt (t : Nat) (o : VecOp)
  /-- VLD (R90): VLD loads 64 bytes from a generator draw into a vector register. -/
  | vld (t : Nat) (vd : BitVec 3) (ag : BitVec 2)
  /-- VST (R90): VST stores a vector register, or half of one, to a generator draw. -/
  | vst (t : Nat) (vs : BitVec 3) (ag : BitVec 2) (part : BitVec 2)
  /-- VBC (R90): VBC broadcasts the low bits of rs1 to every lane. -/
  | vbc (t : Nat) (vd : BitVec 3) (rs1 : BitVec 4) (w : BitVec 2)
  /-- FIRE (R64): FIRE checks its ports, page, bank mode and draw, then waits with nothing taken until its tokens, room and weight page are available. -/
  | fire (t : Nat) (f : FireOp)
  /-- FIRE_ISSUE (R65): An issued FIRE lands and ships COUNT tokens per named port, then performs its platen operation and any group-end combine. -/
  | fireIssue (t : Nat)
  /-- PFMT (R92): PFMT sets the current weight and x formats, and SFMT at level 2. -/
  | pfmt (t : Nat) (wf : BitVec 4) (xf : BitVec 4) (sfmt : Bool)
  /-- WLD (R93): WLD loads the inactive weight page from tile SRAM. -/
  | wld (t : Nat) (ag : BitVec 2) (page : Bool)
  /-- WSWP (R94): WSWP makes the inactive weight page active between two firings. -/
  | wswp (t : Nat)
  /-- PSCL (R95): PSCL loads K, and optionally ZW, from generator draws and clears STREAM. -/
  | pscl (t : Nat) (ag : BitVec 2) (zl : Bool)
  /-- PBIAS (R95): PBIAS loads the bias Bv from two generator draws. -/
  | pbias (t : Nat) (ag : BitVec 2)
  /-- PSCS (R110): PSCS takes a scale block from a scale port, sets K, ZW and ZX, and arms the block-tag check. -/
  | pscs (t : Nat) (port : BitVec 3) (dport : BitVec 3)
  /-- REQ (R99): REQ requantises a combiner bank into 32 output codes, writes them, reports to the scale watch and clears the bank. -/
  | req (t : Nat) (r : ReqOp)
  /-- CCLR (R100): CCLR sets a combiner bank to +0.0 once earlier combines into it are done. -/
  | cclr (t : Nat) (c : BitVec 4)
  /-- CPY (R100): CPY starts a forme copier job from a descriptor in tile SRAM, waiting while two jobs are held. -/
  | cpy (t : Nat) (rs1 : BitVec 4)
  /-- COPIER_JOB (R175): The forme copier runs a held job, writing the expand or transpose entries into tile SRAM. -/
  | copierJob (turn : CopyTurn)
  /-- CPYW (R100): CPYW waits until every earlier copier job has written its last row. -/
  | cpyw (t : Nat)
  /-- QOP_SIGNAL (R101): QOP SIGNAL performs SIGNAL on a quoin from a tile. -/
  | qopSignal (t : Nat) (rs1 : BitVec 4) (rs2 : BitVec 4) (imm : BitVec 12)
  /-- QOP_WAIT (R101): QOP WAIT waits from a tile until WAIT on a quoin succeeds. -/
  | qopWait (t : Nat) (rs1 : BitVec 4) (rs2 : BitVec 4) (imm : BitVec 12)
  /-- QOP_TEST (R101): QOP TEST writes a quoin's count to rd. -/
  | qopTest (t : Nat) (rd : BitVec 4) (rs1 : BitVec 4) (imm : BitVec 12)
  /-- QOP_RESET (R101): QOP RESET sets a quoin's count; it is reserved at level 2. -/
  | qopReset (t : Nat) (rs1 : BitVec 4) (rs2 : BitVec 4) (imm : BitVec 12)
  /-- GDROP (R119): GDROP discards the rest of the packet in progress at an input port. -/
  | gdrop (t : Nat) (port : BitVec 3)
  /-- NOP (R73): NOP does nothing. -/
  | nop (t : Nat)
  /-- TILE_HALT (R71): TILE_CTRL.HALT halts the tile at the next instruction boundary. -/
  | tileHalt (m : Nat) (t : Nat)
  /-- TILE_STEP (R71): TILE_CTRL.STEP executes one instruction from HALTED and halts again. -/
  | tileStep (m : Nat) (t : Nat)
  /-- TILE_RESUME (R71): TILE_CTRL.RESUME returns a halted tile to its state before the halt. -/
  | tileResume (m : Nat) (t : Nat)
  /-- TILE_CLEAR (R259): TILE_CTRL.CLEAR bank-clears all 12 banks of an idle tile. -/
  | tileClear (m : Nat) (t : Nat)
  /-- TOKEN_ARRIVAL (R130): A data token arrives at a galley, passes the feed window or is discarded, and is written. -/
  | tokenArrival (t : Nat) (port : Nat) (op : ArriveOp)
  /-- LOOP_TOKEN_LANDING (R189): A token arriving at a loop input port lands at once at its context's ring offset and raises AVAIL. -/
  | loopTokenLanding (t : Nat) (port : LoopOp)
  /-- GALLEY_EGRESS (R130): A sender holding a credit for every receiver sends a token on its route and decreases its counters. -/
  | galleyEgress (op : EgressOp)
  /-- CREDIT_RETURN (R130): A credit returned by a receiver reaches the sender's counter. -/
  | creditReturn (route : Nat) (recv : Nat)
  /-- STEERING_FIRE (R139): A steering unit holding the STEER, whole blocks and credits forwards the selected block and discards the others. -/
  | steeringFire (sw : Nat) (k : Nat)
  /-- DEADLOCK_SUSPECT (R145): The no-progress watchdog expires, snapshots the galleys, aborts the slot's frames and stops the slot. -/
  | deadlockSuspect (slot : Nat)
  /-- SCALE_WATCH_REPORT (R173): MC2 combines the watch reports of one ticket and decides the new scale of a dynamic group. -/
  | scaleWatchReport
  /-- SCALE_SLOT_FLIP (R170): In a gap with no frame of the context in flight, MC2 writes the unselected copy and EST, then flips SEL. -/
  | scaleSlotFlip
  /-- FE_INPUT_FRAME (R194): The input facing engine reads the context's picture, computes the first layer and ships its tokens. -/
  | feInputFrame
  /-- FE_OUTPUT_FRAME (R196): The output facing engine computes the heads, decodes, selects and suppresses detections, and writes the frame's records. -/
  | feOutputFrame
  /-- FACING_FAULT (R201): A facing engine fails: its frames abort, and the spare takes its role or every slot stops. -/
  | facingFault (e : Nat)
  /-- ROUND_OPEN (R207): A round of a MULTI forme opens with every waiting frame once impression 0 is configured and any host gate has passed. -/
  | roundOpen (slot : Nat)
  /-- ROUND_END (R207): When the round's last record has left, the sequencer SIGNALs DONE_QUOIN. -/
  | roundEnd (slot : Nat)
  /-- SPILL_DONE (R209): A spill stream, once its last write is acknowledged, SIGNALs its cut's quoin. -/
  | spillDone (slot : Nat) (stream : Nat)
  /-- REFILL_START (R210): After the cut barrier WAIT succeeds and the destination is configured, the refill streams of the cut start. -/
  | refillStart (slot : Nat) (cut : Nat)
  /-- TILE_RECONFIGURE (R212): A tile drained from impression k is saved, reset and loaded with impression k⊕1, then returns to WAIT_FRAME. -/
  | tileReconfigure (t : Nat)
  /-- GOVERNOR_WINDOW (R220): At the end of each 2 µs window the governor measures pace, adjusts the setpoint and sets or clears BELOW. -/
  | governorWindow (replicas : List Nat) (tj : Int) (ack : Bool)
  /-- ADMISSION_DECISION (R231): Admission tests a frame whose input is whole and accepts it into the ledgers or refuses it whole. -/
  | admissionDecision
  /-- ADMIT_WAIT_EXPIRED (R230): A frame undecided WAIT_US after its input became whole is refused with reason WAIT. -/
  | admitWaitExpired
  /-- DEADLINE_EXPIRED (R236): A frame's deadline monitor expires: the event is raised and the frame aborted. -/
  | deadlineExpired (ticket : Nat)
  /-- THERMAL_SHED (R237): MC1 raises or lowers the shed level as Tj crosses SHED_C over STEP_MS. -/
  | thermalShed (tj : Int)
  /-- TIME_STEP (R239): A write of TIME_STEP moves device time forward and raises TIME_STEPPED. -/
  | timeStep (m : Nat) (v : Nat)
  /-- REGION_ENTRY_WRITE (R252): A write of REGION_ENTRY changes a region-map entry unless pin rules refuse it. -/
  | regionEntryWrite (m : Nat) (v : Nat)
  /-- REGION_SUB_WRITE (R252): A write of REGION_SUB changes a sub-entry unless pin rules refuse it. -/
  | regionSubWrite (m : Nat) (v : Nat)
  /-- ACCESS_WRITE (R256): ACCESS_CMD.WRITE writes the staged entry into the selected access table entry and holds BUSY until old accesses finish. -/
  | accessWrite (m : Nat)
  /-- ACCESS_READ (R256): ACCESS_CMD.READ copies the selected entry into ACCESS_E0 to E2. -/
  | accessRead (m : Nat)
  /-- ECC_FLIP_ARM (R263): ECC_FLIP_CTRL.ARM arms the flip mask for the next write of a code word. -/
  | eccFlipArm (m : Nat)
  /-- ECC_FLIP_DISARM (R263): ECC_FLIP_CTRL.DISARM clears the mask without a write. -/
  | eccFlipDisarm (m : Nat)
  /-- SCRUB_START (R265): ECC_SCRUB_CTRL.START starts a scrub of the range, reading and correcting every code word. -/
  | scrubStart (m : Nat) (hard : List Nat)
  /-- SCRUB_ABORT (R265): ECC_SCRUB_CTRL.ABORT stops the scrub after the word in progress. -/
  | scrubAbort (cut : ScrubCut)
  /-- SCRUB_DONE (R265): The scrub reaches the end of its range, sets DONE and raises SCRUB_DONE. -/
  | scrubDone
  /-- STREAM_START (R280): A START command loads the list and endpoint and begins the engine's descriptors. -/
  | streamStart (m : Nat) (e : Nat)
  /-- STREAM_STOP (R280): A STOP command lets issued accesses complete, saves the position and enters STOPPED. -/
  | streamStop (m : Nat) (e : Nat)
  /-- STREAM_RESUME (R280): A RESUME command continues from the saved position. -/
  | streamResume (m : Nat) (e : Nat)
  /-- STREAM_SKIP (R280): A SKIP command abandons the rest of the descriptor. -/
  | streamSkip (m : Nat) (e : Nat)
  /-- STREAM_KICK (R277): A KICK command refetches the batch of a STARVED engine and continues. -/
  | streamKick (m : Nat) (e : Nat)
  /-- STREAM_WAITQ (R276): A descriptor's WAITQ WAIT on its quoin succeeds and its accesses begin. -/
  | streamWaitq (e : Nat)
  /-- STREAM_DESC_DONE (R276): A descriptor completes: the engine SIGNALs, raises its event and goes to the next descriptor or IDLE. -/
  | streamDescDone (e : Nat)
  /-- STREAM_PAGE_ABSENT (R278): An absent translation faults the engine, saves its position and raises STREAM_PAGE_ABSENT. -/
  | streamPageAbsent (e : Nat)
  /-- STREAM_DESC_ERROR (R279): A descriptor error stops the engine in ERROR and raises STREAM_DESC_ERROR. -/
  | streamDescError (f : EngFail)
  /-- MERGE_TRANSFER (R281): A merge channel executes LINEAR descriptors, merging contiguous ones into whole transfers. -/
  | mergeTransfer (c : Nat)
  /-- GALLEY_DROP (R287): STREAM_GCMD.DROP discards or closes the packet in progress of the selected galley. -/
  | galleyDrop (m : Nat)
  /-- GALLEY_RESET (R290): STREAM_GCMD.RESET empties a disabled galley and returns its pointers to bank 0. -/
  | galleyReset (m : Nat)
  /-- INGRESS_GALLEY_WRITE (R286): An external writer writes a word into an ingress galley, truncating or dropping packets at the galley's limits. -/
  | ingressGalleyWrite (g : Nat) (data : List Byte) (last : Bool) (way : IngressIn)
  /-- NET_CFG_WRITE (R292): A write of NETn_CFG changing MODE, FEC or AN_EN takes every link down and retrains it. -/
  | netCfgWrite (m : Nat) (port : Nat) (v : Nat)
  /-- NET_LINK_CHANGE (R292): A link changes state and raises NET_LINK_CHANGE. -/
  | netLinkChange (port : Nat) (link : Nat) (up : Bool) (fec : Bool)
  /-- NET_FRAME_RECEIVE (R293): A received Ethernet frame is checked, matched to PTP or a context, and queued or discarded. -/
  | netFrameReceive (port : Nat) (link : Nat) (way : RxWay) (frame : List Byte)
  /-- AU_RELEASE (R298): A complete access unit is released in sequence order to the decoder or the resize-and-convert unit. -/
  | auRelease (ctx : Nat)
  /-- JITTER_BUFFER_CHECK (R298): Every 100 µs the jitter buffers declare lost the access units that reached JB_TIMEOUT. -/
  | jitterBufferCheck
  /-- AU_DECODE (R303): A decoder decodes an access unit and outputs pictures in output order. -/
  | auDecode (d : Nat) (out : DecOut)
  /-- PICTURE_WHOLE (R309): The last row of a taken picture is written to its buffer, making the frame's input whole. -/
  | pictureWhole (ctx : Nat)
  /-- PTP_SEND (R311): PTP_TX_CTRL.SEND transmits the frame in the transmit buffer ahead of pending results. -/
  | ptpSend (m : Nat) (port : Nat) (v : Nat)
  /-- PTP_TX_DONE (R311): The PTP frame has been sent; its start time goes to PTP_TX_TS and TS_VALID is set. -/
  | ptpTxDone (port : Nat)
  /-- PTP_RXQ_POP (R310): PTP_RXQ.POP frees the head entry of the PTP receive queue. -/
  | ptpRxqPop (m : Nat) (port : Nat)
  /-- TIME_PPS (R312): A rising edge on TIME_PPS latches device time. -/
  | timePps
  /-- RESULT_DATAGRAM_SEND (R315): A port drains a result record from its galley as one or more UDP datagrams. -/
  | resultDatagramSend (port : Nat) (g : Nat)
  /-- CTX_CFG_WRITE (R304): A write of CTX_CFG enabling a context checks its key and decoder load. -/
  | ctxCfgWrite (m : Nat) (off : Nat) (v : Nat)
  /-- SPORT_LINK_CHANGE (R317): The stream port link enters or leaves ALIGNED. -/
  | sportLinkChange (aligned : Bool)
  /-- SPORT_RECORD_RECEIVE (R319): A Klotal record received whole is routed by its channel to an ingress galley or a Burl queue. -/
  | sportRecordReceive (come : SpIn)
  /-- SPORT_REC_TIMEOUT (R320): A record without EOR REC_TIMEOUT after its SOR is closed with DROPPED_REMAINDER. -/
  | sportRecTimeout
  /-- SPORT_RECORD_SEND (R323): The stream port drains a result record from a bound galley as one Klotal record. -/
  | sportRecordSend (g : Nat)
  /-- SP_XOFF_IN (R324): SP_XOFF_IN rising pauses egress after at most 512 bytes; falling resumes it. -/
  | spXoffIn (level : Bool)
  /-- SPORT_XOFF_STUCK (R324): SP_XOFF_IN high for XOFF_TIMEOUT sets STALLED and raises SPORT_XOFF_STUCK. -/
  | sportXoffStuck
  /-- BURL_LOAD (R330): BURL_CTRL.LOAD reads and checks the image, configures the fabric and releases it in stages. -/
  | burlLoad (m : Nat)
  /-- BURL_RELEASE (R330): BURL_CTRL.RELEASE continues from HELD through the release steps to RUNNING. -/
  | burlRelease (m : Nat)
  /-- BURL_UNLOAD (R330): BURL_CTRL.UNLOAD runs the release steps in reverse and leaves the fabric UNCONFIGURED. -/
  | burlUnload (m : Nat)
  /-- BURL_GALLEY_PACKET (R332): A GALLEY_OUT queue writes a run of words from FIRST to LAST as one packet. -/
  | burlGalleyPacket (q : Nat)
  /-- BURL_BRIDGE_TIMEOUT (R332): A bridge write waiting longer than the timeout closes its packet and raises the event. -/
  | burlBridgeTimeout (q : Nat)
  /-- BURL_PICTURE_WHOLE (R333): A PICTURE_OUT queue completes a picture and writes its notice packet into the ingress galley. -/
  | burlPictureWhole (q : Nat)
  /-- BURL_CAPTURE_ARM (R335): BURL_CAPTURE.ARM arms a snapshot of all macrocells. -/
  | burlCaptureArm (m : Nat) (v : Nat)
  /-- BURL_CAPTURE_DONE (R335): The capture fires at its count or trigger, sets DONE and raises BURL_CAPTURE_DONE. -/
  | burlCaptureDone
  /-- IO_INPUT_CHANGE (R337): An I/O cell's filtered input changes after its pad has held the new level for FILT units. -/
  | ioInputChange (c : Nat) (level : Bool)
  /-- BANK_SUPPLY_CHANGE (R418): An I/O bank supply enters or leaves a range, changing BANK_V and the drivers of the bank. -/
  | bankSupplyChange (g : Nat) (v : Nat)
  /-- SESSION_OPEN (R343): SESSION_OPEN opens a full or restricted session and may start the data plane. -/
  | sessionOpen (h : HostHdr) (version : Nat)
  /-- SESSION_CLOSE (R343): SESSION_CLOSE ends the session, abandoning any waiting WAIT. -/
  | sessionClose (h : HostHdr)
  /-- REG_READ (R340): REG_READ returns n register words. -/
  | regRead (h : HostHdr) (addr : Nat) (n : Nat)
  /-- REG_WRITE (R340): REG_WRITE writes n register words in order, stopping at the first refusal. -/
  | regWrite (h : HostHdr) (addr : Nat) (words : List Nat)
  /-- MEM_READ (R340): MEM_READ returns memory bytes in aligned pieces. -/
  | memRead (h : HostHdr) (addr : Nat) (n : Nat)
  /-- MEM_WRITE (R340): MEM_WRITE writes memory bytes, with the data on EP3 for BULK. -/
  | memWrite (h : HostHdr) (addr : Nat) (data : List Byte)
  /-- QUOIN (R342): The QUOIN request performs a quoin operation, holding the session for a WAIT. -/
  | quoin (h : HostHdr) (i : Nat) (op : Nat) (operand : Nat) (timeout : Nat)
  /-- QUOIN_REQUEST_TIMEOUT (R342): A QUOIN WAIT that does not succeed within its timeout ends with TIMEOUT. -/
  | quoinRequestTimeout (mgmt : Bool)
  /-- EVENT_MASK (R340): EVENT_MASK sets the event groups the session admits. -/
  | eventMask (h : HostHdr) (mask : Nat)
  /-- MGMT_SESSION_TIMEOUT (R345): A management session ends after 30 s without a request. -/
  | mgmtSessionTimeout
  /-- USB_BUS_RESET (R344): A USB bus reset or disconnect ends the USB session. -/
  | usbBusReset (disconnect : Bool)
  /-- USB_EVENT_TRANSFER (R423): At a 125 µs interval polled by the host, up to 32 queued event records go in one EP2 transfer. -/
  | usbEventTransfer
  /-- MGMT_EVENT_DATAGRAM (R423): Queued event records are sent in one datagram at 32 records or 1 ms after the oldest. -/
  | mgmtEventDatagram
  /-- USB_RESULT_TRANSFER (R423): A result record of a galley drained to EP4 is sent in one transfer. -/
  | usbResultTransfer
  /-- EVENTS_LOST (R355): When room returns in a full session queue, EVENTS_LOST is raised with the lost count. -/
  | eventsLost (mgmt : Bool)
  /-- QUOIN_SIGNAL (R346): A master's write of SIGNAL adds the operand to the quoin's count. -/
  | quoinSignal (m : Nat) (i : Nat) (n : Nat)
  /-- QUOIN_TEST (R346): A master's read of COUNT returns the quoin's count. -/
  | quoinTest (m : Nat) (i : Nat)
  /-- QUOIN_RESET (R346): A master's write of COUNT sets the quoin's count. -/
  | quoinReset (m : Nat) (i : Nat) (v : Nat)
  /-- QUOIN_WAIT_SUCCESS (R347): The oldest pending WAIT whose operand the count covers succeeds and decreases the count. -/
  | quoinWaitSuccess (i : Nat)
  /-- CTX_BIND (R349): CTX_CMD.BIND binds a context to a resident forme after its checks. -/
  | ctxBind (m : Nat)
  /-- CTX_START (R349): CTX_CMD.START allocates the context's buffers, quoins and access entries and starts it. -/
  | ctxStart (m : Nat)
  /-- CTX_STOP (R350): CTX_CMD.STOP discards later inputs and sends END_OF_STREAM after the last accepted frame. -/
  | ctxStop (m : Nat)
  /-- CTX_UNBIND (R349): CTX_CMD.UNBIND unbinds a bound context and frees its forme context index. -/
  | ctxUnbind (m : Nat)
  /-- CONTEXT_STOPPED (R350): Once the end-of-stream record is written, the context's buffers are released and it returns to BOUND. -/
  | contextStopped (ctx : Nat)
  /-- USB_CTRL_WRITE (R358): A write of USB_CTRL.MAX_SPEED caps the speed from the next attachment. -/
  | usbCtrlWrite (m : Nat) (v : Nat)
  /-- MGMT_CFG_WRITE (R359): A write of MGMT_CFG retrains the link, ends the session and may start DHCP. -/
  | mgmtCfgWrite (m : Nat) (v : Nat)
  /-- MGMT_ADDR_WRITE (R359): A write of MGMT_IP4, MGMT_MASK or MGMT_GW with STATIC = 1 takes effect and ends the session. -/
  | mgmtAddrWrite (m : Nat) (off : Nat) (v : Nat)
  /-- BOOT (R362): After reset the ROM reads, checks and starts the firmware image and releases the cores. -/
  | boot (net : BootSrc)
  /-- RECOVERY_START (R365): In USB recovery, FW_UPDATE_CTRL.START runs the boot checks on the written image. -/
  | recoveryStart
  /-- FW_UPDATE_START (R376): FW_UPDATE_CTRL.START stages, checks and hands over to a new firmware image. -/
  | fwUpdateStart (r : UpdReq)
  /-- FW_COMMIT (R371): FW_CTRL.COMMIT raises the rollback count and revokes the named key slots. -/
  | fwCommit (m : Nat)
  /-- FW_FLASH_WRITE (R379): FW_CTRL.FLASH_WRITE repeats the image write to flash. -/
  | fwFlashWrite (m : Nat) (ok : Bool)
  /-- MC_RESTART (R374): A failed management core is held in reset, its role passes to the spare, and it reloads. -/
  | mcRestart (core : Nat) (cause : McFail)
  /-- LEDGER_WRITE_RETRY (R388): Every 10 s the firmware repeats a failed ledger or health map write. -/
  | ledgerWriteRetry (ok : Bool)
  /-- ATTEST (R383): SEC_ATTEST_CTRL.ATTEST builds and signs an attestation report. -/
  | attest (m : Nat)
  /-- ATTEST_DONE (R383): Signing completes and the report is written, or the request ends FAILED. -/
  | attestDone
  /-- DEBUG_UNLOCK (R384): SEC_DEBUG_CTRL.UNLOCK checks an unlock token and enters debug mode or refuses. -/
  | debugUnlock (m : Nat)
  /-- POWER_ON_RESET (R389): Every supply in range after any was out of range resets the whole device. -/
  | powerOnReset
  /-- RESET_N (R414): RESET_N low for at least 1 µs causes a cold reset. -/
  | resetN (lowNs : Nat) (bootSel : Nat) (held : Bool)
  /-- REFCLK_LOSS (R415): REFCLK25 stopped for more than 10 µs acts as a cold reset. -/
  | refclkLoss (ns : Nat)
  /-- SYS_RESET (R391): SYS_RESET with GO and the correct KEY performs a warm reset. -/
  | sysReset (m : Nat) (v : Nat)
  /-- PWR_BLOCK_RESET (R392): PWR_BLOCK_RESET resets one power domain to its idle state. -/
  | pwrBlockReset (m : Nat) (v : Nat)
  /-- PWR_BUDGET_WRITE (R395): A write of PWR_BUDGET sets the budget, refused below the committed power. -/
  | pwrBudgetWrite (m : Nat) (v : Nat)
  /-- PWR_SLOT_PARK (R396): A write of PWR_SLOT_PARK parks or unparks the tiles of a slot. -/
  | pwrSlotPark (m : Nat) (v : Nat)
  /-- TILE_PARK (R401): A tile due to park saves its state, self-tests, restores and switches off with retention. -/
  | tilePark (t : Nat)
  /-- BIST_GROUP_START (R402): A group of waiting self-tests starts once the budget allows it. -/
  | bistGroupStart
  /-- BIST_DONE (R401): A self-test completes, repairs are applied and the result is recorded. -/
  | bistDone (u : Nat) (r : TestResult)
  /-- BIST_WAIT_TIMEOUT (R402): A self-test that has waited 10 s is abandoned and the block parked as UNTESTED. -/
  | bistWaitTimeout (u : Nat)
  /-- PWR_RETAIN (R397): PWR_CTRL.RETAIN stops admission and enters ENTERING_RETAIN. -/
  | pwrRetain (m : Nat)
  /-- RETAIN_ENTER (R397): With no frame in flight, domains switch off with retention and the device enters RETAIN. -/
  | retainEnter
  /-- PWR_RUN (R397): PWR_CTRL.RUN wakes the domains from Retain or a trip and resumes admission. -/
  | pwrRun (m : Nat)
  /-- PWR_SHUTDOWN (R404): PWR_CTRL.SHUTDOWN tests every block, writes the health map and switches every domain off. -/
  | pwrShutdown (m : Nat)
  /-- PMBUS_POLL (R420): Every 100 µs the trip polls the regulator current or status. -/
  | pmbusPoll (r : PmReply)
  /-- PWR_TRIP (R398): A temperature or current trip condition stops admission, switches domains off and loses every frame in flight. -/
  | pwrTrip (tj : Int)
  /-- TRIP_AUTO_RETURN (R398): With AUTO set and conditions clear for 1 s, the device returns from the trip and writes PWR_TRIP error records. -/
  | tripAutoReturn (tj : Int)
  /-- STEER (R132): A STEER control token arrives on a control input of a tile or a steering unit, which forwards it or holds it for the frame, raising STEER_STARVED when its selection exceeds INPUTS_M1. -/
  | steer (d : Node) (c : CtlOp)
  /-- SPORT_LANE_LOCK (R317): A stream port lane gains lock after 64 valid sync headers or loses it on 16 invalid headers within 64 blocks, changing SPORT_STATUS.LOCK. -/
  | sportLaneLock (lane : Nat) (lock : Bool)
  /-- SPORT_ABORT_BLOCK (R320): A Klotal ABORT block, or a block out of record order, arrives and the record in progress is withdrawn and counted. -/
  | sportAbortBlock
  /-- BURL_CLOCK_EDGE (R331): On an edge of a fabric clock, the macrocells register their inputs and the queues push or pop words, ignoring and counting pushes into a full queue and pops from an empty one. -/
  | burlClockEdge (clk : Nat)
  /-- USB_ATTACH (R344): VBUS appears and the host attaches, trains the link and selects the configuration, setting USB_STATUS.SPEED and CONFIGURED. -/
  | usbAttach (vbus : Bool) (speed : Nat) (configured : Bool)
  /-- MGMT_LINK_CHANGE (R359): The management port link comes up or goes down, changing MGMT_STATUS.LINK_UP and SPEED. -/
  | mgmtLinkChange (up : Bool) (speed : Nat)
  /-- DHCP_LEASE (R364): The firmware's DHCP exchange on the management port ends with a lease or renews it when its timer runs out, setting MGMT_IP4 and ADDR_VALID. -/
  | dhcpLease (ip : Nat) (mask : Nat) (gw : Nat)
  /-- TAP_INSTRUCTION (R386): An instruction shifted into the IEEE 1149.1 test access port is accepted or replaced by bypass according to RESET_N and debug scope. -/
  | tapInstruction (i : TapIns)
  /-- FUNC_READY (R357): A function completes its bring-up, such as an HBM pseudo-channel finishing training or a tile's health record being read, and sets its SYS_FUNC_READY bit and raises FUNC_READY. -/
  | funcReady (b : Nat) (n : Nat)
deriving DecidableEq, Repr

end Sys2Proof
end

