-- ==== Sys2Proof/Machine/Codes.lean ====
section
/-! DEFINITION. The event and error codes of Table 15-9, Table 16-10 and Table 17-16 (15_host_quoins_events.md R356, 16
R388, 17 R406). -/
namespace Sys2Proof.Machine

/-- REG_WRITE_REFUSED. -/
def EV_REG_WRITE_REFUSED : Nat := 0x0001
/-- FUNC_READY. -/
def EV_FUNC_READY : Nat := 0x0002
/-- EVENTS_LOST. -/
def EV_EVENTS_LOST : Nat := 0x0003
/-- VERSION_REFUSED. -/
def EV_VERSION_REFUSED : Nat := 0x0004
/-- QUOIN_OVERFLOW. -/
def EV_QUOIN_OVERFLOW : Nat := 0x0005
/-- RESULT_DROPPED. -/
def EV_RESULT_DROPPED : Nat := 0x0006
/-- RESULT_POLICY_UNSET. -/
def EV_RESULT_POLICY_UNSET : Nat := 0x0007
/-- CONTEXT_SLOT_STATE. -/
def EV_CONTEXT_SLOT_STATE : Nat := 0x0008
/-- CONTEXT_STOPPED. -/
def EV_CONTEXT_STOPPED : Nat := 0x0009
/-- CONTEXT_LIMIT_UNSET. -/
def EV_CONTEXT_LIMIT_UNSET : Nat := 0x000a
/-- CONTEXT_PIC_FORMAT. -/
def EV_CONTEXT_PIC_FORMAT : Nat := 0x000b
/-- LOAD_SIGNATURE. -/
def EV_LOAD_SIGNATURE : Nat := 0x0101
/-- LOAD_FORMAT. -/
def EV_LOAD_FORMAT : Nat := 0x0102
/-- LOAD_VERSION. -/
def EV_LOAD_VERSION : Nat := 0x0103
/-- LOAD_LEVEL. -/
def EV_LOAD_LEVEL : Nat := 0x0104
/-- LOAD_STEP_ASSUMPTION. -/
def EV_LOAD_STEP_ASSUMPTION : Nat := 0x0105
/-- LOAD_RATES. -/
def EV_LOAD_RATES : Nat := 0x0106
/-- LOAD_SLOTS. -/
def EV_LOAD_SLOTS : Nat := 0x0107
/-- LOAD_TILES. -/
def EV_LOAD_TILES : Nat := 0x0108
/-- LOAD_POWER. -/
def EV_LOAD_POWER : Nat := 0x0109
/-- LOAD_GALLEY. -/
def EV_LOAD_GALLEY : Nat := 0x010a
/-- LOAD_CREDIT_LOOP. -/
def EV_LOAD_CREDIT_LOOP : Nat := 0x010b
/-- LOAD_RECONVERGENCE. -/
def EV_LOAD_RECONVERGENCE : Nat := 0x010c
/-- LOAD_PACKET_SIZE. -/
def EV_LOAD_PACKET_SIZE : Nat := 0x010d
/-- LOAD_MEMORY. -/
def EV_LOAD_MEMORY : Nat := 0x010e
/-- LOAD_SLACK. -/
def EV_LOAD_SLACK : Nat := 0x010f
/-- LOAD_TILES_CHANGED. -/
def EV_LOAD_TILES_CHANGED : Nat := 0x0110
/-- LOAD_ROUTES. -/
def EV_LOAD_ROUTES : Nat := 0x0111
/-- LOAD_OVERRIDE_DENIED. -/
def EV_LOAD_OVERRIDE_DENIED : Nat := 0x0112
/-- LOAD_BUSY. -/
def EV_LOAD_BUSY : Nat := 0x0113
/-- LOAD_ABANDONED. -/
def EV_LOAD_ABANDONED : Nat := 0x0114
/-- LOAD_CONTEXTS. -/
def EV_LOAD_CONTEXTS : Nat := 0x0115
/-- LOAD_PIN_REQUIRED. -/
def EV_LOAD_PIN_REQUIRED : Nat := 0x0116
/-- FORME_LOADED. -/
def EV_FORME_LOADED : Nat := 0x0117
/-- FORME_UNLOADED. -/
def EV_FORME_UNLOADED : Nat := 0x0118
/-- FORME_TILE_LOST. -/
def EV_FORME_TILE_LOST : Nat := 0x0119
/-- CONTEXT_CONTRACT_LOST. -/
def EV_CONTEXT_CONTRACT_LOST : Nat := 0x011a
/-- ABORT_LATE. -/
def EV_ABORT_LATE : Nat := 0x011b
/-- DEADLOCK_SUSPECT. -/
def EV_DEADLOCK_SUSPECT : Nat := 0x011c
/-- IMPRESSION_STORE_ERROR. -/
def EV_IMPRESSION_STORE_ERROR : Nat := 0x011d
/-- IMPRESSION_SCAN_DONE. -/
def EV_IMPRESSION_SCAN_DONE : Nat := 0x011e
/-- TILE_ADDR_RANGE. -/
def EV_TILE_ADDR_RANGE : Nat := 0x0201
/-- TILE_ALIGN. -/
def EV_TILE_ALIGN : Nat := 0x0202
/-- TILE_ILLEGAL. -/
def EV_TILE_ILLEGAL : Nat := 0x0203
/-- TILE_LOOP_DEPTH. -/
def EV_TILE_LOOP_DEPTH : Nat := 0x0204
/-- TILE_ACC_MODE. -/
def EV_TILE_ACC_MODE : Nat := 0x0205
/-- TILE_SRAM_UNCORR. -/
def EV_TILE_SRAM_UNCORR : Nat := 0x0206
/-- TILE_PROG_ECC. -/
def EV_TILE_PROG_ECC : Nat := 0x0207
/-- TILE_PORT_DISABLED. -/
def EV_TILE_PORT_DISABLED : Nat := 0x0208
/-- TILE_QUOIN_DENIED. -/
def EV_TILE_QUOIN_DENIED : Nat := 0x0209
/-- TILE_TICKET_MISMATCH. -/
def EV_TILE_TICKET_MISMATCH : Nat := 0x020a
/-- FABRIC_PARITY. -/
def EV_FABRIC_PARITY : Nat := 0x020b
/-- GALLEY_PTR_MISMATCH. -/
def EV_GALLEY_PTR_MISMATCH : Nat := 0x0210
/-- SCALE_TAG_MISMATCH. -/
def EV_SCALE_TAG_MISMATCH : Nat := 0x0211
/-- STEER_STARVED. -/
def EV_STEER_STARVED : Nat := 0x0301
/-- MULTICAST_LAG. -/
def EV_MULTICAST_LAG : Nat := 0x0302
/-- SCALE_ALERT. -/
def EV_SCALE_ALERT : Nat := 0x0303
/-- ADMIT_REFUSED. -/
def EV_ADMIT_REFUSED : Nat := 0x0304
/-- DEADLINE_EXPIRED. -/
def EV_DEADLINE_EXPIRED : Nat := 0x0305
/-- CONTRACT_BROKEN. -/
def EV_CONTRACT_BROKEN : Nat := 0x0306
/-- PACE_BELOW_FLOOR. -/
def EV_PACE_BELOW_FLOOR : Nat := 0x0307
/-- PMBUS_FAULT. -/
def EV_PMBUS_FAULT : Nat := 0x0308
/-- THERMAL_SHED. -/
def EV_THERMAL_SHED : Nat := 0x0309
/-- TIME_STEPPED. -/
def EV_TIME_STEPPED : Nat := 0x030a
/-- CONTEXT_BOUND_SHORT. -/
def EV_CONTEXT_BOUND_SHORT : Nat := 0x030b
/-- FACING_PICTURE_SIZE. -/
def EV_FACING_PICTURE_SIZE : Nat := 0x030c
/-- FACING_READ_ERROR. -/
def EV_FACING_READ_ERROR : Nat := 0x030d
/-- FACING_FAULT. -/
def EV_FACING_FAULT : Nat := 0x030e
/-- FACING_SUBSTITUTED. -/
def EV_FACING_SUBSTITUTED : Nat := 0x030f
/-- FACING_LOST. -/
def EV_FACING_LOST : Nat := 0x0310
/-- ACCESS_DENIED. -/
def EV_ACCESS_DENIED : Nat := 0x0401
/-- ECC_CORRECTED. -/
def EV_ECC_CORRECTED : Nat := 0x0402
/-- ECC_UNCORRECTED. -/
def EV_ECC_UNCORRECTED : Nat := 0x0403
/-- ECC_HARD. -/
def EV_ECC_HARD : Nat := 0x0404
/-- SCRUB_DONE. -/
def EV_SCRUB_DONE : Nat := 0x0405
/-- ECC_FLIP_APPLIED. -/
def EV_ECC_FLIP_APPLIED : Nat := 0x0406
/-- LEDGER_CONFLICT. -/
def EV_LEDGER_CONFLICT : Nat := 0x0407
/-- LEDGER_INVALID. -/
def EV_LEDGER_INVALID : Nat := 0x0408
/-- REPAIR_RECORDED. -/
def EV_REPAIR_RECORDED : Nat := 0x0409
/-- REPAIR_EXHAUSTED. -/
def EV_REPAIR_EXHAUSTED : Nat := 0x040a
/-- HBM_ROW_RETIRED. -/
def EV_HBM_ROW_RETIRED : Nat := 0x040b
/-- STREAM_DESC_DONE. -/
def EV_STREAM_DESC_DONE : Nat := 0x0501
/-- STREAM_PAGE_ABSENT. -/
def EV_STREAM_PAGE_ABSENT : Nat := 0x0502
/-- STREAM_DESC_ERROR. -/
def EV_STREAM_DESC_ERROR : Nat := 0x0503
/-- GALLEY_TRUNCATED. -/
def EV_GALLEY_TRUNCATED : Nat := 0x0504
/-- GALLEY_OVERFLOW. -/
def EV_GALLEY_OVERFLOW : Nat := 0x0505
/-- NET_LINK_CHANGE. -/
def EV_NET_LINK_CHANGE : Nat := 0x0601
/-- INGEST_AU_LOST. -/
def EV_INGEST_AU_LOST : Nat := 0x0602
/-- INGEST_NO_BUFFER. -/
def EV_INGEST_NO_BUFFER : Nat := 0x0603
/-- INGEST_NO_MEMORY. -/
def EV_INGEST_NO_MEMORY : Nat := 0x0604
/-- DEC_UNSUPPORTED. -/
def EV_DEC_UNSUPPORTED : Nat := 0x0605
/-- DEC_STREAM_ERROR. -/
def EV_DEC_STREAM_ERROR : Nat := 0x0606
/-- DEC_FAULT. -/
def EV_DEC_FAULT : Nat := 0x0607
/-- SPORT_LINK_CHANGE. -/
def EV_SPORT_LINK_CHANGE : Nat := 0x0701
/-- SPORT_RECORD_ERROR. -/
def EV_SPORT_RECORD_ERROR : Nat := 0x0702
/-- SPORT_XOFF_STUCK. -/
def EV_SPORT_XOFF_STUCK : Nat := 0x0703
/-- BURL_CONFIG_REFUSED. -/
def EV_BURL_CONFIG_REFUSED : Nat := 0x0704
/-- BURL_CONFIGURED. -/
def EV_BURL_CONFIGURED : Nat := 0x0705
/-- BURL_QUEUE_OVERFLOW. -/
def EV_BURL_QUEUE_OVERFLOW : Nat := 0x0706
/-- BURL_BRIDGE_TIMEOUT. -/
def EV_BURL_BRIDGE_TIMEOUT : Nat := 0x0707
/-- BURL_PICTURE_ERROR. -/
def EV_BURL_PICTURE_ERROR : Nat := 0x0708
/-- BURL_CAPTURE_DONE. -/
def EV_BURL_CAPTURE_DONE : Nat := 0x0709
/-- BOOT_COMPLETE. -/
def EV_BOOT_COMPLETE : Nat := 0x0801
/-- FW_UPDATE_STARTED. -/
def EV_FW_UPDATE_STARTED : Nat := 0x0802
/-- FW_UPDATE_REFUSED. -/
def EV_FW_UPDATE_REFUSED : Nat := 0x0803
/-- FW_UPDATE_DONE. -/
def EV_FW_UPDATE_DONE : Nat := 0x0804
/-- MC_RESTART. -/
def EV_MC_RESTART : Nat := 0x0805
/-- MC_HANDOVER. -/
def EV_MC_HANDOVER : Nat := 0x0806
/-- MC_SPARE_LOST. -/
def EV_MC_SPARE_LOST : Nat := 0x0807
/-- MC_CORE_LOST. -/
def EV_MC_CORE_LOST : Nat := 0x0808
/-- MGMT_SRAM_RETIRED. -/
def EV_MGMT_SRAM_RETIRED : Nat := 0x0809
/-- LEDGER_WRITE_FAILED. -/
def EV_LEDGER_WRITE_FAILED : Nat := 0x080a
/-- FLASH_WRITE_FAILED. -/
def EV_FLASH_WRITE_FAILED : Nat := 0x080b
/-- ROLLBACK_COMMITTED. -/
def EV_ROLLBACK_COMMITTED : Nat := 0x080c
/-- ATTEST_DONE. -/
def EV_ATTEST_DONE : Nat := 0x080d
/-- ATTEST_REFUSED. -/
def EV_ATTEST_REFUSED : Nat := 0x080e
/-- DEBUG_ENTERED. -/
def EV_DEBUG_ENTERED : Nat := 0x080f
/-- DEBUG_REFUSED. -/
def EV_DEBUG_REFUSED : Nat := 0x0810
/-- TRACE. -/
def EV_TRACE : Nat := 0x0811
/-- PWR_STATE_CHANGE. -/
def EV_PWR_STATE_CHANGE : Nat := 0x0901
/-- PWR_TRIP. -/
def EV_PWR_TRIP : Nat := 0x0902
/-- PWR_BUDGET_REFUSED. -/
def EV_PWR_BUDGET_REFUSED : Nat := 0x0903
/-- BIST_DONE. -/
def EV_BIST_DONE : Nat := 0x0904
/-- BIST_SKIPPED. -/
def EV_BIST_SKIPPED : Nat := 0x0905
/-- UNIT_UNUSABLE. -/
def EV_UNIT_UNUSABLE : Nat := 0x0906
/-- HEALTH_BELOW_GUARANTEE. -/
def EV_HEALTH_BELOW_GUARANTEE : Nat := 0x0907
/-- HEALTH_INVALID. -/
def EV_HEALTH_INVALID : Nat := 0x0908
/-- PWR_OFF_READY. -/
def EV_PWR_OFF_READY : Nat := 0x0909
/-- ANALOG_CHECK_FAILED. -/
def EV_ANALOG_CHECK_FAILED : Nat := 0x090a

end Sys2Proof.Machine
end

