-- ==== Sys2Proof/Config.lean ====
section
/-! DEFINITION. What an implementation fixes and the spec leaves open: FREE VALUES, opaque constants with no body, so that
no proof can see what they are. The log entry each names says what the spec leaves open. -/
namespace Sys2Proof.Config

/-- FREE VALUE (log entry 5): whether the lesser or greater of +0.0 and -0.0 is the first operand; R150 makes them equal
and R87, R91 name no sign. -/
opaque zeroTieFirst : Nat → Nat → Nat → Bool

/-- FREE VALUE (log entry 6): what the unpublished check-bit matrix makes of a word read with three or more bits
inverted (R263), by memory kind, address and mask. Modulo 3: 0 a correctable error with data bit `v / 3 % 64`
miscorrected, 1 an uncorrectable error, 2 no error with wrong data. -/
opaque eccMany : Nat → Nat → Nat → Nat

/-- FREE VALUE (log entry 2): the k-th value that the spec leaves open. -/
opaque free : Nat → Nat

/-- FREE VALUE (log entry 12): how far, modulo 5, the facing engines' exp (kind 0) or logistic function (kind 1) of an FP32
operand lies from the correctly rounded result where that keeps the bound of R197, an error of 2 units in the last place. -/
opaque ulp : Nat → Nat → Nat

/-- FREE VALUE (log entry 16): whether an SLH-DSA-SHA2-128s signature (third operand) of a message verifies under a public key
(16 R367, R369, R384; FIPS 205 lies outside the spec). -/
opaque slhVerify : Nat → List Byte → List Byte → Bool

/-- FREE VALUE (log entry 16): the SLH-DSA-SHA2-128s signature of a message under the identity key of a seed (16 R383). -/
opaque slhSign : Nat → List Byte → List Byte

/-- FREE VALUE (log entry 16): the identity public key of a seed (16 R383). -/
opaque slhPublic : Nat → List Byte

/-- FREE VALUE (log entry 16): SHA-256 of a message, and SHA-384 where the flag is set. -/
opaque sha : Bool → List Byte → List Byte

/-- FREE VALUE (log entry 20): which of the weights of output sample `k` of a resampled axis (input size, output size, `k`) are
rounded up to a multiple of 2^-12; R307 says only that they are such multiples and sum to 1. -/
opaque tapUp : Nat → Nat → Nat → List Bool

/-- FREE VALUE (log entry 21): a sample of an uncompressed picture that no line segment brought (13 R301), by picture, plane, row
and column. -/
opaque rawHole : Nat → Nat → Nat → Nat → Nat

/-- FREE VALUE (log entry 23): bytes of one reference picture of a context, at the coded size and depth that its stream will turn
out to have; R305 allocates the decoded picture buffer by it when the context starts, and no register states it. -/
opaque codedBytes : Nat → Nat

/-- FREE VALUE (log entry 43): what a decoder writes of reference pictures while it decodes an access unit (13 R305), as offsets in the
context's decoded picture buffer and bytes; the coding standards lie outside the spec. -/
opaque refWrites : Nat → List (Nat × List Byte)

/-- FREE VALUE (log entry 26): what PWR_IOUT.IOUT shows of a LINEAR11 current that is no multiple of 0.01 A, is negative or does not
fit the field (18 R420 gives the unit and no rounding), by the LINEAR11 word. -/
opaque ioutShown : Nat → Nat

end Sys2Proof.Config

namespace Sys2Proof

/-- One entry of the GALLEYS section (01 Table 1-2): owner, port, capacity, token size, tokens per firing of the producer and of
the consumer, declared maximum packet, initial tokens, with the port's COUNT, packet mode and loop mark (08 R189). -/
structure GalleyEnt where
  stage : Nat
  unit : Nat
  port : Nat
  capKib : Nat
  size : Nat
  prod : Nat
  cons : Nat
  maxPkt : Nat
  init : Nat
  count : Nat
  pkt : Bool
  pad : Nat
  pktTokens : Nat
  ty : Nat
  loop : Bool
  image : Nat
deriving DecidableEq, Repr, Inhabited

/-- One entry of the PLACEMENT section (01 Table 1-2): region 0 tile SRAM of a stage's unit, 1 commons, 2 HBM; offset, length
and initial contents. -/
structure PlaceEnt where
  region : Nat
  stage : Nat
  unit : Nat
  off : Nat
  len : Nat
  bytes : List Byte
deriving DecidableEq, Repr, Inhabited

/-- Initial values of a per-context area (01 R36, R40): at OFFSET + context × STRIDE in tile SRAM of a stage's unit. -/
structure InitEnt where
  stage : Nat
  unit : Nat
  off : Nat
  stride : Nat
  bytes : List Byte
deriving DecidableEq, Repr, Inhabited

/-- What the sections hold whose layout the spec does not give: PROGRAMS, GALLEYS, PLACEMENT and DATA behind the scale-watch
directory (01 Table 1-2). `bad` says that one of them breaks its own format; `regs` are tile registers as stage, unit, offset
and word; `descs` the descriptor offset of each facing-engine stage (08 R192); `streams` the tokens per frame of the weight
stream of each route template that has one, by template index, with its bytes per frame from HBM. -/
structure FormeDetail where
  bad : Bool
  programs : List (List Byte)
  galleys : List GalleyEnt
  placed : List PlaceEnt
  inits : List InitEnt
  descs : List (Nat × Nat)
  regs : List (Nat × Nat × Nat × Nat)
  entries : List (Nat × Nat × Nat)
  streams : List (Nat × List Nat × Nat)
deriving DecidableEq, Repr, Inhabited

/-- FREE VALUE (log entry 15): what the sections of a forme image hold whose layout the spec does not give. -/
opaque Config.formeDetail : List Byte → FormeDetail

/-- FREE VALUE (log entry 15): the FIREs per frame that name port `port` (R67) in the program of unit `unit` of stage `stage`, on a
replica whose band has `rows` rows from `row0` on (0 and SPLIT_ROWS: the whole stage); the image states it by its programs. -/
opaque Config.portFires : List Byte → (stage unit port row0 rows : Nat) → Nat

/-- FREE VALUE (log entry 52): where the mailbox of a management core begins among the handover mailboxes, and its bytes (16 Table
16-6). -/
opaque Config.mailboxAt : Nat → Nat
/-- FREE VALUE (log entry 52): see Config.mailboxAt. -/
opaque Config.mailboxBytes : Nat → Nat

end Sys2Proof
end

