-- ==== Sys2Proof/Machine/Float.lean ====
section
/-! DEFINITION. The number formats of 06_number_formats.md: every code as an exact value, exact sums and products, and
the ONE rounding of each into a format (R147 to R154). -/
namespace Sys2Proof.Machine

/-- The value of a floating-point code (R148): NaN, an infinity, or `(-1)^neg * m * 2^e` exactly; `m = 0` is a zero that
keeps its sign (R150). -/
inductive FVal where
  | nan
  | inf (neg : Bool)
  | fin (neg : Bool) (m : Nat) (e : Int)
deriving DecidableEq, Repr

/-- One floating-point format of Table 6-2: exponent bits, mantissa bits, bias, whether it has infinities, and its
canonical NaN. -/
structure FFmt where
  eb : Nat
  mb : Nat
  bias : Int
  hasInf : Bool
  nanCode : Nat
deriving DecidableEq, Repr

/-- FP8-E4M3. -/
def e4m3 : FFmt := ⟨4, 3, 7, false, 0x7F⟩
/-- FP8-E5M2. -/
def e5m2 : FFmt := ⟨5, 2, 15, true, 0x7E⟩
/-- FP16, IEEE 754 binary16. -/
def fp16 : FFmt := ⟨5, 10, 15, true, 0x7E00⟩
/-- BF16. -/
def bf16 : FFmt := ⟨8, 7, 127, true, 0x7FC0⟩
/-- FP32, IEEE 754 binary32. -/
def fp32 : FFmt := ⟨8, 23, 127, true, 0x7FC00000⟩

/-- The largest exponent field of a finite code: in FP8-E4M3 the field of all ones is finite (R148). -/
def FFmt.maxField (f : FFmt) : Nat := if f.hasInf then 2 ^ f.eb - 2 else 2 ^ f.eb - 1

/-- The code of the largest finite value, sign bit 0. -/
def FFmt.maxCode (f : FFmt) : Nat :=
  if f.hasInf then f.maxField * 2 ^ f.mb + (2 ^ f.mb - 1) else f.maxField * 2 ^ f.mb + (2 ^ f.mb - 2)

/-- The exponent of the format's smallest step, that of its subnormals. -/
def FFmt.minExp (f : FFmt) : Int := 1 - f.bias - f.mb

/-- The sign bit of a code, in place. -/
def FFmt.signBit (f : FFmt) (neg : Bool) : Nat := if neg then 2 ^ (f.eb + f.mb) else 0

/-- The value of a code (R148, R149: every NaN code is a NaN). -/
def FFmt.decode (f : FFmt) (code : Nat) : FVal :=
  let m := code % 2 ^ f.mb
  let e := (code / 2 ^ f.mb) % 2 ^ f.eb
  let neg := code.testBit (f.eb + f.mb)
  if f.hasInf && e = 2 ^ f.eb - 1 then (if m = 0 then .inf neg else .nan)
  else if !f.hasInf && e = 2 ^ f.eb - 1 && m = 2 ^ f.mb - 1 then .nan
  else if e = 0 then .fin neg m f.minExp
  else .fin neg (2 ^ f.mb + m) (f.minExp + e - 1)

/-- `m / 2^k` rounded to the nearest integer; a tie goes away from zero under `away` (R76), to even otherwise (R112). -/
def roundShift (away : Bool) (m k : Nat) : Nat :=
  if k = 0 then m
  else
    let q := m / 2 ^ k
    let r := m % 2 ^ k
    let half := 2 ^ (k - 1)
    if half < r then q + 1
    else if r < half then q
    else if away then q + 1
    else if q % 2 = 0 then q else q + 1

/-- The sign, steps and step exponent of the nearest value of the form `n * 2^q` with the exponent unbounded above
(R153, step 2). -/
def FFmt.roundSteps (f : FFmt) (away : Bool) (m : Nat) (e : Int) : Nat × Int :=
  let top : Int := (Nat.log2 m : Int) + e - f.mb
  let q : Int := if top < f.minExp then f.minExp else top
  if q ≤ e then (m * 2 ^ (e - q).toNat, q) else (roundShift away m (q - e).toNat, q)

/-- The code, sign apart, of `n * 2^q` with `n ≤ 2^(mb+1)`, or none where it exceeds the largest finite value. -/
def FFmt.packSteps (f : FFmt) (n : Nat) (q : Int) : Option Nat :=
  let nq : Nat × Int := if n = 2 ^ (f.mb + 1) then (2 ^ f.mb, q + 1) else (n, q)
  if nq.1 < 2 ^ f.mb then some nq.1
  else
    let field := (nq.2 - f.minExp + 1).toNat
    let code := field * 2 ^ f.mb + (nq.1 - 2 ^ f.mb)
    if code ≤ f.maxCode then some code else none

/-- A finite value rounded into a format: its code, or none where the rounded magnitude exceeds the largest finite one
(R153, steps 2 and 3). -/
def FFmt.roundFin (f : FFmt) (away : Bool) (neg : Bool) (m : Nat) (e : Int) : Option Nat :=
  if m = 0 then some (f.signBit neg)
  else
    let nq := f.roundSteps away m e
    (f.packSteps nq.1 nq.2).map (· + f.signBit neg)

/-- The code of an infinity (formats that have one). -/
def FFmt.infCode (f : FFmt) (neg : Bool) : Nat := (2 ^ f.eb - 1) * 2 ^ f.mb + f.signBit neg

/-- Conversion that may give an infinity: into FP32 (R153, step 4), and the vector unit's S = 0 (R89, R118). -/
def FFmt.toInf (f : FFmt) (away : Bool) : FVal → Nat
  | .nan => f.nanCode
  | .inf neg => f.infCode neg
  | .fin neg m e => (f.roundFin away neg m e).getD (f.infCode neg)

/-- Conversion that saturates (R153, step 4 for 8-bit and 16-bit formats; R89 and R118 with S = 1): the code, and whether
it saturated. -/
def FFmt.toSat (f : FFmt) (away : Bool) : FVal → Nat × Bool
  | .nan => (f.nanCode, false)
  | .inf neg => (f.maxCode + f.signBit neg, true)
  | .fin neg m e =>
    match f.roundFin away neg m e with
    | some c => (c, false)
    | none => (f.maxCode + f.signBit neg, true)

/-- The magnitude and sign of `x * 2^e` for an integer `x`; an exact zero is +0.0 (R150). -/
def ofInt (x : Int) (e : Int) : FVal := .fin (decide (x < 0)) x.natAbs e

/-- The integer multiple of `2^e` that a finite value is, for `e` at most its own exponent. -/
def stepsAt (neg : Bool) (m : Nat) (e0 e : Int) : Int :=
  let n : Int := (m * 2 ^ (e0 - e).toNat : Nat)
  if neg then -n else n

/-- The exact sum (R150, R158, R159): zeros of one sign keep it, any other zero sum is +0.0, infinities of opposite
sign give NaN. -/
def fadd : FVal → FVal → FVal
  | .nan, _ => .nan
  | _, .nan => .nan
  | .inf a, .inf b => if a = b then .inf a else .nan
  | .inf a, _ => .inf a
  | _, .inf b => .inf b
  | .fin na ma ea, .fin nb mb eb =>
    if ma = 0 && mb = 0 then .fin (na && nb) 0 0
    else
      let e := if ea < eb then ea else eb
      ofInt (stepsAt na ma ea e + stepsAt nb mb eb e) e

/-- The value with its sign changed. -/
def fneg : FVal → FVal
  | .nan => .nan
  | .inf a => .inf (!a)
  | .fin n m e => .fin (!n) m e

/-- The exact difference. -/
def fsub (a b : FVal) : FVal := fadd a (fneg b)

/-- The exact product; an infinity times a zero is NaN (R159). -/
def fmul : FVal → FVal → FVal
  | .nan, _ => .nan
  | _, .nan => .nan
  | .inf a, .inf b => .inf (a != b)
  | .inf a, .fin n m _ => if m = 0 then .nan else .inf (a != n)
  | .fin n m _, .inf b => if m = 0 then .nan else .inf (n != b)
  | .fin na ma ea, .fin nb mb eb => .fin (na != nb) (ma * mb) (ea + eb)

/-- The magnitude. -/
def fabs : FVal → FVal
  | .nan => .nan
  | .inf _ => .inf false
  | .fin _ m e => .fin false m e

/-- Whether `a < b` (false where either is NaN; +0.0 and -0.0 are equal, R150). -/
def flt : FVal → FVal → Bool
  | .nan, _ => false
  | _, .nan => false
  | .inf a, .inf b => a && !b
  | .inf a, .fin _ _ _ => a
  | .fin _ _ _, .inf b => !b
  | .fin na ma ea, .fin nb mb eb =>
    let e := if ea < eb then ea else eb
    decide (stepsAt na ma ea e < stepsAt nb mb eb e)

/-- Whether `a ≤ b`. -/
def fle (a b : FVal) : Bool :=
  match a, b with
  | .nan, _ => false
  | _, .nan => false
  | a, b => !flt b a

/-- Whether a value is a NaN. -/
def FVal.isNan : FVal → Bool
  | .nan => true
  | _ => false

/-- Whether a value is finite. -/
def FVal.isFin : FVal → Bool
  | .fin _ _ _ => true
  | _ => false

/-- Whether a value is a zero of either sign. -/
def FVal.isZero : FVal → Bool
  | .fin _ m _ => m == 0
  | _ => false

/-- Whether a value carries the minus sign. -/
def FVal.isNeg : FVal → Bool
  | .nan => false
  | .inf n => n
  | .fin n _ _ => n

/-- Whether a value is finite and above zero (a legal 1/s_out, R99; a legal INV_STEP, R162). -/
def FVal.finPos : FVal → Bool
  | .fin n m _ => !n && m != 0
  | _ => false

/-- +0.0. -/
def fzero : FVal := .fin false 0 0

/-- 1.0. -/
def fone : FVal := .fin false 1 0

/-- A finite value rounded to an integer (R154); 0 for the other values, which their callers treat first. -/
def roundInt (away : Bool) : FVal → Int
  | .fin neg m e =>
    let n : Int :=
      if 0 ≤ e then (m * 2 ^ e.toNat : Nat) else (roundShift away m (-e).toNat : Nat)
    if neg then -n else n
  | _ => 0

/-- The integer part, rounded down, of a finite value. -/
def floorInt : FVal → Int
  | .fin neg m e =>
    if 0 ≤ e then (if neg then -((m * 2 ^ e.toNat : Nat) : Int) else ((m * 2 ^ e.toNat : Nat) : Int))
    else
      let k := (-e).toNat
      let q : Int := (m / 2 ^ k : Nat)
      if neg then (if m % 2 ^ k = 0 then -q else -q - 1) else q
  | _ => 0

/-- The quotient of two finite values, held exactly but for a sticky last digit far below any format's last one; the
callers round it once. An infinity or NaN for the IEEE 754 cases. -/
def fdiv : FVal → FVal → FVal
  | .nan, _ => .nan
  | _, .nan => .nan
  | .inf _, .inf _ => .nan
  | .inf a, .fin n _ _ => .inf (a != n)
  | .fin n _ _, .inf b => .fin (n != b) 0 0
  | .fin na ma ea, .fin nb mb eb =>
    if mb = 0 then (if ma = 0 then .nan else .inf (na != nb))
    else
      let k := 64 + Nat.log2 mb
      let num := ma * 2 ^ k
      let q := num / mb
      .fin (na != nb) (2 * q + (if num % mb = 0 then 0 else 1)) (ea - eb - k - 1)

/-! FP32 operations, each one exact operation and ONE rounding into FP32 (R153). -/

/-- The value of an FP32 bit pattern. -/
def f32 (c : Nat) : FVal := fp32.decode c

/-- An exact value rounded into FP32. -/
def r32 (away : Bool) (x : FVal) : Nat := fp32.toInf away x

/-- FP32 addition. -/
def add32 (away : Bool) (a b : Nat) : Nat := r32 away (fadd (f32 a) (f32 b))

/-- FP32 subtraction. -/
def sub32 (away : Bool) (a b : Nat) : Nat := r32 away (fsub (f32 a) (f32 b))

/-- FP32 multiplication. -/
def mul32 (away : Bool) (a b : Nat) : Nat := r32 away (fmul (f32 a) (f32 b))

/-- FP32 division (R173: fp32(1 / s'), est / qmax). -/
def div32 (away : Bool) (a b : Nat) : Nat := r32 away (fdiv (f32 a) (f32 b))

/-- An integer converted to FP32 (R152). -/
def int32F (away : Bool) (n : Int) : Nat := r32 away (ofInt n 0)

/-- Whether an FP32 pattern is a NaN. -/
def nan32 (c : Nat) : Bool := (f32 c).isNan

/-! The element formats of Table 4-2, by their code. -/

/-- The floating-point format of a format code, where it is one. -/
def ffmtOf : Nat → Option FFmt
  | 3 => some fp16
  | 6 => some e4m3
  | 7 => some e5m2
  | 8 => some bf16
  | _ => none

/-- Bits of one element of a format (Tables 6-1 and 6-2). -/
def elemBits : Nat → Nat
  | 4 => 4
  | 5 => 4
  | 2 => 16
  | 3 => 16
  | 8 => 16
  | _ => 8

/-- The range of an integer format (Table 6-1); of a floating-point one only the zero point 0 is in range (R165). -/
def fmtRange : Nat → Int × Int
  | 0 => (-128, 127)
  | 1 => (0, 255)
  | 2 => (-32768, 32767)
  | 4 => (-8, 7)
  | 5 => (0, 15)
  | _ => (0, 0)

/-- The integer that a code of an integer format stands for. -/
def intElem (fmt code : Nat) : Int :=
  match fmt with
  | 0 => signed 8 code
  | 1 => (code % 256 : Nat)
  | 2 => signed 16 code
  | 4 => signed 4 code
  | 5 => (code % 16 : Nat)
  | _ => 0

/-- The rows of Table 2-2 a format fires in: 0 the 8-bit integers, 1 the 4-bit, 2 FP8, 3 INT16, 4 FP16 and BF16. -/
def fmtRow : Nat → Option Nat
  | 0 => some 0
  | 1 => some 0
  | 2 => some 3
  | 3 => some 4
  | 4 => some 1
  | 5 => some 1
  | 6 => some 2
  | 7 => some 2
  | 8 => some 4
  | _ => none

end Sys2Proof.Machine
end

