-- ==== Sys2Proof/Machine/Flags.lean ====
section
/-! DEFINITION. The FLAGS word of the spindle core (R77) and every lane function of VOP with the flags it sets: the
functions of Table 3-6 (R87 to R91) and those of level 2 (R117, R118). A lane is a number below 2^width. -/
namespace Sys2Proof.Machine

/-- One lane result with the sticky flags it sets: SAT for a clamp an instruction's description names, NAN for a NaN
result or a NaN converted to an integer code (R77). -/
structure LaneOut where
  code : Nat
  sat : Bool := false
  nan : Bool := false
deriving DecidableEq, Repr

/-- The FLAGS word: bit 0 SAT, bit 1 NAN (R77). -/
structure Flags where
  sat : Bool
  nan : Bool
deriving DecidableEq, Repr

/-- FLAGS as MFS reads it. -/
def Flags.word (f : Flags) : Word := BitVec.ofNat 32 (b2n f.sat + 2 * b2n f.nan)

/-- The sticky union: flags are never cleared by arithmetic (R77). -/
def Flags.join (f : Flags) (sat nan : Bool) : Flags := ⟨f.sat || sat, f.nan || nan⟩

/-- FLAGS after an instruction's lanes. -/
def Flags.lanes (f : Flags) (l : List LaneOut) : Flags := f.join (l.any (·.sat)) (l.any (·.nan))

/-- Lane width in bits of the W field: 0, 1, 2 and, at level 2, 3 (R117). -/
def laneBits (w : Nat) : Nat :=
  match w with
  | 0 => 8
  | 1 => 16
  | 2 => 32
  | _ => 4

/-- Lane `i` of a vector (R44). -/
def vlane (v : Vec) (n i : Nat) : Nat := bits v.toNat (n * i) n

/-- All lanes of a vector, lane 0 first. -/
def vlanes (n : Nat) (v : Vec) : List Nat := (List.range (512 / n)).map (vlane v n)

/-- The number that lanes of `n` bits spell, lane 0 lowest. -/
def lanesNat (n : Nat) : List Nat → Nat
  | [] => 0
  | x :: xs => x % 2 ^ n + 2 ^ n * lanesNat n xs

/-- The vector that lanes of `n` bits spell. -/
def ofLanes (n : Nat) (l : List Nat) : Vec := BitVec.ofNat 512 (lanesNat n l)

/-- A lane read as its type T says: 0 unsigned, otherwise signed (R87). -/
def laneInt (n t x : Nat) : Int := if t = 0 then ((x % 2 ^ n : Nat) : Int) else signed n x

/-- The range of an integer lane type. -/
def laneRange (n t : Nat) : Int × Int :=
  if t = 0 then (0, (2 ^ n : Nat) - 1) else (-(2 ^ (n - 1) : Nat), (2 ^ (n - 1) : Nat) - 1)

/-- An exact integer lane result reduced modulo 2^width, or clamped with S = 1 (R88). -/
def intOut (n t : Nat) (s : Bool) (x : Int) : LaneOut :=
  if s then
    let r := laneRange n t
    let c := clampInt r.1 r.2 x
    ⟨wrap n c.1, c.2, false⟩
  else ⟨wrap n x, false, false⟩

/-- The 16-bit format of a floating lane type: T = 2 FP16, T = 3 BF16. -/
def laneFmt (t : Nat) : FFmt := if t = 3 then bf16 else fp16

/-- An exact floating lane result rounded once (R89): NaN gives the canonical NaN and NAN; beyond the largest finite
value gives an infinity, or with S = 1 that value and SAT. -/
def fltOut (away : Bool) (f : FFmt) (s : Bool) (x : FVal) : LaneOut :=
  if x.isNan then ⟨f.nanCode, false, true⟩
  else if s then
    let c := f.toSat away x
    ⟨c.1, c.2, false⟩
  else ⟨f.toInf away x, false, false⟩

/-- The lesser or greater of two floating lanes: any NaN operand gives NaN (R89); of two equal zeros of different sign
the choice is FREE (log entry 5). -/
def fltPick (f : FFmt) (less : Bool) (a b : Nat) : LaneOut :=
  let x := f.decode a
  let y := f.decode b
  if x.isNan || y.isNan then ⟨f.nanCode, false, true⟩
  else if x.isZero && y.isZero && a != b then
    ⟨if Config.zeroTieFirst (b2n less) a b then a else b, false, false⟩
  else if flt x y then ⟨if less then a else b, false, false⟩
  else if flt y x then ⟨if less then b else a, false, false⟩
  else ⟨a, false, false⟩

/-- VADD, VSUB, VMUL (`op` 0, 1, 2) of one lane. -/
def laneArith (op : Nat) (away : Bool) (n t : Nat) (s : Bool) (a b : Nat) : LaneOut :=
  if t < 2 then
    let x := laneInt n t a
    let y := laneInt n t b
    intOut n t s (match op with
      | 0 => x + y
      | 1 => x - y
      | _ => x * y)
  else
    let f := laneFmt t
    let x := f.decode a
    let y := f.decode b
    fltOut away f s (match op with
      | 0 => fadd x y
      | 1 => fsub x y
      | _ => fmul x y)

/-- VMIN (`less`) and VMAX of one lane. -/
def lanePick (less : Bool) (n t a b : Nat) : LaneOut :=
  if t < 2 then
    let x := laneInt n t a
    let y := laneInt n t b
    ⟨if less then (if y < x then b else a) else (if x < y then b else a), false, false⟩
  else fltPick (laneFmt t) less a b

/-- VMAC of one lane: one rounding or saturation of the exact d + a * b. -/
def laneMac (away : Bool) (n t : Nat) (s : Bool) (d a b : Nat) : LaneOut :=
  if t < 2 then intOut n t s (laneInt n t d + laneInt n t a * laneInt n t b)
  else
    let f := laneFmt t
    fltOut away f s (fadd (f.decode d) (fmul (f.decode a) (f.decode b)))

/-- VSHL of one lane: exact, then R88. -/
def laneShl (n t : Nat) (s : Bool) (a k : Nat) : LaneOut := intOut n t s (laneInt n t a * (2 ^ k : Nat))

/-- VSRL of one lane: zeros in. -/
def laneSrl (a k : Nat) : LaneOut := ⟨a / 2 ^ k, false, false⟩

/-- VSRA of one lane: the sign of the lane as T reads it comes in. -/
def laneSra (n t a k : Nat) : LaneOut := ⟨wrap n (laneInt n t a / (2 ^ k : Nat)), false, false⟩

/-- VSRAR of one lane: a / 2^n rounded (R76, R112). -/
def laneSrar (away : Bool) (n a k : Nat) : LaneOut :=
  let x := signed n a
  ⟨wrap n (roundInt away (ofInt x (-(k : Int)))), false, false⟩

/-- VNARROW of one lane, read at `2n` bits (R88). -/
def laneNarrow (n t : Nat) (s : Bool) (a : Nat) : LaneOut := intOut n t s (laneInt (2 * n) t a)

/-- VWIDEN of one lane, read at `n / 2` bits. -/
def laneWiden (n t a : Nat) : LaneOut := ⟨wrap n (laneInt (n / 2) t a), false, false⟩

/-- VCVTF of one lane: a signed 16-bit integer to the 16-bit format of T. -/
def laneCvtf (away : Bool) (t a : Nat) : LaneOut :=
  ⟨(laneFmt t).toInf away (ofInt (signed 16 a) 0), false, false⟩

/-- VCVTI of one lane: saturating; a NaN gives 0 and sets NAN (R89). -/
def laneCvti (away : Bool) (f : FFmt) (a : Nat) : LaneOut :=
  match f.decode a with
  | .nan => ⟨0, false, true⟩
  | .inf neg => ⟨if neg then 0x8000 else 0x7FFF, true, false⟩
  | x =>
    let c := clampInt (-32768) 32767 (roundInt away x)
    ⟨wrap 16 c.1, c.2, false⟩

/-- VFCVT of one lane (R118): T = 2 reads BF16 and writes FP16, T = 3 reads FP16 and writes BF16. -/
def laneFcvt (away : Bool) (t : Nat) (s : Bool) (a : Nat) : LaneOut :=
  let src := if t = 2 then bf16 else fp16
  fltOut away (laneFmt t) s (src.decode a)

/-- VACT RELU of one lane: max(a, 0). -/
def laneRelu (n t a : Nat) : LaneOut :=
  if t < 2 then ⟨if laneInt n t a < 0 then 0 else a, false, false⟩
  else fltPick fp16 false a 0

/-- VACT CLAMP of one lane: min(max(a, 0), b). -/
def laneClamp (n t a b : Nat) : LaneOut :=
  let m := laneRelu n t a
  let r := lanePick true n t m.code b
  ⟨r.code, false, m.nan || r.nan⟩

/-- VACT LEAKY of one lane: a negative lane times LEAKY in FP32, rounded, then rounded to the lane type (R91). -/
def laneLeaky (away : Bool) (n t leaky a : Nat) : LaneOut :=
  if t < 2 then
    let x := laneInt n t a
    if 0 ≤ x then ⟨a, false, false⟩
    else
      let p := mul32 away (int32F away x) leaky
      match f32 p with
      | .fin neg m e => intOut n t true (roundInt away (.fin neg m e))
      | .inf neg => intOut n t true (if neg then (laneRange n t).1 - 1 else (laneRange n t).2 + 1)
      | .nan => ⟨0, false, true⟩
  else
    let x := fp16.decode a
    if x.isNan then ⟨fp16.nanCode, false, true⟩
    else if flt x fzero then fltOut away fp16 false (f32 (r32 away (fmul x (f32 leaky))))
    else ⟨a, false, false⟩

/-- The legal T values, the S and the imm6 of a VOP function (Table 3-6; R117 and R118 at level 2). `w` and `t` are the
raw fields; `sh` is imm6. -/
def vopLegal (level fn w t : Nat) (s : Bool) (imm : Nat) : Bool :=
  let l2 := level = 2
  let wOk := w < 3 || l2
  let tOk := t < 3 || l2
  let n := laneBits w
  let noS := !s
  let z := imm = 0
  let int := t < 2
  let flt := 2 ≤ t && w = 1
  let w4 := w != 3 || fn ≤ 9 || (16 ≤ fn && fn ≤ 18) || fn = 21
  decide wOk && decide tOk && w4 &&
  (match fn with
   | 0 => (int || flt) && z
   | 1 => (int || flt) && z
   | 2 => (int || flt) && z
   | 3 => (int || flt) && noS && z
   | 4 => (int || flt) && noS && z
   | 5 => int && noS && z
   | 6 => int && noS && z
   | 7 => int && noS && z
   | 8 => (int || flt) && noS && z
   | 9 => (int || flt) && z
   | 10 => (int || flt) && noS && imm < 2
   | 16 => int && imm < n
   | 17 => int && noS && imm < n
   | 18 => int && noS && imm < n
   | 19 => t = 1 && noS && imm < n
   | 20 => int && noS && imm < 2 && (w = 1 || w = 2 || (l2 && w = 0))
   | 21 => int && z && (w = 0 || w = 1 || (l2 && w = 3))
   | 22 => (t = 2 || t = 3) && w = 1 && noS && z
   | 23 => (t = 1 || (l2 && t = 3)) && w = 1 && noS && z
   | 24 => t < 3 && (int || w = 1) && noS && imm < 4 && (imm != 3 || (int && w = 0))
   | 25 => l2 && (t = 2 || t = 3) && w = 1 && z
   | _ => false)

/-- A lane-wise function of one operand over a whole vector. -/
def map1 (n : Nat) (f : Nat → LaneOut) (a : Vec) : List LaneOut := (vlanes n a).map f

/-- A lane-wise function of two operands over a whole vector. -/
def map2 (n : Nat) (f : Nat → Nat → LaneOut) (a b : Vec) : List LaneOut :=
  List.zipWith f (vlanes n a) (vlanes n b)

/-- A lane-wise function of three operands over a whole vector. -/
def map3 (n : Nat) (f : Nat → Nat → Nat → LaneOut) (d a b : Vec) : List LaneOut :=
  List.zipWith (fun x y => f x y.1 y.2) (vlanes n d) (List.zip (vlanes n a) (vlanes n b))

/-- VDUP: lane H * L/2 + i/2 of a. -/
def dupLanes (n h : Nat) (a : Vec) : List LaneOut :=
  let l := 512 / n
  (List.range l).map (fun i => ⟨vlane a n (h * (l / 2) + i / 2), false, false⟩)

/-- VWIDEN: lane H * L + i of a, read at half the width. -/
def widenLanes (n t h : Nat) (a : Vec) : List LaneOut :=
  let l := 512 / n
  (List.range l).map (fun i => laneWiden n t (vlane a (n / 2) (h * l + i)))

/-- VNARROW: the lower half of the lanes from a, the upper half from b, each read at twice the width. -/
def narrowLanes (n t : Nat) (s : Bool) (a b : Vec) : List LaneOut :=
  (vlanes (2 * n) a ++ vlanes (2 * n) b).map (laneNarrow n t s)

end Sys2Proof.Machine
end

