-- ==== Sys2Proof/Machine/Platen.lean ====
section
/-! DEFINITION. The arithmetic of the platen: the firing of R52, R108, R109, R157 and R158, the combine of R97 and R113, the
requantisation of R99, R115 and R160 to R163, and the scale block of R165, as functions of codes. -/
namespace Sys2Proof.Machine

/-- An accumulator or combiner lane list: 32 numbers below 2^32. -/
abbrev Lanes := List Nat

/-- 32 lanes of 0. -/
def zeroLanes : Lanes := List.replicate 32 0

/-- The firing shape of a row of Table 2-2: outputs y and reduction length R. -/
def shapeOf (row : Nat) : Nat × Nat :=
  match row with
  | 1 => (32, 128)
  | 3 => (16, 32)
  | 4 => (16, 32)
  | _ => (32, 64)

/-- Rows of a weight page under a format: 16 in the 16-bit shapes, otherwise 32 (R93). -/
def pageRows (fmt : Nat) : Nat := if elemBits fmt = 16 then 16 else 32

/-- Element `k` of a 64-byte block held as a number, in a format. -/
def elemAt (fmt : Nat) (blk k : Nat) : Nat := bits blk (elemBits fmt * k) (elemBits fmt)

/-- The exact sum of one output lane in integer mode with zero points (R108, R156). -/
def intDot (wf xf : Nat) (zw zx : Int) (n : Nat) (w x : Nat) : Int :=
  (List.range n).foldl (fun acc k => acc + (intElem wf (elemAt wf w k) - zw) * (intElem xf (elemAt xf x k) - zx)) 0

/-- An element of a floating firing: an infinity is taken as the largest finite value of its sign (R158, step 1). -/
def floatElem (f : FFmt) (code : Nat) : FVal :=
  match f.decode code with
  | .inf neg => f.decode (f.maxCode + f.signBit neg)
  | v => v

/-- Whether an element of a floating firing saturates on the MAC side. -/
def elemInf (f : FFmt) (code : Nat) : Bool :=
  match f.decode code with
  | .inf _ => true
  | _ => false

/-- The exact sum of some terms (R150). -/
def fsum : List FVal → FVal
  | [] => fzero
  | v :: vs => vs.foldl fadd v

/-- The exact firing sum of one output lane in float mode; NaN where an element is (R158, steps 2 and 3). -/
def floatDot (wf xf : FFmt) (wfmt xfmt : Nat) (n : Nat) (w x : Nat) : FVal :=
  fsum ((List.range n).map (fun k => fmul (floatElem wf (elemAt wfmt w k)) (floatElem xf (elemAt xfmt x k))))

/-- Whether any element a float firing reads in row `w` or in `x` is infinite. -/
def floatSat (wf xf : FFmt) (wfmt xfmt : Nat) (n : Nat) (w x : Nat) : Bool :=
  (List.range n).any (fun k => elemInf wf (elemAt wfmt w k) || elemInf xf (elemAt xfmt x k))

/-- What a firing makes of its accumulator bank. -/
structure FireOut where
  float : Bool
  lanes : Lanes
  sat : Bool
  nan : Bool
deriving DecidableEq, Repr

/-- One integer firing (R157): overwrite or accumulate, each lane held to INT32 with SAT. -/
def fireInt (wf xf : Nat) (ow : Bool) (zw : List Int) (zx : Int) (n : Nat) (rows : List Nat) (x : Nat)
    (bank : Lanes) : FireOut :=
  let y := pageRows wf
  let outs := (List.range 32).map (fun i =>
    let old := signed 32 (bank.getD i 0)
    if i < y then
      let s := intDot wf xf (zw.getD i 0) zx n (rows.getD i 0) x
      clampInt (-(2 ^ 31 : Nat)) ((2 ^ 31 : Nat) - 1) (if ow then s else old + s)
    else (if ow then 0 else old, false))
  ⟨false, outs.map (fun o => wrap 32 o.1), outs.any (·.2), false⟩

/-- One float firing (R158): one rounding per firing, canonical NaN. -/
def fireFloat (away : Bool) (wf xf : FFmt) (wfmt xfmt : Nat) (ow : Bool) (n : Nat) (rows : List Nat) (x : Nat)
    (bank : Lanes) : FireOut :=
  let y := pageRows wfmt
  let outs := (List.range 32).map (fun i =>
    let old := bank.getD i 0
    if i < y then
      let s := floatDot wf xf wfmt xfmt n (rows.getD i 0) x
      r32 away (if ow then s else fadd (f32 old) s)
    else (if ow then 0 else old))
  let used := (rows.take y)
  ⟨true, outs, used.any (fun w => floatSat wf xf wfmt xfmt n w x), (outs.take y).any nan32⟩

/-- One firing (R52, R108, R109): `hx` halves the reduction, `zf` folds the zero points. -/
def firing (away : Bool) (wf xf : Nat) (ow zf hx : Bool) (zw : List Int) (zx : Int) (rows : List Nat) (x : Nat)
    (bank : Lanes) : FireOut :=
  let r := (shapeOf ((fmtRow wf).getD 0)).2
  let n := if hx then r / 2 else r
  match ffmtOf wf, ffmtOf xf with
  | some fw, some fx => fireFloat away fw fx wf xf ow n rows x bank
  | _, _ => fireInt wf xf ow (if zf then zw else []) (if zf then zx else 0) n rows x bank

/-- The combine of a group-end firing (R97, R113): conversion, product and sum each rounded. -/
def combine (away : Bool) (float : Bool) (acc k c : Lanes) : Lanes :=
  (List.range 32).map (fun i =>
    let a := acc.getD i 0
    let v := if float then a else int32F away (signed 32 a)
    add32 away (c.getD i 0) (mul32 away v (k.getD i 0)))

/-! ## Requantisation -/

/-- The activation table of Table 6-6, read from its 2,112 bytes: header words and entry pairs. -/
structure ActTable where
  x0 : Nat
  invStep : Nat
  yLo : Nat
  yHi : Nat
  entries : List (Nat × Nat)
deriving DecidableEq, Repr

/-- The table that 2,112 bytes spell. -/
def actTableOf (bs : List Byte) : ActTable :=
  ⟨fieldAt bs 0 4, fieldAt bs 4 4, fieldAt bs 8 4, fieldAt bs 12 4,
   (List.range 256).map (fun i => (fieldAt bs (64 + 8 * i) 4, fieldAt bs (68 + 8 * i) 4))⟩

/-- The header checks of R162. -/
def actTableOk (bs : List Byte) : Bool :=
  let t := actTableOf bs
  (f32 t.invStep).finPos && (f32 t.x0).isFin && (f32 t.yLo).isFin && (f32 t.yHi).isFin &&
  decide (fieldAt bs 16 48 = 0)

/-- The entry of the table that the value of `v` needs (R163); none beside the table and for a NaN. -/
def tableSeg (away : Bool) (t : ActTable) (v : Nat) : Option Nat :=
  match f32 (mul32 away (sub32 away v t.x0) t.invStep) with
  | .nan => none
  | x => if flt x fzero ∨ fle (ofInt 256 0) x then none else some (floorInt x).toNat

/-- The table value of `v` (R163). -/
def tableAct (away : Bool) (t : ActTable) (v : Nat) : Nat :=
  let u := mul32 away (sub32 away v t.x0) t.invStep
  match f32 u with
  | .nan => fp32.nanCode
  | x =>
    if flt x fzero then t.yLo
    else if fle (ofInt 256 0) x then t.yHi
    else
      let i := (floorInt x).toNat
      let f := sub32 away u (int32F away i)
      let e := t.entries.getD i (0, 0)
      add32 away e.1 (mul32 away f e.2)

/-- Activation of one FP32 value (R161): 0 none, 1 ReLU, 2 leaky, 3 table. -/
def actF (away : Bool) (act leaky : Nat) (t : ActTable) (v : Nat) : Nat :=
  match act with
  | 0 => v
  | 1 => if nan32 v then fp32.nanCode else if flt fzero (f32 v) then v else 0
  | 2 => if nan32 v then fp32.nanCode else if flt (f32 v) fzero then mul32 away v leaky else v
  | _ => tableAct away t v

/-- One lane of a requantisation: its code, the flags it sets, the FP32 value of step 5, whether the clamp or conversion
changed it, and whether the code before the clamp collapsed onto the zero point (R116). -/
structure ReqLane where
  code : Nat
  sat : Bool
  nan : Bool
  v : Nat
  coll : Bool
deriving DecidableEq, Repr

/-- Steps 6 to 9 of Table 6-5 on one activated value. -/
def quantise (away : Bool) (ofmt invS : Nat) (zp lo hi : Int) (v : Nat) : ReqLane :=
  let t := mul32 away v invS
  let f := f32 t
  match ffmtOf ofmt with
  | some fo =>
    let c := fo.toSat away f
    ⟨c.1, c.2, f.isNan, v, false⟩
  | none =>
    let n := elemBits ofmt
    match f with
    | .nan => ⟨wrap n zp, false, true, v, false⟩
    | .inf neg => ⟨wrap n (if neg then lo else hi), true, false, v, false⟩
    | x =>
      let q := roundInt away x + zp
      let c := clampInt lo hi q
      ⟨wrap n c.1, c.2, false, v, decide (q = zp) && !(f32 v).isZero⟩

/-- One lane of REQ: bias, activation, then steps 6 to 9 (R99, R160). -/
def reqLane (away : Bool) (act leaky : Nat) (tab : ActTable) (ofmt invS : Nat) (zp lo hi : Int)
    (c bias : Nat) : ReqLane :=
  quantise away ofmt invS zp lo hi (actF away act leaky tab (add32 away c bias))

/-- The output codes packed in lane order (R99, R115, R147). -/
def packCodes (ofmt : Nat) (codes : List Nat) : Nat := lanesNat (elemBits ofmt) codes

/-- Bytes of 32 codes of a format: 16, 32 or 64. -/
def reqBytes (ofmt : Nat) : Nat := elemBits ofmt * 4

/-! ## The scale block (R165) -/

/-- What PSCS reads from the two tokens of a scale block. -/
structure ScaleBlock where
  sw : List FVal
  zw : List Int
  sx : FVal
  zx : Int
deriving DecidableEq, Repr

/-- The 16-bit scale format that SFMT selects. -/
def scaleFmt (sfmt : Bool) : FFmt := if sfmt then bf16 else fp16

/-- Zero point of weight lane `i` in token 1 (Table 7-1). -/
def blockZw (wf : Nat) (tok1 : Nat) (i : Nat) : Int :=
  match wf with
  | 2 => signed 16 (bits tok1 (16 * (i % 16)) 16)
  | 0 => signed 8 (bits tok1 (8 * i) 8)
  | 4 => signed 8 (bits tok1 (8 * i) 8)
  | _ => (bits tok1 (8 * i) 8 : Nat)

/-- The scale block that two tokens spell, under the current weight format and SFMT. -/
def scaleBlock (wf : Nat) (sfmt : Bool) (tok0 tok1 : Nat) : ScaleBlock :=
  ⟨(List.range 32).map (fun i => (scaleFmt sfmt).decode (bits tok0 (16 * i) 16)),
   (List.range 32).map (blockZw wf tok1),
   (scaleFmt sfmt).decode (bits tok1 256 16),
   signed 16 (bits tok1 272 16)⟩

/-- Whether a scale may be used (R110, R155): finite and not negative; -0.0 is accepted. -/
def scaleOk : FVal → Bool
  | .fin neg m _ => !neg || m == 0
  | _ => false

/-- Whether a zero point is in the range of a format. -/
def zpOk (fmt : Nat) (z : Int) : Bool :=
  let r := fmtRange fmt
  decide (r.1 ≤ z) && decide (z ≤ r.2)

/-- The checks of R110, step 2, on the block's values. -/
def scaleBlockOk (wf xf : Nat) (b : ScaleBlock) : Bool :=
  b.sw.all scaleOk && scaleOk b.sx && b.zw.all (zpOk wf) && zpOk xf b.zx

/-- A scale as it is used: -0.0 is used as +0.0 (R155). -/
def usedScale : FVal → FVal
  | .fin _ m e => .fin false m e
  | v => v

/-- K of a scale block (R110, step 4): FP32(s_w) times FP32(s_x), rounded. -/
def scaleK (away : Bool) (b : ScaleBlock) : Lanes :=
  b.sw.map (fun w => r32 away (fmul (usedScale w) (usedScale b.sx)))

end Sys2Proof.Machine
end

