-- ==== Sys2Proof/Machine/Sparse.lean ====
section
/-! DEFINITION. Sparse tables in ONE canonical form: keys strictly rising, and no entry equal to what an unlisted key
reads as. Memories (lists of `Host.Cell`), registers, contexts and quoins are all held this way, so that equal
contents are equal data. -/
namespace Sys2Proof.Machine

/-- Key and value pairs, keys strictly rising. -/
abbrev Table (α : Type) := List (Nat × α)

/-- The entry listed at `k`. -/
def tfind {α : Type} : Table α → Nat → Option α
  | [], _ => none
  | (j, v) :: t, k => if j = k then some v else if k < j then none else tfind t k

/-- `k` listed with `v`, in its place. -/
def tins {α : Type} : Table α → Nat → α → Table α
  | [], k, v => [(k, v)]
  | (j, w) :: t, k, v =>
    if j = k then (k, v) :: t else if k < j then (k, v) :: (j, w) :: t else (j, w) :: tins t k v

/-- `k` no longer listed. -/
def tdel {α : Type} : Table α → Nat → Table α
  | [], _ => []
  | (j, w) :: t, k => if j = k then t else if k < j then (j, w) :: t else (j, w) :: tdel t k

/-- What key `k` reads as; `d` says what an unlisted key reads as. -/
def tget {α : Type} (d : Nat → α) (t : Table α) (k : Nat) : α := (tfind t k).getD (d k)

/-- `k` set to `v`; the value an unlisted key reads as removes the entry. -/
def tput {α : Type} [DecidableEq α] (d : Nat → α) : Table α → Nat → α → Table α
  | [], k, v => if v = d k then [] else [(k, v)]
  | (j, w) :: t, k, v =>
    if j = k then (if v = d k then t else (k, v) :: t)
    else if k < j then (if v = d k then (j, w) :: t else (k, v) :: (j, w) :: t)
    else (j, w) :: tput d t k v

/-- Every key of a table is above `k`. -/
def tabove {α : Type} (k : Nat) (t : Table α) : Bool := t.all (fun e => k < e.1)

/-- The canonical form: keys strictly rising, no entry equal to what its key reads as unlisted. -/
def twf {α : Type} [DecidableEq α] (d : Nat → α) : Table α → Bool
  | [] => true
  | (k, v) :: t => decide (v ≠ d k) && tabove k t && twf d t

end Sys2Proof.Machine
end

