-- ==== Sys2Proof/Machine/Parts.lean ====
section
/-! DEFINITION. The parts of the machine that State holds, as plain data: memories, tiles, the fabric, galleys, engines,
contexts, sessions and the rest, each with its value after reset. A part's docstring names the rule that gives it. -/
namespace Sys2Proof.Machine

/-! ## Memories (11_memory_and_ecc.md R258, R259, R263) -/

/-- One protected memory: its bytes in canonical form (an unlisted byte is 0), the code words whose valid bit is 1, and
the code words stored with inverted bits, with their masks. -/
structure Mem where
  cells : List Host.Cell := []
  valid : Table Bool := []
  flips : Table Nat := []
deriving DecidableEq, Repr

/-! ## Tiles (02_tiles.md to 04_spindle_isa_level2.md) -/

/-- A tile's state as TILE_STATUS.STATE reports it (Table 2-7). -/
inductive TileSt where
  | idle | waitFrame | running | stalled | draining | halted | parked
deriving DecidableEq, Repr

/-- One address generator: running configuration, indices and WRAP (R47). -/
structure Ag where
  base : Nat := 0
  n : List Nat := [1, 1, 1, 1, 1]
  s : List Int := [0, 0, 0, 0, 0]
  i : List Nat := [0, 0, 0, 0, 0]
  wrap : Bool := false
deriving DecidableEq, Repr

/-- One open loop: first body word, end word, index and count (R83). -/
structure Loop where
  first : Nat
  last : Nat
  index : Nat
  count : Nat
deriving DecidableEq, Repr

/-- One weight page: EMPTY or loaded, the recorded weight format, and its rows of 64 bytes (R54, R93). -/
structure Page where
  empty : Bool := true
  fmt : Nat := 0
  rows : List Nat := []
deriving DecidableEq, Repr

/-- One accumulator bank: float mode or integer mode, and 32 lanes (R55). -/
structure Acc where
  float : Bool := false
  lanes : Lanes := zeroLanes
deriving DecidableEq, Repr

/-- The spindle core: scalar and vector registers, generators, open loops (innermost first), program counter, FLAGS,
TBASE and LEAKY, the instruction that waits, and whether an end of a loop body is due (R44 to R51, R77, R81, R84). -/
structure SCore where
  s : List Word := List.replicate 16 0
  v : List Vec := List.replicate 8 0
  ag : List Ag := List.replicate 4 {}
  loops : List Loop := []
  pc : Nat := 0
  flags : Flags := ⟨false, false⟩
  tbase : Nat := 0
  leaky : Nat := 0
  waiting : Option Instr := none
  loopDue : Bool := false
deriving DecidableEq, Repr

/-- The platen: pages, banks, formats, K, Bv, zero points and the tag state (R52 to R57, R92 to R95, R107 to R110). -/
structure PlatenSt where
  page0 : Page := {}
  page1 : Page := {}
  active1 : Bool := false
  acc : List Acc := List.replicate 16 {}
  comb : List Lanes := List.replicate 16 zeroLanes
  wf : Nat := 0
  xf : Nat := 0
  sfmt : Bool := false
  k : Lanes := zeroLanes
  bv : Lanes := zeroLanes
  zw : List Int := List.replicate 32 0
  zx : Int := 0
  stag : Nat := 0
  dp : Nat := 0
  stream : Bool := false
deriving DecidableEq, Repr

/-- A frame mark: the ticket it ends, and how many of the galley's tokens lie before it (R134). -/
structure Mark where
  ticket : Nat
  before : Nat
deriving DecidableEq, Repr

/-- One tile galley: read slot, the fabric tags of the tokens held (oldest first), frame marks, the active feed, tokens of
the packet at the head not yet landed, tokens still to discard on arrival, tokens of the packet being assembled, and
whether R289 has occurred (R63, R282 to R289). -/
structure TGalley where
  rptr : Nat := 0
  tags : List Nat := []
  marks : List Mark := []
  feed : Nat := 0
  pktLeft : Nat := 0
  dropLeft : Nat := 0
  asm : Nat := 0
  mismatch : Bool := false
deriving DecidableEq, Repr

/-- A recurrent loop port: whether the port is one, its AVAIL, reductions owed, whether its FIRE has issued in this
frame, contexts whose reset token is due, and the place of the initial image (08 R189, R190). -/
structure LoopPort where
  on : Bool := false
  avail : Nat := 0
  owed : Nat := 0
  fired : Bool := false
  resets : List Nat := []
  image : Nat := 0
deriving DecidableEq, Repr

/-- The galley ports g0 to g11: galleys, ring pointers, block tags of g0 to g7, tag counters of g8 to g11, loop ports. -/
structure Ports where
  g : List TGalley := List.replicate 12 {}
  ring : List Nat := List.replicate 12 0
  inTag : List Nat := List.replicate 8 0
  outTag : List Nat := List.replicate 4 0
  loop : List LoopPort := List.replicate 12 {}
deriving DecidableEq, Repr

/-- Control tokens of sub-channel A (Table 5-6). -/
inductive CtlTok where
  | start (fidx : Nat)
  | ticket (n : Nat)
  | frameEnd (n : Nat) (aborted : Bool)
  | eos (fidx : Nat)
  | tagReset
  | steer (unit sel : Nat)
deriving DecidableEq, Repr

/-- What one control input has delivered for the frame at hand (R135); `bad` at the output engine: a token lost between frames
aborts the next one (R131). -/
structure CtlIn where
  start : Option Nat := none
  ticket : Option Nat := none
  steers : List (Nat × Nat) := []
  ended : Option Bool := none
  eos : Option Nat := none
  tagReset : Bool := false
  bad : Bool := false
deriving DecidableEq, Repr

/-- The frame a tile holds: forme context index, ticket, whether it is aborted here, whether ENDF has completed. -/
structure TFrame where
  fidx : Nat
  ticket : Nat
  aborted : Bool := false
  endf : Bool := false
deriving DecidableEq, Repr

/-- A tile's control unit: control inputs 0 to 7, the frame held, the pending table, the last 64 tickets whose end it has
forwarded, and an abort due to the next frame (R131, R135, R136). -/
structure CtlUnit where
  inp : List CtlIn := List.replicate 8 {}
  frame : Option TFrame := none
  pending : List Nat := []
  past : List Nat := []
  abortNext : Bool := false
deriving DecidableEq, Repr

/-- One watch group of a frame: LANES, SAT, COLL and PEAK (07 R171). -/
structure Watch where
  lanes : Nat := 0
  sat : Nat := 0
  coll : Nat := 0
  peak : Nat := 0
deriving DecidableEq, Repr

/-- A copier job: the descriptor as read at issue, the address of its CPY (R100, R174), the destination rows done, and the
elements that a block of source rows has been read into, row by row (R178, R179). -/
structure CopyJob where
  desc : List Byte
  pc : Nat
  done : Nat := 0
  held : List (List Nat) := []
deriving DecidableEq, Repr

/-- One tile (Table 2-1). `back` is the state to which RESUME returns (R71); `imp` the impression it holds, and `wave` how many it has
left since commit (R213). -/
structure Tile where
  st : TileSt := .idle
  back : TileSt := .idle
  core : SCore := {}
  plat : PlatenSt := {}
  ports : Ports := {}
  ctl : CtlUnit := {}
  watch : List Watch := List.replicate 13 {}
  jobs : List CopyJob := []
  imp : Nat := 0
  wave : Nat := 0
  logical : Nat := 0
  sram : Mem := {}
  gsram : Mem := {}
  prog : Mem := {}
deriving DecidableEq, Repr

/-! ## The fabric (05_chase_fabric.md) -/

/-- A token on a data lane: its data and its fabric tag (Table 5-1). -/
structure Token where
  data : Nat
  tag : Nat
deriving DecidableEq, Repr

/-- Where a route starts: an output port of a tile, a steering unit, the input facing engine, a stream engine, or refill
stream `i` of a slot (05 R126, 09 R209). -/
inductive Src where
  | port (t p : Nat)
  | steer (sw k : Nat)
  | feIn (slot : Nat)
  | eng (e : Nat)
  | refill (slot i : Nat)
deriving DecidableEq, Repr

/-- Where a route ends: feed `f` of an input port, input `j` of a steering unit, a window of the output facing engine, or
a spill stream. -/
inductive Dst where
  | port (t p f : Nat)
  | steer (sw k j : Nat)
  | feOut (slot stage : Nat)
  | spill (slot i : Nat)
deriving DecidableEq, Repr

/-- One receiver of a route: the sender's credit counter for it, credits on their way back, the tokens on the lane, and
the feed window with its unit count (R126 to R130). Inputs 1 to 3 of a steering unit, which no control route reaches: the ends of
frames in the lane, as tokens before each, and the frames that the unit has ended and the source has not (R140). -/
structure Recv where
  dst : Dst
  credits : Nat
  coming : Nat := 0
  lane : List Token := []
  skip : Nat := 0
  take : Nat := 0
  all : Bool := true
  seen : Nat := 0
  marks : List Nat := []
  late : Nat := 0
deriving DecidableEq, Repr

/-- One route of a resident forme: its source, network, receivers, the tag counter and the tokens still to ship of a
facing engine or stream engine source, whether MULTICAST_LAG was raised for the current frame, and the switches it passes (R126,
R141, R166, 09 R211). -/
structure Route where
  slot : Nat
  imp : Nat := 0
  src : Src
  scalar : Bool
  back : Bool := false
  recvs : List Recv
  tag : Nat := 0
  todo : List Nat := []
  lagged : Bool := false
  links : Nat := 0
  longs : Nat := 0
  via : List Nat := []
deriving DecidableEq, Repr

/-- One control route: source, destination and input, the tokens on its two sub-channels, and the switches it passes (R127,
R132). -/
structure CtlRoute where
  slot : Nat
  imp : Nat := 0
  src : Src
  dst : Node
  k : Nat
  mask : Nat := 0
  a : List CtlTok := []
  x : List Nat := []
  via : List Nat := []
deriving DecidableEq, Repr

/-- A steering unit (R138 to R140): its switch and number, index, inputs, block size, blocks of a frame, the held STEER and the
frame, the blocks forwarded of it, the tickets of aborts that came before their frame, the last 64 that it has ended, and an
abort due to the next frame; the tokens it holds of an input lie on that receiver's lane. -/
structure Steerer where
  sw : Nat
  k : Nat
  slot : Nat
  unit : Nat
  inputs : Nat
  block : Nat
  imp : Nat := 0
  sel : Option Nat := none
  frame : Option Nat := none
  fidx : Nat := 0
  aborted : Bool := false
  pend : List Nat := []
  blocks : Nat := 0
  done : Nat := 0
  past : List Nat := []
  abortNext : Bool := false
deriving DecidableEq, Repr

/-! ## Frames, slots and impressions (01, 09, 10) -/

/-- A frame in flight (R222, R231, R236, R313). -/
structure Flight where
  ticket : Nat
  ctx : Nat
  fidx : Nat
  slot : Nat
  seq : Nat := 0
  rtp : Nat := 0
  arrival : Nat := 0
  decided : Nat := 0
  accepted : Nat := 0
  deadline : Nat := 0
  contract : Bool := false
  o : Nat := 0
  buf : Nat := 0
  sent : Bool := false
  taken : Bool := false
  degraded : Bool := false
  broken : Bool := false
  aborted : Bool := false
  cause : Nat := 0
  fslot : Option Nat := none
  expired : Bool := false
deriving DecidableEq, Repr

/-- An input that is whole and waits for admission (R230). -/
structure Waiting where
  ctx : Nat
  buf : Nat
  since : Nat
  seq : Nat := 0
  rtp : Nat := 0
  arrival : Nat := 0
deriving DecidableEq, Repr

/-- One entry of the scale-watch directory (Table 7-3). -/
structure ScaleDir where
  stage : Nat
  unit : Nat
  rq : Nat
  qmax : Nat
  zout : Int
  sfmt : Bool
  k : Nat
  stride : Nat
  off : Nat
deriving DecidableEq, Repr

/-- A watch report posted to MC2 (R172), with the impression that the tile held and the base time at which its frame was accepted,
which tells the frame from a later one of the same ticket. -/
structure Report where
  ticket : Nat
  ctx : Nat
  slot : Nat
  fidx : Nat
  tile : Nat
  rq : Nat
  w : Watch
  imp : Nat := 0
  accepted : Nat := 0
deriving DecidableEq, Repr

/-- A decided new scale, written beside the selected one, that waits for a gap in the context's frames (R170, R173). -/
structure Flip where
  slot : Nat
  ctx : Nat
  fidx : Nat
  stage : Nat
  unit : Nat
  off : Nat
deriving DecidableEq, Repr

/-- One placed tile: stage, replica, unit, band rows, physical tile and impression (R17, R23, R204). -/
structure Placed where
  imp : Nat
  stage : Nat
  rep : Nat
  unit : Nat
  row0 : Nat
  rows : Nat
  phys : Nat
deriving DecidableEq, Repr

/-- The initial bytes of one per-context area (R36, R40): OFFSET + context * STRIDE in each replica's tile SRAM. -/
structure CtxInit where
  stage : Nat
  unit : Nat
  off : Nat
  stride : Nat
  bytes : List Byte
deriving DecidableEq, Repr

/-- A spill or refill stream of a cut (R209, R210): cut, the tile at its array end, whether it is done, and the frame slots ahead of
which TAG_RESET is due (R208). -/
structure CutStream where
  imp : Nat
  cut : Nat
  tile : Nat
  port : Nat
  spill : Bool
  row0 : Nat
  rows : Nat
  engine : Nat := 0
  started : Bool := false
  done : Bool := false
  fslot : Nat := 0
  taken : Nat := 0
  tagDue : List Nat := []
deriving DecidableEq, Repr

/-- One cut of the impression plan (Table 9-2). -/
structure Cut where
  srcStage : Nat
  srcUnit : Nat
  srcPort : Nat
  rows : Nat
  rowBytes : Nat
  quoin : Nat
  buf : Nat
deriving DecidableEq, Repr

/-- A persist area and its copy in the impression store (R205, R216). -/
structure Persist where
  stage : Nat
  unit : Nat
  phys : Nat
  off : Nat
  len : Nat
  copy : List Byte
deriving DecidableEq, Repr

/-- What the store holds for one tile in one impression (R205): logical number, tile registers by offset from the window's
register base, switch words by index, the program, placed bytes, loop ports with their AVAIL (R213). -/
structure StoreTile where
  imp : Nat
  phys : Nat
  logical : Nat
  regs : List (Nat × Nat)
  words : List (Nat × Nat)
  prog : List Byte
  placed : List (Nat × List Byte)
  loop : List LoopPort
deriving DecidableEq, Repr

/-- The impression sequencer of a slot (R202 to R213): plan, round in progress, streams, store; `words` are the words of each
impression at switches of tiles that carry no stage of it, as impression, key and word, and `outer` is the impression whose words
stand at those that the slot does not hold; `drained` are the tiles that have done step 1 of Table 9-5, `due` those that wait for
step 5; `lost` says that the array can carry the round no further (R214, R215). -/
structure ImpSt where
  count : Nat := 1
  roundMax : Nat := 0
  hostGate : Bool := false
  gateQ : Nat := 0
  doneQ : Nat := 0
  phase : Nat := 0
  cuts : List Cut := []
  streams : List CutStream := []
  waiting : List Nat := []
  round : List (Nat × Bool) := []
  passed : List Nat := []
  persist : List Persist := []
  store : List StoreTile := []
  storePages : List Nat := []
  words : List (Nat × Nat × Nat) := []
  outer : Nat := 0
  drained : List Nat := []
  due : List Nat := []
  lost : Bool := false
  roundTime : Nat := 0
  roundEnd : Nat := 0
deriving DecidableEq, Repr

/-- One forme slot (R18 to R37): its state (Table 1-11), what the load left, and the forme figures of R227 in ns. Power in
units of 0.05 W; `streams` are the tokens per frame of its weight and scale streams, by engine. -/
structure Slot where
  st : Nat := 0
  autoRelock : Bool := false
  overridden : Bool := false
  image : Nat := 0
  formeId : Nat := 0
  level : Nat := 2
  contract : Bool := false
  multi : Bool := false
  maxCtx : Nat := 0
  ifMin : Nat := 0
  ifMax : Nat := 0
  version : Nat := 0
  tiles : List Nat := []
  placed : List Placed := []
  power : Nat := 0
  commons : Nat := 0
  commonsLen : Nat := 0
  region : Nat := 0
  pages : List Nat := []
  quoin : Nat := 0
  quoins : Nat := 0
  tin : Nat := 0
  df : Nat := 0
  pf : Nat := 0
  hf : Nat := 0
  tout : Nat := 0
  lmin : Nat := 0
  rf : Nat := 0
  fidx : Table (Option Nat) := []
  inDesc : Option Nat := none
  heads : List (Nat × Nat) := []
  dir : List ScaleDir := []
  inits : List CtxInit := []
  engines : List Nat := []
  streams : List (Nat × List Nat) := []
  digest : List Byte := []
  tagReset : Bool := false
  imp : ImpSt := {}
  progress : Nat := 0
  relock : Bool := false
deriving DecidableEq, Repr

/-! ## Facing engines (08_convolution_mapping.md R191 to R201) -/

/-- What one route has brought to a head stage while the output engine works on a frame: tokens taken, oldest first. -/
structure HeadIn where
  stage : Nat
  src : Src
  toks : List Nat := []
deriving DecidableEq, Repr

/-- The output engine (R193): the slots whose FRAME_START has reached it, oldest first (the first one's frame is at work),
what each control input has delivered, the head stages' inputs of the frame at work, and the tickets of ABORTs. -/
structure FeOut where
  order : List Nat := []
  inp : Table CtlIn := []
  heads : List HeadIn := []
  x : List Nat := []
deriving DecidableEq, Repr

/-- The facing engines: the ticket of the frame that the input engine sends, the output engine, and the last 64 frames whose
records have left it, as ticket and context (01 R42). -/
structure Facing where
  sending : Option Nat := none
  out : FeOut := {}
  done : List (Nat × Nat) := []
deriving DecidableEq, Repr

/-! ## Stream engines and galleys (12_stream_engines_and_galleys.md) -/

/-- A general stream engine or merge channel (Table 12-8). `st` is STATUS.STATE; `batch` the eight descriptors fetched,
`bi` the one in progress; `waitq` an abandoned WAITQ to repeat; `hold` the bytes read for a ROUTE endpoint that do not fill a token
yet. -/
structure Eng where
  st : Nat := 0
  held : Option Nat := none
  batchAddr : Nat := 0
  batch : List (List Byte) := []
  bi : Nat := 0
  i0 : Nat := 0
  idx : List Nat := [0, 0, 0, 0]
  done : Nat := 0
  err : Nat := 0
  waitq : Bool := false
  passed : Bool := false
  hold : List Byte := []
deriving DecidableEq, Repr

/-- A packet in an ingress or result galley: slots filled, bytes, the bytes that a drain has taken (R284, R423), and whether it
is a later part of the record before it (13 R314). -/
structure Pkt where
  slots : Nat
  len : Nat
  drained : Nat := 0
  cont : Bool := false
deriving DecidableEq, Repr

/-- The packet being assembled: bytes held, bytes discarded, and whether the rest is being discarded (R285, R286). -/
structure Asm where
  len : Nat
  dropped : Nat := 0
  discard : Bool := false
  ty : Nat := 0
deriving DecidableEq, Repr

/-- An ingress or result galley: read and write slot, packets held, the packet being assembled, bytes held outside packet
mode, XOFF and MISMATCH (R282 to R290); `lastDrop` the time of the galley's last RESULT_DROPPED and `dropped` the count
since (R352). -/
structure CGalley where
  rptr : Nat := 0
  wptr : Nat := 0
  pkts : List Pkt := []
  asm : Option Asm := none
  raw : Nat := 0
  xoff : Bool := false
  mismatch : Bool := false
  lastDrop : Option Nat := none
  dropped : Nat := 0
  seq : Nat := 0
deriving DecidableEq, Repr

/-! ## Network and contexts (13, 15) -/

/-- A packet in a jitter buffer: extended sequence number, number of its access unit (FRAME_SEQ of R313), timestamp, marker,
arrival in base time and in device time, payload, and where in HBM it was written. -/
structure JPkt where
  xseq : Nat
  au : Nat
  ts : Nat
  marker : Bool
  time : Nat
  dev : Nat
  payload : List Byte
  addr : Nat := 0
deriving DecidableEq, Repr

/-- An access unit handed on: frame sequence, timestamp, arrival, payloads, and where in HBM they lie. -/
structure Au where
  seq : Nat
  ts : Nat
  arrival : Nat
  data : List (List Byte)
  addrs : List Nat := []
deriving DecidableEq, Repr

/-- Picture buffer states: free, being written, whole and waiting, or held by a frame in flight. -/
inductive BufSt where
  | free | claimed | whole | inUse
deriving DecidableEq, Repr

/-- The ingest of one context (R296 to R309): fixed SSRC, the highest extended sequence number and the bad-sequence memory of
R297, the first packet since the start or resynchronisation, the last one released, packets held, units lost (timestamp and
last packet), units opened, units released that wait for the decoder, the units decoded last (newest first), pictures that
fill their buffer, the index of the next picture, STATE, the unit whose NAL units the decoder gets before it is whole, and the buffer
that its picture has claimed (none where it found none or is not taken; R302). -/
structure Ingest where
  ssrc : Option Nat := none
  maxSeq : Option Nat := none
  badSeq : Option Nat := none
  firstSeq : Option Nat := none
  released : Option Nat := none
  held : List JPkt := []
  lost : List (Nat × Nat) := []
  opened : Nat := 0
  aus : List Au := []
  decoded : List Au := []
  pics : List (Nat × Picture × Au) := []
  picIdx : Nat := 0
  st : Nat := 0
  early : Option Nat := none
  part : Option (Option Nat) := none
deriving DecidableEq, Repr

/-- One context (Table 15-7; R349 to R351): STATE, forme context index, buffers and quoins; `jbPages` are the HBM pages of its jitter
buffer and, behind the first `jbCount` of them, of its decoded picture buffer, mapped from region entry `region` on (R305). -/
structure Ctx where
  st : Nat := 0
  slot : Nat := 0
  fidx : Nat := 0
  base : Nat := 0
  bufBytes : Nat := 0
  bufs : List BufSt := []
  next : Nat := 0
  freeNext : Nat := 0
  inQ : Nat := 0
  freeQ : Nat := 0
  jbPages : List Nat := []
  jbCount : Nat := 0
  region : Nat := 0
  seq : Nat := 0
  eosSent : Bool := false
  eosDone : Bool := false
  ing : Ingest := {}
deriving DecidableEq, Repr

/-- One Ethernet port: entries held in the PTP receive queue and its HEAD, the PTP frame that waits or is being sent with its
link, datagrams sent per galley, the next IPv4 identification, and the galley drained last (R310, R311, R315); the queue's entries and
the transmit buffer are registers. -/
structure NetPort where
  rxCount : Nat := 0
  head : Nat := 0
  txWait : Option (Nat × List Byte) := none
  seqs : Table Nat := []
  ident : Nat := 0
  turn : Nat := 255
deriving DecidableEq, Repr

/-! ## Stream port, Burl fabric, I/O (14) -/

/-- One receiving lane (R316, R317): the descrambler's last 58 bits, valid sync headers in a row, the validity of the last 64 headers
(newest first), blocks received, the one that was the lane's ALIGN of the round in progress, and the blocks of the stripe not yet
taken. -/
structure SpLane where
  scr : Nat := 0
  good : Nat := 0
  recent : List Bool := []
  slot : Nat := 0
  mark : Option Nat := none
  held : List (Nat × Nat) := []
deriving DecidableEq, Repr

/-- The stream port (R317 to R324): the record whose EOR has not come and the base time of its SOR, records sent per channel, the
galley whose record has been begun, when SP_XOFF_IN rose (until XOFF_TIMEOUT has passed), payload bytes that may still leave
while it is high, whether the record begun ends with an ABORT block; the receiving lanes, ALIGN rounds matched in a row, the lane whose
block comes next, the last data block of the record in progress, whether the blocks of a record that was given up are being passed
over; the scramblers of the sending lanes, the lane that takes the next block and the blocks sent on it; and the galley drained last. -/
structure Sport where
  cur : Option SpRec := none
  since : Nat := 0
  seqs : List Nat := List.replicate 16 0
  sending : Option Nat := none
  xoffSince : Option Nat := none
  left : Nat := 0
  cut : Bool := false
  rx : List SpLane := List.replicate 4 {}
  rounds : Nat := 0
  turn : Nat := 0
  tail : List Byte := []
  stray : Bool := false
  tx : List Nat := List.replicate 4 0
  txTurn : Nat := 0
  txSlot : Nat := 0
  galTurn : Nat := 255
deriving DecidableEq, Repr

/-- One Burl queue (R331 to R333): its memory of 34-bit words (data, then tag), read place and level, the FROM_SPORT XOFF state;
whether a run or picture is in progress and whether the rest of it is being discarded; rows written and the row in
progress, the picture's buffer, number and arrival, and whether its notice is due; since when a write waits. -/
structure BQueue where
  mem : Table Nat := []
  rptr : Nat := 0
  level : Nat := 0
  xoff : Bool := false
  run : Bool := false
  bad : Bool := false
  rows : List Nat := []
  row : Option (Nat × List Nat) := none
  buf : Option Nat := none
  seq : Nat := 0
  arrival : Nat := 0
  due : Bool := false
  waitSince : Option Nat := none
deriving DecidableEq, Repr

/-- One warning tap: the word presented and waiting, the bits shown and the strobe (R334). -/
structure Tap where
  wait : Option Nat := none
  bits : Nat := 0
  strobe : Bool := false
deriving DecidableEq, Repr

/-- The Burl fabric (R325 to R335): STATE, the configuration as written, macrocell values, queues, taps; whether outputs, writes
and the flip-flops are released, CLK0 edges left before the next step, and whether it is unloading; edges left of an armed
capture and whether it has fired; the base time of each clock's last edge. -/
structure Burl where
  st : Nat := 0
  image : List Byte := []
  mc : List Bool := List.replicate 1024 false
  q : List BQueue := List.replicate 8 {}
  taps : List Tap := List.replicate 8 {}
  outs : Bool := false
  writes : Bool := false
  run : Bool := false
  edges : Nat := 0
  unloading : Bool := false
  cap : Option Nat := none
  fired : Bool := false
  lastEdge : List Nat := List.replicate 4 0
deriving DecidableEq, Repr

/-- The I/O cells and bank supplies (R336 to R338, R418): filtered levels before INV, BANK_V of each bank, and the base time at
which its supply last entered a range. -/
structure IoSt where
  filt : List Bool := List.replicate 32 false
  bank : List Nat := List.replicate 4 0
  since : List Nat := List.replicate 4 0
deriving DecidableEq, Repr

/-! ## Host, events, quoins (15) -/

/-- An event record (Table 15-8). -/
structure Ev where
  time : Nat
  code : Nat
  source : Nat
  seq : Nat
  a0 : Nat
  a1 : Nat
  a2 : Nat
deriving DecidableEq, Repr

/-- One transport's session (R341 to R345, R355): `events` are the queued records with the base time of queueing, `kept` the
last responses by TAG, `waitQ` a QUOIN WAIT that holds the session with its quoin and deadline, `held` the requests that came meanwhile. -/
structure Sess where
  isOpen : Bool := false
  restricted : Bool := false
  boot : Bool := false
  version : Nat := 0
  src : Nat := 0
  mask : Nat := 0xFFFFFFFF
  events : List (Nat × Ev) := []
  lost : Nat := 0
  kept : List (Nat × List Byte) := []
  waitQ : Option (HostHdr × Nat × Nat) := none
  held : List Instr := []
  lastReq : Nat := 0
deriving DecidableEq, Repr

/-- Who waits on a quoin (R347). -/
inductive Waiter where
  | tile (t : Nat)
  | eng (e : Nat)
  | merge (c : Nat)
  | seq (slot tag : Nat)
  | host (mgmt : Bool)
  | core (c : Nat)
deriving DecidableEq, Repr

/-- What the last access over a bus answered. -/
inductive Resp where
  | none
  | ok (bytes : List Byte)
  | busError
  | refused
  | uncorr
deriving DecidableEq, Repr

/-- What has left the device: responses and event or result transfers of the host transports, datagrams, PTP frames,
stream port records and blocks, management datagrams, TAP choices. -/
inductive Out where
  | response (mgmt : Bool) (src : Nat) (bytes : List Byte)
  | usbEvents (bytes : List Byte)
  | mgmtEvents (dst : Nat) (bytes : List Byte)
  | usbRecord (bytes : List Byte)
  | netFrame (port link : Nat) (bytes : List Byte)
  | sportRecord (ch seq : Nat) (bytes : List Byte)
  | sportAbort
  | sportWords (lanes : List (List (Nat × Nat)))
  | tapSelect (i : TapIns)
  | serverWrite (health : Bool) (bytes : List Byte)
deriving DecidableEq, Repr

/-- The event log (R354, R355, R380): next SEQ, ring newest first, records waiting for the mirror, and the times of the
events raised at most once per span, by an internal key. -/
structure LogSt where
  seq : Nat := 0
  ring : List Ev := []
  mirror : List Ev := []
  powerOns : Nat := 0
  last : Table (Option Nat) := []
deriving DecidableEq, Repr

/-! ## Firmware, security, power, health (16, 17) -/

/-- A live update in progress (R376, R378): the last step of Table 16-8 that is done, the roles passed in step 5, the first granule of
the staging area, and the staged image. -/
structure Upd where
  step : Nat
  pass : Nat := 0
  granule : Nat
  img : Option (List Byte)
deriving DecidableEq, Repr

/-- The firmware (Tables 16-1, 16-3): whether it runs, whether the ROM stands in USB recovery, whether steps 1 and 2 of Table 16-1 are
due, the running image's manifest fields, its compatibility table as KIND, LO and HI, its length, core restarts as core and base
time (R375), whether the identity private key is present, whether debug mode was entered since power-on or cold reset, the BOOT_SEL
sampled at reset, the attestation report that waits for its signature, with its address (R383), the live update in progress, and a
core held in reset whose roles have no holder yet (R374). The image itself lies in the
protected image area of management SRAM (Table 16-6). -/
structure Fw where
  running : Bool := false
  recovery : Bool := false
  fresh : Bool := true
  secVersion : Nat := 0
  formats : Nat := 0
  revoke : Nat := 0
  keySlot : Nat := 0
  compat : List (Nat × Nat × Nat) := []
  length : Nat := 0
  restarts : List (Nat × Nat) := []
  attKey : Bool := false
  debugUsed : Bool := false
  bootSel : Nat := 0
  report : Option (Nat × List Byte) := none
  upd : Option Upd := none
  down : Option Nat := none
deriving DecidableEq, Repr

/-- One ledger entry (Table 11-17). -/
structure LedgerEnt where
  memory : Nat
  inst : Nat
  bank : Nat
  kind : Nat
  fail : Nat
  spare : Nat
deriving DecidableEq, Repr

/-- The OTP key store (Table 16-5), and the factory repairs held in fuses (11 R267). -/
structure Otp where
  uid : Nat := 0
  returned : Nat := 0
  revoke : Nat := 0
  rollback : Nat := 0
  seed : Nat := 0
  fwKeys : List Nat := List.replicate 4 0
  formeKeys : List Nat := List.replicate 8 0
  debugKeys : List Nat := List.replicate 2 0
  fuses : List LedgerEnt := []
  endorsement : List Byte := []
  mac : Nat := 0
deriving DecidableEq, Repr

/-- The health map and repair ledger (R268, R403, R405; Tables 11-17 and 17-9): unit bytes 0 to 132 as (STATE, CAUSE),
retired granules and frames, sequences; `hardSeen` the words found hard (address, and bit position plus 1 times 2^40) or
uncorrectable (address alone, once per read), `exhausted` tiles due to become unusable at their next park (R270), `stopped`
granules not allocated until their repair takes effect (R269), `handled` the words of `hardSeen` that have been repaired or found
without a spare (R270), `inForce` the repairs applied when their banks last powered up (R267). -/
structure Health where
  units : List (Nat × Nat) := List.replicate 133 (1, 0)
  granules : List Nat := []
  frames : List Nat := []
  seq : Nat := 0
  clean : Bool := false
  shutdownTime : Nat := 0
  ledger : List LedgerEnt := []
  ledgerSeq : Nat := 0
  mapDue : Bool := false
  ledgerDue : Bool := false
  hardSeen : List Nat := []
  handled : List Nat := []
  inForce : List LedgerEnt := []
  exhausted : List Nat := []
  stopped : List Nat := []
deriving DecidableEq, Repr

/-- Power states, domains, tests and the trip (R394 to R404): the domains that are on, units under test and those that wait with
their base time, governor counters (R220), successive polls over the limit and since when the trip conditions are clear, the
frames that a trip lost, the shedding times (R237), the tiles whose health records have been read (R357), whether RESET_N is
held low (R414), and the master of a warm reset that waits for a flash write (R390). -/
structure Pwr where
  on : Table Bool := []
  testing : List Nat := []
  queue : List (Nat × Nat) := []
  lowWin : Nat := 0
  goodWin : Nat := 0
  retry : Bool := false
  overPolls : Nat := 0
  coolSince : Option Nat := none
  lost : List Flight := []
  stepSince : Option Nat := none
  thermCool : Option Nat := none
  joined : List Nat := []
  resetLow : Bool := false
  warmDue : Option Nat := none
deriving DecidableEq, Repr

/-- The scrub in progress: next address, end, words checked as hard by the environment (R264, R265). -/
structure Scrub where
  next : Nat
  stop : Nat
  hard : List Nat := []
deriving DecidableEq, Repr

end Sys2Proof.Machine
end

