-- ==== Sys2Proof/Machine/Plan.lean ====
section
/-! DEFINITION. A forme image as the loader reads it, and the plan that the checks of a load settle before commit (01 R12 to R16,
R18, R30, R34): what State holds while a load is in progress. -/
namespace Sys2Proof.Machine

/-- One entry of an access table as its three words (Table 11-10). -/
structure AccEnt where
  e0 : Nat := 0
  e1 : Nat := 0
  e2 : Nat := 0
deriving DecidableEq, Repr

/-- A stage record (Table 1-3). -/
structure Stage where
  id : Nat
  kind : Nat
  cls : Nat
  width : Nat
  rmax : Nat
  split : Nat
  imp : Nat
  fpr : Nat
  fixed : Nat
  prog : Nat
  margin : Nat
  depth : Nat
deriving DecidableEq, Repr

/-- A route template (Table 5-5). -/
structure Tmpl where
  src : Nat
  srcUnit : Nat
  srcPort : Nat
  dst : Nat
  dstUnit : Nat
  dstPort : Nat
  net : Nat
  flags : Nat
  steer : Nat
  cfg : Nat
deriving DecidableEq, Repr

/-- A relocation entry (Table 1-5). -/
structure Reloc where
  stage : Nat
  unit : Nat
  ty : Nat
  off : Nat
  lsb : Nat
  width : Nat
  sym : Nat
  addend : Nat
deriving DecidableEq, Repr

/-- A SLACK entry (Table 10-4). -/
structure SlackEnt where
  stage : Nat
  pch : Nat
  scrub : Nat
  bridge : Nat
  hbmNs : Nat
deriving DecidableEq, Repr

/-- A refill entry (Table 9-3). -/
structure Refill where
  cut : Nat
  dst : Nat
  dstUnit : Nat
  dstPort : Nat
  all : Bool
deriving DecidableEq, Repr

/-- A persist entry (Table 9-4). -/
structure PersistEnt where
  stage : Nat
  unit : Nat
  off : Nat
  len : Nat
deriving DecidableEq, Repr

/-- A forme image, read. -/
structure Forme where
  img : List Byte
  version : Nat
  level : Nat
  flags : Nat
  ifMin : Nat
  ifMax : Nat
  id : Nat
  stageCount : Nat
  impCount : Nat
  tilesMin : Nat
  tilesMax : Nat
  maxCtx : Nat
  commons : Nat
  pages : Nat
  quoins : Nat
  sigOff : Nat
  stages : List Stage
  tmpls : List Tmpl
  relocs : List Reloc
  slack : List SlackEnt
  assumed : List Nat
  counts : List (List Nat × List Nat)
  roundMax : Nat
  hostGate : Bool
  gateQ : Nat
  doneQ : Nat
  cuts : List Cut
  refills : List Refill
  persist : List PersistEnt
  dir : List ScaleDir
  det : FormeDetail
deriving DecidableEq, Repr

/-- What the loader writes to the fabric for one impression. -/
structure Pipe where
  routes : List Route
  ctl : List CtlRoute
  steers : List Steerer
  words : Table Word
deriving DecidableEq, Repr

/-- Everything that the checks settle before commit. -/
structure LoadPlan where
  f : Forme
  slot : Nat
  addr : Nat
  counts : List (List (Stage × Nat))
  held : List Nat
  placed : List Placed
  pipes : List Pipe
  streams : List CutStream
  weightEng : List (Nat × Nat)
  engines : List Nat
  granule : Nat
  pages : List Nat
  region : Nat
  quoin : Nat
  storePages : List Nat
  power : Nat
  acc : List (Nat × AccEnt)
  auto : Bool
  override : Bool
deriving DecidableEq, Repr

/-- A load in progress (R34): its plan, and how many of the four writes of R30 have been made. -/
structure LoadJob where
  plan : LoadPlan
  done : Nat := 0
deriving DecidableEq, Repr

end Sys2Proof.Machine
end

