-- ==== Sys2Proof/Machine/RegMap.lean ====
section
/-! DEFINITION. Every register of the device: address, fields with access code, reset value, reset kind and documented
range, and the copy of it a master reaches (00_scope.md R4, R5, R8, R9, R11; the register tables of every chapter). The
addresses follow Tables 0-2 and 0-3; a tile register's address is that of tile 0. -/
namespace Sys2Proof.Machine

/-- Access codes (Table 0-5). -/
inductive RAcc where
  | rw | ro | wo | w1c | w1s | rc
deriving DecidableEq, Repr

/-- The reset kind that restores a field (R11). -/
inductive RKind where
  | fixed | por | cold | warm | block | mcr
deriving DecidableEq, Repr

/-- Which copy of a register an access reaches: the one copy, one per master, or the one that a select register names. -/
inductive RBank where
  | none | master | ctx | ictx | galley | netRes | link | queue | spRes | ctxRes
deriving DecidableEq, Repr

/-- One field of a register. -/
structure FieldD where
  hi : Nat
  lo : Nat
  acc : RAcc
  reset : Nat
  kind : RKind
  least : Nat
  most : Nat
deriving DecidableEq, Repr

/-- One register or register array. -/
structure RegD where
  name : String
  addr : Nat
  count : Nat
  stride : Nat
  bank : RBank
  fields : List FieldD
deriving DecidableEq, Repr

/-- A field by address and place, for meanings that name it; `stride` steps through an array. -/
structure Fld where
  addr : Nat
  lo : Nat
  len : Nat
  stride : Nat := 4
deriving DecidableEq, Repr

/-- Element `i` of a field of a register array. -/
def Fld.idx (f : Fld) (i : Nat) : Fld := ⟨f.addr + f.stride * i, f.lo, f.len, f.stride⟩

/-- The field in the window of tile `t`. -/
def Fld.tile (f : Fld) (t : Nat) : Fld := ⟨f.addr + 0x200000 * t, f.lo, f.len, f.stride⟩

/-- The field of network port `p`. -/
def Fld.net (f : Fld) (p : Nat) : Fld := ⟨f.addr + 0x10000 * p, f.lo, f.len, f.stride⟩

/-- SYS_ID.FAMILY (00/R7). -/
def SYS_ID_FAMILY : Fld := ⟨0xa00000000, 16, 16, 4⟩
/-- SYS_ID.PART (00/R7). -/
def SYS_ID_PART : Fld := ⟨0xa00000000, 8, 8, 4⟩
/-- SYS_ID.STEPPING (00/R7). -/
def SYS_ID_STEPPING : Fld := ⟨0xa00000000, 0, 8, 4⟩
/-- SYS_FUNC_READY.TILES (15/R357). -/
def SYS_FUNC_READY_TILES : Fld := ⟨0xa00000010, 16, 7, 4⟩
/-- SYS_FUNC_READY.DATA_PLANE (15/R357). -/
def SYS_FUNC_READY_DATA_PLANE : Fld := ⟨0xa00000010, 15, 1, 4⟩
/-- SYS_FUNC_READY.TIME (15/R357). -/
def SYS_FUNC_READY_TIME : Fld := ⟨0xa00000010, 14, 1, 4⟩
/-- SYS_FUNC_READY.BURL (15/R357). -/
def SYS_FUNC_READY_BURL : Fld := ⟨0xa00000010, 13, 1, 4⟩
/-- SYS_FUNC_READY.SPORT (15/R357). -/
def SYS_FUNC_READY_SPORT : Fld := ⟨0xa00000010, 12, 1, 4⟩
/-- SYS_FUNC_READY.RESIZE (15/R357). -/
def SYS_FUNC_READY_RESIZE : Fld := ⟨0xa00000010, 11, 1, 4⟩
/-- SYS_FUNC_READY.VDEC (15/R357). -/
def SYS_FUNC_READY_VDEC : Fld := ⟨0xa00000010, 10, 1, 4⟩
/-- SYS_FUNC_READY.NET1 (15/R357). -/
def SYS_FUNC_READY_NET1 : Fld := ⟨0xa00000010, 9, 1, 4⟩
/-- SYS_FUNC_READY.NET0 (15/R357). -/
def SYS_FUNC_READY_NET0 : Fld := ⟨0xa00000010, 8, 1, 4⟩
/-- SYS_FUNC_READY.FACING (15/R357). -/
def SYS_FUNC_READY_FACING : Fld := ⟨0xa00000010, 7, 1, 4⟩
/-- SYS_FUNC_READY.LOADER (15/R357). -/
def SYS_FUNC_READY_LOADER : Fld := ⟨0xa00000010, 6, 1, 4⟩
/-- SYS_FUNC_READY.COMMONS (15/R357). -/
def SYS_FUNC_READY_COMMONS : Fld := ⟨0xa00000010, 5, 1, 4⟩
/-- SYS_FUNC_READY.HBM_ALL (15/R357). -/
def SYS_FUNC_READY_HBM_ALL : Fld := ⟨0xa00000010, 4, 1, 4⟩
/-- SYS_FUNC_READY.HBM_ANY (15/R357). -/
def SYS_FUNC_READY_HBM_ANY : Fld := ⟨0xa00000010, 3, 1, 4⟩
/-- SYS_FUNC_READY.MGMT (15/R357). -/
def SYS_FUNC_READY_MGMT : Fld := ⟨0xa00000010, 2, 1, 4⟩
/-- SYS_FUNC_READY.USB (15/R357). -/
def SYS_FUNC_READY_USB : Fld := ⟨0xa00000010, 1, 1, 4⟩
/-- SYS_FUNC_READY.REGS (15/R357). -/
def SYS_FUNC_READY_REGS : Fld := ⟨0xa00000010, 0, 1, 4⟩
/-- SYS_RESET.KEY (17/R390). -/
def SYS_RESET_KEY : Fld := ⟨0xa00000020, 16, 16, 4⟩
/-- SYS_RESET.GO (17/R390). -/
def SYS_RESET_GO : Fld := ⟨0xa00000020, 0, 1, 4⟩
/-- SYS_RESET_CAUSE.MASTER (17/R389). -/
def SYS_RESET_CAUSE_MASTER : Fld := ⟨0xa00000024, 8, 8, 4⟩
/-- SYS_RESET_CAUSE.REFCLK_LOSS (17/R389). -/
def SYS_RESET_CAUSE_REFCLK_LOSS : Fld := ⟨0xa00000024, 2, 1, 4⟩
/-- SYS_RESET_CAUSE.KIND (17/R389). -/
def SYS_RESET_CAUSE_KIND : Fld := ⟨0xa00000024, 0, 2, 4⟩
/-- GOV_PACE_FLOOR.GUARD (10/R221). -/
def GOV_PACE_FLOOR_GUARD : Fld := ⟨0xa00010000, 16, 8, 4⟩
/-- GOV_PACE_FLOOR.FLOOR (10/R221). -/
def GOV_PACE_FLOOR_FLOOR : Fld := ⟨0xa00010000, 0, 10, 4⟩
/-- GOV_PACE_STATUS.VOUT_MV (10/R220). -/
def GOV_PACE_STATUS_VOUT_MV : Fld := ⟨0xa00010004, 18, 10, 4⟩
/-- GOV_PACE_STATUS.PMBUS_FAULT (10/R220). -/
def GOV_PACE_STATUS_PMBUS_FAULT : Fld := ⟨0xa00010004, 17, 1, 4⟩
/-- GOV_PACE_STATUS.BELOW (10/R220). -/
def GOV_PACE_STATUS_BELOW : Fld := ⟨0xa00010004, 16, 1, 4⟩
/-- GOV_PACE_STATUS.MEAS (10/R220). -/
def GOV_PACE_STATUS_MEAS : Fld := ⟨0xa00010004, 0, 10, 4⟩
/-- GOV_THERM.LEVEL (10/R237). -/
def GOV_THERM_LEVEL : Fld := ⟨0xa00010008, 24, 4, 4⟩
/-- GOV_THERM.STEP_MS (10/R237). -/
def GOV_THERM_STEP_MS : Fld := ⟨0xa00010008, 16, 8, 4⟩
/-- GOV_THERM.SHED_C (10/R237). -/
def GOV_THERM_SHED_C : Fld := ⟨0xa00010008, 8, 8, 4⟩
/-- GOV_THERM.TJ (10/R237). -/
def GOV_THERM_TJ : Fld := ⟨0xa00010008, 0, 8, 4⟩
/-- GOV_ADMIT_WAIT.WAIT_US (10/R230). -/
def GOV_ADMIT_WAIT_WAIT_US : Fld := ⟨0xa0001000c, 0, 16, 4⟩
/-- GOV_CTX_SEL.CTX (10/R227). -/
def GOV_CTX_SEL_CTX : Fld := ⟨0xa00010010, 0, 12, 4⟩
/-- GOV_CTX_LMIN.NS (10/R227). -/
def GOV_CTX_LMIN_NS : Fld := ⟨0xa00010014, 0, 32, 4⟩
/-- GOV_ADMIT_REFUSED.COUNT (10/R232). -/
def GOV_ADMIT_REFUSED_COUNT : Fld := ⟨0xa00010018, 0, 32, 4⟩
/-- GOV_DEADLINE_EXPIRED.COUNT (10/R236). -/
def GOV_DEADLINE_EXPIRED_COUNT : Fld := ⟨0xa0001001c, 0, 32, 4⟩
/-- GOV_CONTRACT_BROKEN.COUNT (10/R222). -/
def GOV_CONTRACT_BROKEN_COUNT : Fld := ⟨0xa00010020, 0, 32, 4⟩
/-- GOV_SCALE_SAT_LIMIT.LIMIT (07/R172). -/
def GOV_SCALE_SAT_LIMIT_LIMIT : Fld := ⟨0xa00010040, 0, 16, 4⟩
/-- GOV_SCALE_COLLAPSE_LIMIT.LIMIT (07/R172). -/
def GOV_SCALE_COLLAPSE_LIMIT_LIMIT : Fld := ⟨0xa00010044, 0, 16, 4⟩
/-- GOV_SCALE_MIN_LANES.LANES (07/R172). -/
def GOV_SCALE_MIN_LANES_LANES : Fld := ⟨0xa00010048, 0, 20, 4⟩
/-- GOV_SCALE_ALERTS.COUNT (07/R172). -/
def GOV_SCALE_ALERTS_COUNT : Fld := ⟨0xa0001004c, 0, 32, 4⟩
/-- GOV_SCALE_REPORT_DROP.COUNT (07/R172). -/
def GOV_SCALE_REPORT_DROP_COUNT : Fld := ⟨0xa00010050, 0, 32, 4⟩
/-- GOV_STEP.STEPS (10/R223). -/
def GOV_STEP_STEPS : Fld := ⟨0xa00010100, 0, 8, 4⟩
/-- TIME_NOW_LO.NS_LO (10/R239). -/
def TIME_NOW_LO_NS_LO : Fld := ⟨0xa00020000, 0, 32, 4⟩
/-- TIME_NOW_HI.NS_HI (10/R239). -/
def TIME_NOW_HI_NS_HI : Fld := ⟨0xa00020004, 0, 32, 4⟩
/-- TIME_RATE.PPB (10/R239). -/
def TIME_RATE_PPB : Fld := ⟨0xa00020008, 0, 32, 4⟩
/-- TIME_STEP.NS (10/R239). -/
def TIME_STEP_NS : Fld := ⟨0xa0002000c, 0, 32, 4⟩
/-- TIME_PPS_LO.NS (13/R312). -/
def TIME_PPS_LO_NS : Fld := ⟨0xa00020010, 0, 32, 4⟩
/-- TIME_PPS_HI.NS (13/R312). -/
def TIME_PPS_HI_NS : Fld := ⟨0xa00020014, 0, 32, 4⟩
/-- TIME_PPS_STATUS.OVERRUN (13/R312). -/
def TIME_PPS_STATUS_OVERRUN : Fld := ⟨0xa00020018, 1, 1, 4⟩
/-- TIME_PPS_STATUS.VALID (13/R312). -/
def TIME_PPS_STATUS_VALID : Fld := ⟨0xa00020018, 0, 1, 4⟩
/-- QUOIN_WAITERS.SLOTS (15/R347). -/
def QUOIN_WAITERS_SLOTS : Fld := ⟨0xa00030000, 0, 10, 4⟩
/-- QUOIN_OVERFLOWS.COUNT (15/R346). -/
def QUOIN_OVERFLOWS_COUNT : Fld := ⟨0xa00030004, 0, 32, 4⟩
/-- QUOIN_LAST_OVF.VALID (15/R346). -/
def QUOIN_LAST_OVF_VALID : Fld := ⟨0xa00030008, 31, 1, 4⟩
/-- QUOIN_LAST_OVF.INDEX (15/R346). -/
def QUOIN_LAST_OVF_INDEX : Fld := ⟨0xa00030008, 0, 17, 4⟩
/-- HBMC_CH_READY.READY (11/R249). -/
def HBMC_CH_READY_READY : Fld := ⟨0xa00040000, 0, 32, 4⟩
/-- HBMC_STACK_ECC.COUNT (11/R249). -/
def HBMC_STACK_ECC_COUNT : Fld := ⟨0xa00040004, 0, 32, 4⟩
/-- ECC_FLIP_CTRL.ARMED (11/R263). -/
def ECC_FLIP_CTRL_ARMED : Fld := ⟨0xa00050000, 31, 1, 4⟩
/-- ECC_FLIP_CTRL.DISARM (11/R263). -/
def ECC_FLIP_CTRL_DISARM : Fld := ⟨0xa00050000, 1, 1, 4⟩
/-- ECC_FLIP_CTRL.ARM (11/R263). -/
def ECC_FLIP_CTRL_ARM : Fld := ⟨0xa00050000, 0, 1, 4⟩
/-- ECC_FLIP_ADDR_LO.ADDR (11/R263). -/
def ECC_FLIP_ADDR_LO_ADDR : Fld := ⟨0xa00050004, 2, 30, 4⟩
/-- ECC_FLIP_ADDR_HI.ADDR (11/R263). -/
def ECC_FLIP_ADDR_HI_ADDR : Fld := ⟨0xa00050008, 0, 8, 4⟩
/-- ECC_FLIP_MASK0.BITS (11/R263). -/
def ECC_FLIP_MASK0_BITS : Fld := ⟨0xa0005000c, 0, 32, 4⟩
/-- ECC_FLIP_MASK1.BITS (11/R263). -/
def ECC_FLIP_MASK1_BITS : Fld := ⟨0xa00050010, 0, 32, 4⟩
/-- ECC_FLIP_MASK2.BITS (11/R263). -/
def ECC_FLIP_MASK2_BITS : Fld := ⟨0xa00050014, 0, 8, 4⟩
/-- ECC_SCRUB_BASE_LO.ADDR (11/R264). -/
def ECC_SCRUB_BASE_LO_ADDR : Fld := ⟨0xa00050020, 6, 26, 4⟩
/-- ECC_SCRUB_BASE_HI.ADDR (11/R264). -/
def ECC_SCRUB_BASE_HI_ADDR : Fld := ⟨0xa00050024, 0, 8, 4⟩
/-- ECC_SCRUB_LEN.UNITS (11/R264). -/
def ECC_SCRUB_LEN_UNITS : Fld := ⟨0xa00050028, 0, 32, 4⟩
/-- ECC_SCRUB_CTRL.ABORT (11/R264). -/
def ECC_SCRUB_CTRL_ABORT : Fld := ⟨0xa0005002c, 1, 1, 4⟩
/-- ECC_SCRUB_CTRL.START (11/R264). -/
def ECC_SCRUB_CTRL_START : Fld := ⟨0xa0005002c, 0, 1, 4⟩
/-- ECC_SCRUB_STATUS.ABORTED (11/R265). -/
def ECC_SCRUB_STATUS_ABORTED : Fld := ⟨0xa00050030, 2, 1, 4⟩
/-- ECC_SCRUB_STATUS.DONE (11/R265). -/
def ECC_SCRUB_STATUS_DONE : Fld := ⟨0xa00050030, 1, 1, 4⟩
/-- ECC_SCRUB_STATUS.BUSY (11/R265). -/
def ECC_SCRUB_STATUS_BUSY : Fld := ⟨0xa00050030, 0, 1, 4⟩
/-- ECC_SCRUB_CORR.COUNT (11/R266). -/
def ECC_SCRUB_CORR_COUNT : Fld := ⟨0xa00050034, 0, 32, 4⟩
/-- ECC_SCRUB_UNCORR.COUNT (11/R266). -/
def ECC_SCRUB_UNCORR_COUNT : Fld := ⟨0xa00050038, 0, 32, 4⟩
/-- ECC_SCRUB_FIRST_LO.ADDR (11/R266). -/
def ECC_SCRUB_FIRST_LO_ADDR : Fld := ⟨0xa00050040, 0, 32, 4⟩
/-- ECC_SCRUB_FIRST_HI.VALID (11/R266). -/
def ECC_SCRUB_FIRST_HI_VALID : Fld := ⟨0xa00050044, 31, 1, 4⟩
/-- ECC_SCRUB_FIRST_HI.UNCORR (11/R266). -/
def ECC_SCRUB_FIRST_HI_UNCORR : Fld := ⟨0xa00050044, 30, 1, 4⟩
/-- ECC_SCRUB_FIRST_HI.ADDR (11/R266). -/
def ECC_SCRUB_FIRST_HI_ADDR : Fld := ⟨0xa00050044, 0, 8, 4⟩
/-- ECC_SCRUB_LAST_LO.ADDR (11/R266). -/
def ECC_SCRUB_LAST_LO_ADDR : Fld := ⟨0xa00050048, 0, 32, 4⟩
/-- ECC_SCRUB_LAST_HI.VALID (11/R266). -/
def ECC_SCRUB_LAST_HI_VALID : Fld := ⟨0xa0005004c, 31, 1, 4⟩
/-- ECC_SCRUB_LAST_HI.UNCORR (11/R266). -/
def ECC_SCRUB_LAST_HI_UNCORR : Fld := ⟨0xa0005004c, 30, 1, 4⟩
/-- ECC_SCRUB_LAST_HI.ADDR (11/R266). -/
def ECC_SCRUB_LAST_HI_ADDR : Fld := ⟨0xa0005004c, 0, 8, 4⟩
/-- ECC_ERR_CORR.COUNT (11/R261). -/
def ECC_ERR_CORR_COUNT : Fld := ⟨0xa00050050, 0, 32, 4⟩
/-- ECC_ERR_UNCORR.COUNT (11/R262). -/
def ECC_ERR_UNCORR_COUNT : Fld := ⟨0xa00050054, 0, 32, 4⟩
/-- REGION_SEL.INDEX (11/R252). -/
def REGION_SEL_INDEX : Fld := ⟨0xa00060000, 16, 13, 4⟩
/-- REGION_ENTRY.P (11/R252). -/
def REGION_ENTRY_P : Fld := ⟨0xa00060004, 31, 1, 4⟩
/-- REGION_ENTRY.PIN (11/R252). -/
def REGION_ENTRY_PIN : Fld := ⟨0xa00060004, 30, 1, 4⟩
/-- REGION_ENTRY.SPLIT (11/R252). -/
def REGION_ENTRY_SPLIT : Fld := ⟨0xa00060004, 29, 1, 4⟩
/-- REGION_ENTRY.TARGET (11/R252). -/
def REGION_ENTRY_TARGET : Fld := ⟨0xa00060004, 0, 13, 4⟩
/-- REGION_SUB.P (11/R252). -/
def REGION_SUB_P : Fld := ⟨0xa00060008, 31, 1, 4⟩
/-- REGION_SUB.PIN (11/R252). -/
def REGION_SUB_PIN : Fld := ⟨0xa00060008, 30, 1, 4⟩
/-- REGION_SUB.FRAME64 (11/R252). -/
def REGION_SUB_FRAME64 : Fld := ⟨0xa00060008, 0, 18, 4⟩
/-- REGION_SUBSEL.TABLE (11/R252). -/
def REGION_SUBSEL_TABLE : Fld := ⟨0xa0006000c, 16, 10, 4⟩
/-- REGION_SUBSEL.SUB (11/R252). -/
def REGION_SUBSEL_SUB : Fld := ⟨0xa0006000c, 0, 5, 4⟩
/-- REGION_FAULT_LO.ADDR (11/R251). -/
def REGION_FAULT_LO_ADDR : Fld := ⟨0xa00060010, 0, 32, 4⟩
/-- REGION_FAULT_HI.ADDR (11/R251). -/
def REGION_FAULT_HI_ADDR : Fld := ⟨0xa00060014, 0, 8, 4⟩
/-- REGION_FAULT_INFO.OVERFLOW (11/R251). -/
def REGION_FAULT_INFO_OVERFLOW : Fld := ⟨0xa00060018, 31, 1, 4⟩
/-- REGION_FAULT_INFO.VALID (11/R251). -/
def REGION_FAULT_INFO_VALID : Fld := ⟨0xa00060018, 8, 1, 4⟩
/-- REGION_FAULT_INFO.MASTER (11/R251). -/
def REGION_FAULT_INFO_MASTER : Fld := ⟨0xa00060018, 0, 8, 4⟩
/-- ACCESS_SEL.TARGET (11/R256). -/
def ACCESS_SEL_TARGET : Fld := ⟨0xa00070000, 16, 8, 4⟩
/-- ACCESS_SEL.ENTRY (11/R256). -/
def ACCESS_SEL_ENTRY : Fld := ⟨0xa00070000, 0, 6, 4⟩
/-- ACCESS_E0.EN (11/R256). -/
def ACCESS_E0_EN : Fld := ⟨0xa00070004, 31, 1, 4⟩
/-- ACCESS_E0.RWX (11/R256). -/
def ACCESS_E0_RWX : Fld := ⟨0xa00070004, 28, 3, 4⟩
/-- ACCESS_E0.OWNED (11/R256). -/
def ACCESS_E0_OWNED : Fld := ⟨0xa00070004, 19, 1, 4⟩
/-- ACCESS_E0.SLOT (11/R256). -/
def ACCESS_E0_SLOT : Fld := ⟨0xa00070004, 16, 3, 4⟩
/-- ACCESS_E0.MASTER_HI (11/R256). -/
def ACCESS_E0_MASTER_HI : Fld := ⟨0xa00070004, 8, 8, 4⟩
/-- ACCESS_E0.MASTER_LO (11/R256). -/
def ACCESS_E0_MASTER_LO : Fld := ⟨0xa00070004, 0, 8, 4⟩
/-- ACCESS_E1.BASE (11/R256). -/
def ACCESS_E1_BASE : Fld := ⟨0xa00070008, 0, 28, 4⟩
/-- ACCESS_E2.LIMIT (11/R256). -/
def ACCESS_E2_LIMIT : Fld := ⟨0xa0007000c, 0, 28, 4⟩
/-- ACCESS_CMD.BUSY (11/R256). -/
def ACCESS_CMD_BUSY : Fld := ⟨0xa00070010, 2, 1, 4⟩
/-- ACCESS_CMD.READ (11/R256). -/
def ACCESS_CMD_READ : Fld := ⟨0xa00070010, 1, 1, 4⟩
/-- ACCESS_CMD.WRITE (11/R256). -/
def ACCESS_CMD_WRITE : Fld := ⟨0xa00070010, 0, 1, 4⟩
/-- ACCESS_DENY_INFO.OVERFLOW (11/R257). -/
def ACCESS_DENY_INFO_OVERFLOW : Fld := ⟨0xa00070020, 31, 1, 4⟩
/-- ACCESS_DENY_INFO.VALID (11/R257). -/
def ACCESS_DENY_INFO_VALID : Fld := ⟨0xa00070020, 24, 1, 4⟩
/-- ACCESS_DENY_INFO.TARGET (11/R257). -/
def ACCESS_DENY_INFO_TARGET : Fld := ⟨0xa00070020, 16, 8, 4⟩
/-- ACCESS_DENY_INFO.MASTER (11/R257). -/
def ACCESS_DENY_INFO_MASTER : Fld := ⟨0xa00070020, 8, 8, 4⟩
/-- ACCESS_DENY_INFO.KIND (11/R257). -/
def ACCESS_DENY_INFO_KIND : Fld := ⟨0xa00070020, 0, 2, 4⟩
/-- ACCESS_DENY_ADDR_LO.ADDR (11/R257). -/
def ACCESS_DENY_ADDR_LO_ADDR : Fld := ⟨0xa00070024, 0, 32, 4⟩
/-- ACCESS_DENY_ADDR_HI.ADDR (11/R257). -/
def ACCESS_DENY_ADDR_HI_ADDR : Fld := ⟨0xa00070028, 0, 8, 4⟩
/-- ACCESS_DENY_COUNT.COUNT (11/R257). -/
def ACCESS_DENY_COUNT_COUNT : Fld := ⟨0xa0007002c, 0, 32, 4⟩
/-- STREAM_ENG_CTRL.SKIP (12/R280). -/
def STREAM_ENG_CTRL_SKIP : Fld := ⟨0xa00080000, 4, 1, 0x40⟩
/-- STREAM_ENG_CTRL.STOP (12/R280). -/
def STREAM_ENG_CTRL_STOP : Fld := ⟨0xa00080000, 3, 1, 0x40⟩
/-- STREAM_ENG_CTRL.RESUME (12/R280). -/
def STREAM_ENG_CTRL_RESUME : Fld := ⟨0xa00080000, 2, 1, 0x40⟩
/-- STREAM_ENG_CTRL.KICK (12/R280). -/
def STREAM_ENG_CTRL_KICK : Fld := ⟨0xa00080000, 1, 1, 0x40⟩
/-- STREAM_ENG_CTRL.START (12/R280). -/
def STREAM_ENG_CTRL_START : Fld := ⟨0xa00080000, 0, 1, 0x40⟩
/-- STREAM_ENG_STATUS.HELD (12/R279). -/
def STREAM_ENG_STATUS_HELD : Fld := ⟨0xa00080004, 31, 1, 0x40⟩
/-- STREAM_ENG_STATUS.SLOT (12/R279). -/
def STREAM_ENG_STATUS_SLOT : Fld := ⟨0xa00080004, 28, 3, 0x40⟩
/-- STREAM_ENG_STATUS.DONE (12/R279). -/
def STREAM_ENG_STATUS_DONE : Fld := ⟨0xa00080004, 16, 1, 0x40⟩
/-- STREAM_ENG_STATUS.ERR (12/R279). -/
def STREAM_ENG_STATUS_ERR : Fld := ⟨0xa00080004, 8, 4, 0x40⟩
/-- STREAM_ENG_STATUS.STATE (12/R279). -/
def STREAM_ENG_STATUS_STATE : Fld := ⟨0xa00080004, 0, 4, 0x40⟩
/-- STREAM_ENG_LIST_LO.ADDR (12/R272). -/
def STREAM_ENG_LIST_LO_ADDR : Fld := ⟨0xa00080008, 8, 24, 0x40⟩
/-- STREAM_ENG_LIST_HI.ADDR (12/R272). -/
def STREAM_ENG_LIST_HI_ADDR : Fld := ⟨0xa0008000c, 0, 8, 0x40⟩
/-- STREAM_ENG_EP.KIND (12/R274). -/
def STREAM_ENG_EP_KIND : Fld := ⟨0xa00080010, 30, 2, 0x40⟩
/-- STREAM_ENG_EP.GKIND (12/R274). -/
def STREAM_ENG_EP_GKIND : Fld := ⟨0xa00080010, 29, 1, 0x40⟩
/-- STREAM_ENG_EP.GALLEY (12/R274). -/
def STREAM_ENG_EP_GALLEY : Fld := ⟨0xa00080010, 0, 8, 0x40⟩
/-- STREAM_ENG_EP_LO.ADDR (12/R274). -/
def STREAM_ENG_EP_LO_ADDR : Fld := ⟨0xa00080014, 0, 32, 0x40⟩
/-- STREAM_ENG_EP_HI.ADDR (12/R274). -/
def STREAM_ENG_EP_HI_ADDR : Fld := ⟨0xa00080018, 0, 8, 0x40⟩
/-- STREAM_ENG_DESC_LO.ADDR (12/R278). -/
def STREAM_ENG_DESC_LO_ADDR : Fld := ⟨0xa0008001c, 5, 27, 0x40⟩
/-- STREAM_ENG_DESC_HI.ADDR (12/R278). -/
def STREAM_ENG_DESC_HI_ADDR : Fld := ⟨0xa00080020, 0, 8, 0x40⟩
/-- STREAM_ENG_POS0.I0 (12/R278). -/
def STREAM_ENG_POS0_I0 : Fld := ⟨0xa00080024, 0, 24, 0x40⟩
/-- STREAM_ENG_POS12.I2 (12/R278). -/
def STREAM_ENG_POS12_I2 : Fld := ⟨0xa00080028, 16, 16, 0x40⟩
/-- STREAM_ENG_POS12.I1 (12/R278). -/
def STREAM_ENG_POS12_I1 : Fld := ⟨0xa00080028, 0, 16, 0x40⟩
/-- STREAM_ENG_POS34.I4 (12/R278). -/
def STREAM_ENG_POS34_I4 : Fld := ⟨0xa0008002c, 16, 16, 0x40⟩
/-- STREAM_ENG_POS34.I3 (12/R278). -/
def STREAM_ENG_POS34_I3 : Fld := ⟨0xa0008002c, 0, 16, 0x40⟩
/-- STREAM_ENG_DONE_BYTES.BYTES (12/R278). -/
def STREAM_ENG_DONE_BYTES_BYTES : Fld := ⟨0xa00080030, 0, 25, 0x40⟩
/-- STREAM_MRG_CTRL.SKIP (12/R281). -/
def STREAM_MRG_CTRL_SKIP : Fld := ⟨0xa00080800, 4, 1, 0x40⟩
/-- STREAM_MRG_CTRL.STOP (12/R281). -/
def STREAM_MRG_CTRL_STOP : Fld := ⟨0xa00080800, 3, 1, 0x40⟩
/-- STREAM_MRG_CTRL.RESUME (12/R281). -/
def STREAM_MRG_CTRL_RESUME : Fld := ⟨0xa00080800, 2, 1, 0x40⟩
/-- STREAM_MRG_CTRL.KICK (12/R281). -/
def STREAM_MRG_CTRL_KICK : Fld := ⟨0xa00080800, 1, 1, 0x40⟩
/-- STREAM_MRG_CTRL.START (12/R281). -/
def STREAM_MRG_CTRL_START : Fld := ⟨0xa00080800, 0, 1, 0x40⟩
/-- STREAM_MRG_STATUS.HELD (12/R281). -/
def STREAM_MRG_STATUS_HELD : Fld := ⟨0xa00080804, 31, 1, 0x40⟩
/-- STREAM_MRG_STATUS.SLOT (12/R281). -/
def STREAM_MRG_STATUS_SLOT : Fld := ⟨0xa00080804, 28, 3, 0x40⟩
/-- STREAM_MRG_STATUS.DONE (12/R281). -/
def STREAM_MRG_STATUS_DONE : Fld := ⟨0xa00080804, 16, 1, 0x40⟩
/-- STREAM_MRG_STATUS.ERR (12/R281). -/
def STREAM_MRG_STATUS_ERR : Fld := ⟨0xa00080804, 8, 4, 0x40⟩
/-- STREAM_MRG_STATUS.STATE (12/R281). -/
def STREAM_MRG_STATUS_STATE : Fld := ⟨0xa00080804, 0, 4, 0x40⟩
/-- STREAM_MRG_LIST_LO.ADDR (12/R281). -/
def STREAM_MRG_LIST_LO_ADDR : Fld := ⟨0xa00080808, 8, 24, 0x40⟩
/-- STREAM_MRG_LIST_HI.ADDR (12/R281). -/
def STREAM_MRG_LIST_HI_ADDR : Fld := ⟨0xa0008080c, 0, 8, 0x40⟩
/-- STREAM_MRG_CFG.USER (12/R281). -/
def STREAM_MRG_CFG_USER : Fld := ⟨0xa00080810, 0, 1, 0x40⟩
/-- STREAM_MRG_DESC_LO.ADDR (12/R281). -/
def STREAM_MRG_DESC_LO_ADDR : Fld := ⟨0xa0008081c, 5, 27, 0x40⟩
/-- STREAM_MRG_DESC_HI.ADDR (12/R281). -/
def STREAM_MRG_DESC_HI_ADDR : Fld := ⟨0xa00080820, 0, 8, 0x40⟩
/-- STREAM_MRG_POS0.I0 (12/R281). -/
def STREAM_MRG_POS0_I0 : Fld := ⟨0xa00080824, 0, 24, 0x40⟩
/-- STREAM_MRG_POS12.I2 (12/R281). -/
def STREAM_MRG_POS12_I2 : Fld := ⟨0xa00080828, 16, 16, 0x40⟩
/-- STREAM_MRG_POS12.I1 (12/R281). -/
def STREAM_MRG_POS12_I1 : Fld := ⟨0xa00080828, 0, 16, 0x40⟩
/-- STREAM_MRG_POS34.I4 (12/R281). -/
def STREAM_MRG_POS34_I4 : Fld := ⟨0xa0008082c, 16, 16, 0x40⟩
/-- STREAM_MRG_POS34.I3 (12/R281). -/
def STREAM_MRG_POS34_I3 : Fld := ⟨0xa0008082c, 0, 16, 0x40⟩
/-- STREAM_MRG_DONE_BYTES.BYTES (12/R281). -/
def STREAM_MRG_DONE_BYTES_BYTES : Fld := ⟨0xa00080830, 0, 25, 0x40⟩
/-- STREAM_GSEL.KIND (12/R287). -/
def STREAM_GSEL_KIND : Fld := ⟨0xa00081000, 30, 2, 4⟩
/-- STREAM_GSEL.TILE (12/R287). -/
def STREAM_GSEL_TILE : Fld := ⟨0xa00081000, 16, 7, 4⟩
/-- STREAM_GSEL.NUM (12/R287). -/
def STREAM_GSEL_NUM : Fld := ⟨0xa00081000, 0, 8, 4⟩
/-- STREAM_GCFG.PKT (12/R284). -/
def STREAM_GCFG_PKT : Fld := ⟨0xa00081004, 31, 1, 4⟩
/-- STREAM_GCFG.EN (12/R284). -/
def STREAM_GCFG_EN : Fld := ⟨0xa00081004, 30, 1, 4⟩
/-- STREAM_GCFG.TYPE (12/R284). -/
def STREAM_GCFG_TYPE : Fld := ⟨0xa00081004, 24, 6, 4⟩
/-- STREAM_GCFG.PAD_M1 (12/R284). -/
def STREAM_GCFG_PAD_M1 : Fld := ⟨0xa00081004, 16, 7, 4⟩
/-- STREAM_GCFG.PKT_TOKENS (12/R284). -/
def STREAM_GCFG_PKT_TOKENS : Fld := ⟨0xa00081004, 0, 14, 4⟩
/-- STREAM_GSIZE.CAP_KIB (12/R282). -/
def STREAM_GSIZE_CAP_KIB : Fld := ⟨0xa00081008, 16, 6, 4⟩
/-- STREAM_GSIZE.BASE_KIB (12/R282). -/
def STREAM_GSIZE_BASE_KIB : Fld := ⟨0xa00081008, 0, 15, 4⟩
/-- STREAM_GLIMIT.MAX_BYTES (12/R284). -/
def STREAM_GLIMIT_MAX_BYTES : Fld := ⟨0xa0008100c, 0, 16, 4⟩
/-- STREAM_GWM.HI (12/R288). -/
def STREAM_GWM_HI : Fld := ⟨0xa00081010, 16, 10, 4⟩
/-- STREAM_GWM.LO (12/R288). -/
def STREAM_GWM_LO : Fld := ⟨0xa00081010, 0, 10, 4⟩
/-- STREAM_GSTAT.MISMATCH (12/R288). -/
def STREAM_GSTAT_MISMATCH : Fld := ⟨0xa00081014, 31, 1, 4⟩
/-- STREAM_GSTAT.XOFF (12/R288). -/
def STREAM_GSTAT_XOFF : Fld := ⟨0xa00081014, 17, 1, 4⟩
/-- STREAM_GSTAT.ASSEMBLING (12/R288). -/
def STREAM_GSTAT_ASSEMBLING : Fld := ⟨0xa00081014, 16, 1, 4⟩
/-- STREAM_GSTAT.LEVEL (12/R288). -/
def STREAM_GSTAT_LEVEL : Fld := ⟨0xa00081014, 0, 16, 4⟩
/-- STREAM_GCMD.RESET (12/R287). -/
def STREAM_GCMD_RESET : Fld := ⟨0xa00081018, 1, 1, 4⟩
/-- STREAM_GCMD.DROP (12/R287). -/
def STREAM_GCMD_DROP : Fld := ⟨0xa00081018, 0, 1, 4⟩
/-- STREAM_GCNT_TRUNC.COUNT (12/R286). -/
def STREAM_GCNT_TRUNC_COUNT : Fld := ⟨0xa0008101c, 0, 32, 4⟩
/-- STREAM_GCNT_DROP.COUNT (12/R286). -/
def STREAM_GCNT_DROP_COUNT : Fld := ⟨0xa00081020, 0, 32, 4⟩
/-- NET_CFG.MAX_FRAME (13/R291). -/
def NET_CFG_MAX_FRAME : Fld := ⟨0xa00090000, 18, 14, 4⟩
/-- NET_CFG.FEC (13/R291). -/
def NET_CFG_FEC : Fld := ⟨0xa00090000, 10, 8, 4⟩
/-- NET_CFG.PTP_EN (13/R291). -/
def NET_CFG_PTP_EN : Fld := ⟨0xa00090000, 5, 1, 4⟩
/-- NET_CFG.AN_EN (13/R291). -/
def NET_CFG_AN_EN : Fld := ⟨0xa00090000, 4, 1, 4⟩
/-- NET_CFG.MODE (13/R291). -/
def NET_CFG_MODE : Fld := ⟨0xa00090000, 0, 3, 4⟩
/-- NET_STATUS.FEC_LOCK (13/R292). -/
def NET_STATUS_FEC_LOCK : Fld := ⟨0xa00090004, 4, 4, 4⟩
/-- NET_STATUS.LINK_UP (13/R292). -/
def NET_STATUS_LINK_UP : Fld := ⟨0xa00090004, 0, 4, 4⟩
/-- NET_ADDR_SEL.LINK (13/R293). -/
def NET_ADDR_SEL_LINK : Fld := ⟨0xa00090010, 0, 2, 4⟩
/-- NET_MAC_LO.MAC (13/R293). -/
def NET_MAC_LO_MAC : Fld := ⟨0xa00090014, 0, 32, 4⟩
/-- NET_MAC_HI.MAC (13/R293). -/
def NET_MAC_HI_MAC : Fld := ⟨0xa00090018, 0, 16, 4⟩
/-- NET_IP4.ADDR (13/R293). -/
def NET_IP4_ADDR : Fld := ⟨0xa0009001c, 0, 32, 4⟩
/-- NET_IP6.ADDR (13/R293). -/
def NET_IP6_ADDR : Fld := ⟨0xa00090020, 0, 32, 4⟩
/-- NET_PTP_RXQ.POP (13/R310). -/
def NET_PTP_RXQ_POP : Fld := ⟨0xa00090040, 31, 1, 4⟩
/-- NET_PTP_RXQ.COUNT (13/R310). -/
def NET_PTP_RXQ_COUNT : Fld := ⟨0xa00090040, 16, 7, 4⟩
/-- NET_PTP_RXQ.HEAD (13/R310). -/
def NET_PTP_RXQ_HEAD : Fld := ⟨0xa00090040, 0, 6, 4⟩
/-- NET_PTP_TX_CTRL.SEND (13/R311). -/
def NET_PTP_TX_CTRL_SEND : Fld := ⟨0xa00090044, 31, 1, 4⟩
/-- NET_PTP_TX_CTRL.BUSY (13/R311). -/
def NET_PTP_TX_CTRL_BUSY : Fld := ⟨0xa00090044, 30, 1, 4⟩
/-- NET_PTP_TX_CTRL.TS_VALID (13/R311). -/
def NET_PTP_TX_CTRL_TS_VALID : Fld := ⟨0xa00090044, 29, 1, 4⟩
/-- NET_PTP_TX_CTRL.LINK (13/R311). -/
def NET_PTP_TX_CTRL_LINK : Fld := ⟨0xa00090044, 16, 2, 4⟩
/-- NET_PTP_TX_CTRL.LEN (13/R311). -/
def NET_PTP_TX_CTRL_LEN : Fld := ⟨0xa00090044, 0, 9, 4⟩
/-- NET_PTP_TX_TS_LO.NS (13/R311). -/
def NET_PTP_TX_TS_LO_NS : Fld := ⟨0xa00090048, 0, 32, 4⟩
/-- NET_PTP_TX_TS_HI.NS (13/R311). -/
def NET_PTP_TX_TS_HI_NS : Fld := ⟨0xa0009004c, 0, 32, 4⟩
/-- NET_RES_SEL.GALLEY (13/R315). -/
def NET_RES_SEL_GALLEY : Fld := ⟨0xa00090060, 0, 8, 4⟩
/-- NET_RES_CFG.EN (13/R315). -/
def NET_RES_CFG_EN : Fld := ⟨0xa00090064, 31, 1, 4⟩
/-- NET_RES_CFG.IPV6 (13/R315). -/
def NET_RES_CFG_IPV6 : Fld := ⟨0xa00090064, 30, 1, 4⟩
/-- NET_RES_CFG.VLAN_EN (13/R315). -/
def NET_RES_CFG_VLAN_EN : Fld := ⟨0xa00090064, 29, 1, 4⟩
/-- NET_RES_CFG.LINK (13/R315). -/
def NET_RES_CFG_LINK : Fld := ⟨0xa00090064, 24, 2, 4⟩
/-- NET_RES_CFG.DSCP (13/R315). -/
def NET_RES_CFG_DSCP : Fld := ⟨0xa00090064, 16, 6, 4⟩
/-- NET_RES_CFG.VID (13/R315). -/
def NET_RES_CFG_VID : Fld := ⟨0xa00090064, 0, 12, 4⟩
/-- NET_RES_DMAC_LO.MAC (13/R315). -/
def NET_RES_DMAC_LO_MAC : Fld := ⟨0xa00090068, 0, 32, 4⟩
/-- NET_RES_DMAC_HI.MAC (13/R315). -/
def NET_RES_DMAC_HI_MAC : Fld := ⟨0xa0009006c, 0, 16, 4⟩
/-- NET_RES_DIP.ADDR (13/R315). -/
def NET_RES_DIP_ADDR : Fld := ⟨0xa00090070, 0, 32, 4⟩
/-- NET_RES_PORTS.SRC (13/R315). -/
def NET_RES_PORTS_SRC : Fld := ⟨0xa00090080, 16, 16, 4⟩
/-- NET_RES_PORTS.DST (13/R315). -/
def NET_RES_PORTS_DST : Fld := ⟨0xa00090080, 0, 16, 4⟩
/-- NET_DROP.COUNT (13/R293). -/
def NET_DROP_COUNT : Fld := ⟨0xa00090100, 0, 32, 4⟩
/-- NET_PTP_RXE.WORD (13/R310). -/
def NET_PTP_RXE_WORD : Fld := ⟨0xa00098000, 0, 32, 4⟩
/-- NET_PTP_TXB.WORD (13/R311). -/
def NET_PTP_TXB_WORD : Fld := ⟨0xa0009c000, 0, 32, 4⟩
/-- NET_CTX_SEL.CTX (13/R295). -/
def NET_CTX_SEL_CTX : Fld := ⟨0xa00091000, 0, 12, 4⟩
/-- NET_CTX_CFG.EN (13/R295). -/
def NET_CTX_CFG_EN : Fld := ⟨0xa00091004, 31, 1, 4⟩
/-- NET_CTX_CFG.IPV6 (13/R295). -/
def NET_CTX_CFG_IPV6 : Fld := ⟨0xa00091004, 30, 1, 4⟩
/-- NET_CTX_CFG.MCAST (13/R295). -/
def NET_CTX_CFG_MCAST : Fld := ⟨0xa00091004, 29, 1, 4⟩
/-- NET_CTX_CFG.SSRC_EN (13/R295). -/
def NET_CTX_CFG_SSRC_EN : Fld := ⟨0xa00091004, 28, 1, 4⟩
/-- NET_CTX_CFG.VLAN_EN (13/R295). -/
def NET_CTX_CFG_VLAN_EN : Fld := ⟨0xa00091004, 27, 1, 4⟩
/-- NET_CTX_CFG.SLICE (13/R295). -/
def NET_CTX_CFG_SLICE : Fld := ⟨0xa00091004, 26, 1, 4⟩
/-- NET_CTX_CFG.PAYLOAD (13/R295). -/
def NET_CTX_CFG_PAYLOAD : Fld := ⟨0xa00091004, 24, 2, 4⟩
/-- NET_CTX_CFG.PORT (13/R295). -/
def NET_CTX_CFG_PORT : Fld := ⟨0xa00091004, 23, 1, 4⟩
/-- NET_CTX_CFG.LINK (13/R295). -/
def NET_CTX_CFG_LINK : Fld := ⟨0xa00091004, 21, 2, 4⟩
/-- NET_CTX_CFG.PT (13/R295). -/
def NET_CTX_CFG_PT : Fld := ⟨0xa00091004, 14, 7, 4⟩
/-- NET_CTX_CFG.VID (13/R295). -/
def NET_CTX_CFG_VID : Fld := ⟨0xa00091004, 0, 12, 4⟩
/-- NET_CTX_UDP.DST_PORT (13/R295). -/
def NET_CTX_UDP_DST_PORT : Fld := ⟨0xa00091008, 0, 16, 4⟩
/-- NET_CTX_SSRC.SSRC (13/R295). -/
def NET_CTX_SSRC_SSRC : Fld := ⟨0xa0009100c, 0, 32, 4⟩
/-- NET_CTX_GROUP.ADDR (13/R295). -/
def NET_CTX_GROUP_ADDR : Fld := ⟨0xa00091010, 0, 32, 4⟩
/-- NET_CTX_JB.JB_TIMEOUT (13/R298). -/
def NET_CTX_JB_JB_TIMEOUT : Fld := ⟨0xa00091020, 16, 12, 4⟩
/-- NET_CTX_JB.JB_SIZE (13/R298). -/
def NET_CTX_JB_JB_SIZE : Fld := ⟨0xa00091020, 0, 16, 4⟩
/-- NET_CTX_DEC.DEC (13/R304). -/
def NET_CTX_DEC_DEC : Fld := ⟨0xa00091024, 28, 4, 4⟩
/-- NET_CTX_DEC.DPB_FRAMES (13/R304). -/
def NET_CTX_DEC_DPB_FRAMES : Fld := ⟨0xa00091024, 23, 5, 4⟩
/-- NET_CTX_DEC.RATE_KPIX (13/R304). -/
def NET_CTX_DEC_RATE_KPIX : Fld := ⟨0xa00091024, 0, 18, 4⟩
/-- NET_CTX_RAW.H (13/R301). -/
def NET_CTX_RAW_H : Fld := ⟨0xa00091028, 16, 16, 4⟩
/-- NET_CTX_RAW.W (13/R301). -/
def NET_CTX_RAW_W : Fld := ⟨0xa00091028, 0, 16, 4⟩
/-- NET_CTX_RAW_FMT.FMT (13/R301). -/
def NET_CTX_RAW_FMT_FMT : Fld := ⟨0xa0009102c, 0, 3, 4⟩
/-- NET_CTX_CROP_XY.Y (13/R307). -/
def NET_CTX_CROP_XY_Y : Fld := ⟨0xa00091030, 16, 16, 4⟩
/-- NET_CTX_CROP_XY.X (13/R307). -/
def NET_CTX_CROP_XY_X : Fld := ⟨0xa00091030, 0, 16, 4⟩
/-- NET_CTX_CROP_WH.H (13/R307). -/
def NET_CTX_CROP_WH_H : Fld := ⟨0xa00091034, 16, 16, 4⟩
/-- NET_CTX_CROP_WH.W (13/R307). -/
def NET_CTX_CROP_WH_W : Fld := ⟨0xa00091034, 0, 16, 4⟩
/-- NET_CTX_OUT.H (13/R307). -/
def NET_CTX_OUT_H : Fld := ⟨0xa00091038, 16, 16, 4⟩
/-- NET_CTX_OUT.W (13/R307). -/
def NET_CTX_OUT_W : Fld := ⟨0xa00091038, 0, 16, 4⟩
/-- NET_CTX_PIC.PLANES_M1 (13/R308). -/
def NET_CTX_PIC_PLANES_M1 : Fld := ⟨0xa0009103c, 16, 3, 4⟩
/-- NET_CTX_PIC.OUT_DIV_M1 (13/R308). -/
def NET_CTX_PIC_OUT_DIV_M1 : Fld := ⟨0xa0009103c, 8, 4, 4⟩
/-- NET_CTX_PIC.PICBUFS_M1 (13/R308). -/
def NET_CTX_PIC_PICBUFS_M1 : Fld := ⟨0xa0009103c, 4, 2, 4⟩
/-- NET_CTX_PIC.PIC_FMT (13/R308). -/
def NET_CTX_PIC_PIC_FMT : Fld := ⟨0xa0009103c, 0, 2, 4⟩
/-- NET_CTX_STATE.STATE (13/R303). -/
def NET_CTX_STATE_STATE : Fld := ⟨0xa00091040, 0, 2, 4⟩
/-- NET_CTX_CNT.COUNT (13/R297). -/
def NET_CTX_CNT_COUNT : Fld := ⟨0xa00091080, 0, 32, 4⟩
/-- VDEC_LOAD.KPIX (13/R304). -/
def VDEC_LOAD_KPIX : Fld := ⟨0xa000b0000, 0, 18, 4⟩
/-- VDEC_BUSY.BUSY (13/R304). -/
def VDEC_BUSY_BUSY : Fld := ⟨0xa000b0040, 0, 16, 4⟩
/-- SPORT_CFG.EN (14/R316). -/
def SPORT_CFG_EN : Fld := ⟨0xa000c0000, 31, 1, 4⟩
/-- SPORT_CFG.REC_TIMEOUT (14/R316). -/
def SPORT_CFG_REC_TIMEOUT : Fld := ⟨0xa000c0000, 8, 16, 4⟩
/-- SPORT_CFG.LANES (14/R316). -/
def SPORT_CFG_LANES : Fld := ⟨0xa000c0000, 0, 2, 4⟩
/-- SPORT_STATUS.STALLED (14/R317). -/
def SPORT_STATUS_STALLED : Fld := ⟨0xa000c0004, 7, 1, 4⟩
/-- SPORT_STATUS.XOFF_IN (14/R317). -/
def SPORT_STATUS_XOFF_IN : Fld := ⟨0xa000c0004, 6, 1, 4⟩
/-- SPORT_STATUS.XOFF_OUT (14/R317). -/
def SPORT_STATUS_XOFF_OUT : Fld := ⟨0xa000c0004, 5, 1, 4⟩
/-- SPORT_STATUS.ALIGNED (14/R317). -/
def SPORT_STATUS_ALIGNED : Fld := ⟨0xa000c0004, 4, 1, 4⟩
/-- SPORT_STATUS.LOCK (14/R317). -/
def SPORT_STATUS_LOCK : Fld := ⟨0xa000c0004, 0, 4, 4⟩
/-- SPORT_CH.EN (14/R319). -/
def SPORT_CH_EN : Fld := ⟨0xa000c0010, 31, 1, 4⟩
/-- SPORT_CH.DEST (14/R319). -/
def SPORT_CH_DEST : Fld := ⟨0xa000c0010, 30, 1, 4⟩
/-- SPORT_CH.QUEUE (14/R319). -/
def SPORT_CH_QUEUE : Fld := ⟨0xa000c0010, 8, 3, 4⟩
/-- SPORT_CH.GALLEY (14/R319). -/
def SPORT_CH_GALLEY : Fld := ⟨0xa000c0010, 0, 4, 4⟩
/-- SPORT_EGR.XOFF_TIMEOUT (14/R324). -/
def SPORT_EGR_XOFF_TIMEOUT : Fld := ⟨0xa000c0050, 0, 16, 4⟩
/-- SPORT_RES_SEL.GALLEY (14/R323). -/
def SPORT_RES_SEL_GALLEY : Fld := ⟨0xa000c0054, 0, 8, 4⟩
/-- SPORT_RES_CFG.EN (14/R323). -/
def SPORT_RES_CFG_EN : Fld := ⟨0xa000c0058, 31, 1, 4⟩
/-- SPORT_RES_CFG.CH (14/R323). -/
def SPORT_RES_CFG_CH : Fld := ⟨0xa000c0058, 0, 4, 4⟩
/-- SPORT_CNT.COUNT (14/R320). -/
def SPORT_CNT_COUNT : Fld := ⟨0xa000c0080, 0, 32, 4⟩
/-- BURL_CTRL.HOLD_RELEASE (14/R330). -/
def BURL_CTRL_HOLD_RELEASE : Fld := ⟨0xa000d0000, 4, 1, 4⟩
/-- BURL_CTRL.RELEASE (14/R330). -/
def BURL_CTRL_RELEASE : Fld := ⟨0xa000d0000, 3, 1, 4⟩
/-- BURL_CTRL.UNLOAD (14/R330). -/
def BURL_CTRL_UNLOAD : Fld := ⟨0xa000d0000, 2, 1, 4⟩
/-- BURL_CTRL.LOAD (14/R330). -/
def BURL_CTRL_LOAD : Fld := ⟨0xa000d0000, 1, 1, 4⟩
/-- BURL_STATUS.BANK_V (14/R330). -/
def BURL_STATUS_BANK_V : Fld := ⟨0xa000d0004, 16, 8, 4⟩
/-- BURL_STATUS.REASON (14/R330). -/
def BURL_STATUS_REASON : Fld := ⟨0xa000d0004, 8, 8, 4⟩
/-- BURL_STATUS.STATE (14/R330). -/
def BURL_STATUS_STATE : Fld := ⟨0xa000d0004, 0, 3, 4⟩
/-- BURL_IMAGE_LO.ADDR (14/R330). -/
def BURL_IMAGE_LO_ADDR : Fld := ⟨0xa000d0008, 6, 26, 4⟩
/-- BURL_IMAGE_HI.ADDR (14/R330). -/
def BURL_IMAGE_HI_ADDR : Fld := ⟨0xa000d000c, 0, 8, 4⟩
/-- BURL_SOFT.BITS (14/R325). -/
def BURL_SOFT_BITS : Fld := ⟨0xa000d0020, 0, 16, 4⟩
/-- BURL_CAPTURE.ARM (14/R335). -/
def BURL_CAPTURE_ARM : Fld := ⟨0xa000d0024, 31, 1, 4⟩
/-- BURL_CAPTURE.DONE (14/R335). -/
def BURL_CAPTURE_DONE : Fld := ⟨0xa000d0024, 30, 1, 4⟩
/-- BURL_CAPTURE.BUSY (14/R335). -/
def BURL_CAPTURE_BUSY : Fld := ⟨0xa000d0024, 29, 1, 4⟩
/-- BURL_CAPTURE.CLK (14/R335). -/
def BURL_CAPTURE_CLK : Fld := ⟨0xa000d0024, 24, 2, 4⟩
/-- BURL_CAPTURE.MODE (14/R335). -/
def BURL_CAPTURE_MODE : Fld := ⟨0xa000d0024, 23, 1, 4⟩
/-- BURL_CAPTURE.TRIG (14/R335). -/
def BURL_CAPTURE_TRIG : Fld := ⟨0xa000d0024, 10, 10, 4⟩
/-- BURL_CAPTURE.COUNT (14/R335). -/
def BURL_CAPTURE_COUNT : Fld := ⟨0xa000d0024, 0, 10, 4⟩
/-- BURL_WTAP.EN (14/R334). -/
def BURL_WTAP_EN : Fld := ⟨0xa000d0040, 31, 1, 4⟩
/-- BURL_WTAP.GROUP (14/R334). -/
def BURL_WTAP_GROUP : Fld := ⟨0xa000d0040, 24, 2, 4⟩
/-- BURL_WTAP.CLK (14/R334). -/
def BURL_WTAP_CLK : Fld := ⟨0xa000d0040, 20, 2, 4⟩
/-- BURL_WTAP.CTX (14/R334). -/
def BURL_WTAP_CTX : Fld := ⟨0xa000d0040, 0, 12, 4⟩
/-- BURL_QSEL.QUEUE (14/R331). -/
def BURL_QSEL_QUEUE : Fld := ⟨0xa000d0080, 0, 3, 4⟩
/-- BURL_QCFG.EN (14/R331). -/
def BURL_QCFG_EN : Fld := ⟨0xa000d0084, 31, 1, 4⟩
/-- BURL_QCFG.MODE (14/R331). -/
def BURL_QCFG_MODE : Fld := ⟨0xa000d0084, 28, 3, 4⟩
/-- BURL_QCFG.WCLK (14/R331). -/
def BURL_QCFG_WCLK : Fld := ⟨0xa000d0084, 26, 2, 4⟩
/-- BURL_QCFG.RCLK (14/R331). -/
def BURL_QCFG_RCLK : Fld := ⟨0xa000d0084, 24, 2, 4⟩
/-- BURL_QCFG.GALLEY (14/R331). -/
def BURL_QCFG_GALLEY : Fld := ⟨0xa000d0084, 16, 4, 4⟩
/-- BURL_QCFG.CTX (14/R331). -/
def BURL_QCFG_CTX : Fld := ⟨0xa000d0084, 0, 12, 4⟩
/-- BURL_QWM.HI (14/R331). -/
def BURL_QWM_HI : Fld := ⟨0xa000d0088, 16, 13, 4⟩
/-- BURL_QWM.LO (14/R331). -/
def BURL_QWM_LO : Fld := ⟨0xa000d0088, 0, 12, 4⟩
/-- BURL_QSTAT.XOFF (14/R331). -/
def BURL_QSTAT_XOFF : Fld := ⟨0xa000d008c, 31, 1, 4⟩
/-- BURL_QSTAT.LEVEL (14/R331). -/
def BURL_QSTAT_LEVEL : Fld := ⟨0xa000d008c, 0, 13, 4⟩
/-- BURL_QDROP.COUNT (14/R331). -/
def BURL_QDROP_COUNT : Fld := ⟨0xa000d0090, 0, 32, 4⟩
/-- BURL_BRIDGE_TIMEOUT.US (14/R332). -/
def BURL_BRIDGE_TIMEOUT_US : Fld := ⟨0xa000d0094, 0, 16, 4⟩
/-- BURL_IO.SAFE (14/R337). -/
def BURL_IO_SAFE : Fld := ⟨0xa000d0100, 30, 2, 4⟩
/-- BURL_IO.OD (14/R337). -/
def BURL_IO_OD : Fld := ⟨0xa000d0100, 29, 1, 4⟩
/-- BURL_IO.DRIVE (14/R337). -/
def BURL_IO_DRIVE : Fld := ⟨0xa000d0100, 27, 2, 4⟩
/-- BURL_IO.PULL (14/R337). -/
def BURL_IO_PULL : Fld := ⟨0xa000d0100, 25, 2, 4⟩
/-- BURL_IO.FUNIT (14/R337). -/
def BURL_IO_FUNIT : Fld := ⟨0xa000d0100, 22, 2, 4⟩
/-- BURL_IO.FILT (14/R337). -/
def BURL_IO_FILT : Fld := ⟨0xa000d0100, 14, 8, 4⟩
/-- BURL_IO.INV (14/R337). -/
def BURL_IO_INV : Fld := ⟨0xa000d0100, 13, 1, 4⟩
/-- BURL_IOIN.IN (14/R337). -/
def BURL_IOIN_IN : Fld := ⟨0xa000d0180, 0, 32, 4⟩
/-- BURL_CAP_DATA.STATE (14/R335). -/
def BURL_CAP_DATA_STATE : Fld := ⟨0xa000d0400, 0, 32, 4⟩
/-- USB_STATUS.SESSION (15/R344). -/
def USB_STATUS_SESSION : Fld := ⟨0xa000e0000, 31, 1, 4⟩
/-- USB_STATUS.SPEED (15/R344). -/
def USB_STATUS_SPEED : Fld := ⟨0xa000e0000, 16, 3, 4⟩
/-- USB_STATUS.CONFIGURED (15/R344). -/
def USB_STATUS_CONFIGURED : Fld := ⟨0xa000e0000, 8, 1, 4⟩
/-- USB_STATUS.VBUS (15/R344). -/
def USB_STATUS_VBUS : Fld := ⟨0xa000e0000, 0, 1, 4⟩
/-- USB_CTRL.MAX_SPEED (15/R358). -/
def USB_CTRL_MAX_SPEED : Fld := ⟨0xa000e0004, 0, 2, 4⟩
/-- USB_BUS_RESETS.COUNT (15/R344). -/
def USB_BUS_RESETS_COUNT : Fld := ⟨0xa000e0008, 0, 32, 4⟩
/-- MGMT_CFG.STATIC (15/R359). -/
def MGMT_CFG_STATIC : Fld := ⟨0xa000f0000, 1, 1, 4⟩
/-- MGMT_CFG.SGMII (15/R359). -/
def MGMT_CFG_SGMII : Fld := ⟨0xa000f0000, 0, 1, 4⟩
/-- MGMT_STATUS.LINK_UP (15/R359). -/
def MGMT_STATUS_LINK_UP : Fld := ⟨0xa000f0004, 31, 1, 4⟩
/-- MGMT_STATUS.SPEED (15/R359). -/
def MGMT_STATUS_SPEED : Fld := ⟨0xa000f0004, 16, 2, 4⟩
/-- MGMT_STATUS.ADDR_VALID (15/R359). -/
def MGMT_STATUS_ADDR_VALID : Fld := ⟨0xa000f0004, 8, 1, 4⟩
/-- MGMT_STATUS.SESSION (15/R359). -/
def MGMT_STATUS_SESSION : Fld := ⟨0xa000f0004, 0, 1, 4⟩
/-- MGMT_IP4.ADDR (15/R359). -/
def MGMT_IP4_ADDR : Fld := ⟨0xa000f0008, 0, 32, 4⟩
/-- MGMT_MASK.MASK (15/R359). -/
def MGMT_MASK_MASK : Fld := ⟨0xa000f000c, 0, 32, 4⟩
/-- MGMT_GW.ADDR (15/R359). -/
def MGMT_GW_ADDR : Fld := ⟨0xa000f0010, 0, 32, 4⟩
/-- MGMT_MAC_LO.MAC (15/R359). -/
def MGMT_MAC_LO_MAC : Fld := ⟨0xa000f0014, 0, 32, 4⟩
/-- MGMT_MAC_HI.MAC (15/R359). -/
def MGMT_MAC_HI_MAC : Fld := ⟨0xa000f0018, 0, 16, 4⟩
/-- MGMT_DROP.COUNT (15/R345). -/
def MGMT_DROP_COUNT : Fld := ⟨0xa000f001c, 0, 32, 4⟩
/-- FW_STATUS.FLASH_STALE (16/R379). -/
def FW_STATUS_FLASH_STALE : Fld := ⟨0xa00100000, 31, 1, 4⟩
/-- FW_STATUS.SOURCE (16/R379). -/
def FW_STATUS_SOURCE : Fld := ⟨0xa00100000, 24, 2, 4⟩
/-- FW_STATUS.BOOT_CAUSE (16/R379). -/
def FW_STATUS_BOOT_CAUSE : Fld := ⟨0xa00100000, 16, 4, 4⟩
/-- FW_ROLE.SPARE (16/R360). -/
def FW_ROLE_SPARE : Fld := ⟨0xa00100004, 16, 3, 4⟩
/-- FW_ROLE.HEALTH (16/R360). -/
def FW_ROLE_HEALTH : Fld := ⟨0xa00100004, 12, 3, 4⟩
/-- FW_ROLE.ADMISSION (16/R360). -/
def FW_ROLE_ADMISSION : Fld := ⟨0xa00100004, 8, 3, 4⟩
/-- FW_ROLE.POWER (16/R360). -/
def FW_ROLE_POWER : Fld := ⟨0xa00100004, 4, 3, 4⟩
/-- FW_ROLE.SECURITY (16/R360). -/
def FW_ROLE_SECURITY : Fld := ⟨0xa00100004, 0, 3, 4⟩
/-- FW_VERSION_RUN.VERSION (16/R366). -/
def FW_VERSION_RUN_VERSION : Fld := ⟨0xa00100008, 0, 32, 4⟩
/-- FW_IF_VERSION.VERSION (16/R366). -/
def FW_IF_VERSION_VERSION : Fld := ⟨0xa0010000c, 0, 32, 4⟩
/-- FW_UPDATE_ADDR_LO.ADDR (16/R376). -/
def FW_UPDATE_ADDR_LO_ADDR : Fld := ⟨0xa00100010, 8, 24, 4⟩
/-- FW_UPDATE_ADDR_HI.ADDR (16/R376). -/
def FW_UPDATE_ADDR_HI_ADDR : Fld := ⟨0xa00100014, 0, 8, 4⟩
/-- FW_UPDATE_CTRL.START (16/R376). -/
def FW_UPDATE_CTRL_START : Fld := ⟨0xa00100018, 31, 1, 4⟩
/-- FW_UPDATE_CTRL.STEP (16/R376). -/
def FW_UPDATE_CTRL_STEP : Fld := ⟨0xa00100018, 24, 4, 4⟩
/-- FW_UPDATE_CTRL.CAUSE (16/R376). -/
def FW_UPDATE_CTRL_CAUSE : Fld := ⟨0xa00100018, 16, 4, 4⟩
/-- FW_UPDATE_CTRL.BUSY (16/R376). -/
def FW_UPDATE_CTRL_BUSY : Fld := ⟨0xa00100018, 0, 1, 4⟩
/-- FW_CTRL.FLASH_WRITE (16/R371). -/
def FW_CTRL_FLASH_WRITE : Fld := ⟨0xa0010001c, 1, 1, 4⟩
/-- FW_CTRL.COMMIT (16/R371). -/
def FW_CTRL_COMMIT : Fld := ⟨0xa0010001c, 0, 1, 4⟩
/-- FW_LOG_HEAD.HEAD (16/R380). -/
def FW_LOG_HEAD_HEAD : Fld := ⟨0xa00100020, 0, 21, 4⟩
/-- FW_TRACE_MASK.MASK (16/R381). -/
def FW_TRACE_MASK_MASK : Fld := ⟨0xa00100040, 0, 32, 4⟩
/-- FW_MC_RESTARTS.COUNT (16/R374). -/
def FW_MC_RESTARTS_COUNT : Fld := ⟨0xa00100060, 0, 32, 4⟩
/-- SEC_LIFECYCLE.ROLLBACK (16/R370). -/
def SEC_LIFECYCLE_ROLLBACK : Fld := ⟨0xa00110000, 8, 7, 4⟩
/-- SEC_LIFECYCLE.RETURNED (16/R370). -/
def SEC_LIFECYCLE_RETURNED : Fld := ⟨0xa00110000, 0, 1, 4⟩
/-- SEC_UID.UID (16/R370). -/
def SEC_UID_UID : Fld := ⟨0xa00110010, 0, 32, 4⟩
/-- SEC_IDKEY.KEY (16/R382). -/
def SEC_IDKEY_KEY : Fld := ⟨0xa00110020, 0, 32, 4⟩
/-- SEC_FW_DIGEST.DIGEST (16/R362). -/
def SEC_FW_DIGEST_DIGEST : Fld := ⟨0xa00110040, 0, 32, 4⟩
/-- SEC_DEBUG_CTRL.UNLOCK (16/R384). -/
def SEC_DEBUG_CTRL_UNLOCK : Fld := ⟨0xa00110080, 0, 1, 4⟩
/-- SEC_DEBUG_STATUS.ACTIVE (16/R385). -/
def SEC_DEBUG_STATUS_ACTIVE : Fld := ⟨0xa00110084, 31, 1, 4⟩
/-- SEC_DEBUG_STATUS.SCOPE (16/R385). -/
def SEC_DEBUG_STATUS_SCOPE : Fld := ⟨0xa00110084, 8, 4, 4⟩
/-- SEC_DEBUG_STATUS.CAUSE (16/R385). -/
def SEC_DEBUG_STATUS_CAUSE : Fld := ⟨0xa00110084, 0, 2, 4⟩
/-- SEC_DEBUG_ADDR_LO.ADDR (16/R384). -/
def SEC_DEBUG_ADDR_LO_ADDR : Fld := ⟨0xa00110088, 6, 26, 4⟩
/-- SEC_DEBUG_ADDR_HI.ADDR (16/R384). -/
def SEC_DEBUG_ADDR_HI_ADDR : Fld := ⟨0xa0011008c, 0, 8, 4⟩
/-- SEC_DEBUG_NONCE.NONCE (16/R384). -/
def SEC_DEBUG_NONCE_NONCE : Fld := ⟨0xa00110090, 0, 32, 4⟩
/-- SEC_ATTEST_CTRL.ATTEST (16/R383). -/
def SEC_ATTEST_CTRL_ATTEST : Fld := ⟨0xa001100c0, 31, 1, 4⟩
/-- SEC_ATTEST_CTRL.STATUS (16/R383). -/
def SEC_ATTEST_CTRL_STATUS : Fld := ⟨0xa001100c0, 1, 2, 4⟩
/-- SEC_ATTEST_CTRL.BUSY (16/R383). -/
def SEC_ATTEST_CTRL_BUSY : Fld := ⟨0xa001100c0, 0, 1, 4⟩
/-- SEC_ATTEST_ADDR_LO.ADDR (16/R383). -/
def SEC_ATTEST_ADDR_LO_ADDR : Fld := ⟨0xa001100c4, 6, 26, 4⟩
/-- SEC_ATTEST_ADDR_HI.ADDR (16/R383). -/
def SEC_ATTEST_ADDR_HI_ADDR : Fld := ⟨0xa001100c8, 0, 8, 4⟩
/-- SEC_ATTEST_NONCE.NONCE (16/R383). -/
def SEC_ATTEST_NONCE_NONCE : Fld := ⟨0xa001100d0, 0, 32, 4⟩
/-- BIST_UNIT_SEL.UNIT (17/R405). -/
def BIST_UNIT_SEL_UNIT : Fld := ⟨0xa00120000, 0, 8, 4⟩
/-- BIST_UNIT.CAUSE (17/R405). -/
def BIST_UNIT_CAUSE : Fld := ⟨0xa00120004, 2, 6, 4⟩
/-- BIST_UNIT.STATE (17/R405). -/
def BIST_UNIT_STATE : Fld := ⟨0xa00120004, 0, 2, 4⟩
/-- BIST_ACTIVE.TILES (17/R402). -/
def BIST_ACTIVE_TILES : Fld := ⟨0xa00120008, 0, 4, 4⟩
/-- BIST_FAILS.COUNT (17/R402). -/
def BIST_FAILS_COUNT : Fld := ⟨0xa0012000c, 0, 32, 4⟩
/-- PWR_BUDGET.BUDGET (17/R395). -/
def PWR_BUDGET_BUDGET : Fld := ⟨0xa00130000, 0, 12, 4⟩
/-- PWR_COMMITTED.COMMITTED (17/R394). -/
def PWR_COMMITTED_COMMITTED : Fld := ⟨0xa00130004, 0, 12, 4⟩
/-- PWR_CTRL.SHUTDOWN (17/R397). -/
def PWR_CTRL_SHUTDOWN : Fld := ⟨0xa00130008, 3, 1, 4⟩
/-- PWR_CTRL.RUN (17/R397). -/
def PWR_CTRL_RUN : Fld := ⟨0xa00130008, 2, 1, 4⟩
/-- PWR_CTRL.RETAIN (17/R397). -/
def PWR_CTRL_RETAIN : Fld := ⟨0xa00130008, 1, 1, 4⟩
/-- PWR_STATUS.TRIP_CURRENT (17/R397). -/
def PWR_STATUS_TRIP_CURRENT : Fld := ⟨0xa0013000c, 9, 1, 4⟩
/-- PWR_STATUS.TRIP_TEMP (17/R397). -/
def PWR_STATUS_TRIP_TEMP : Fld := ⟨0xa0013000c, 8, 1, 4⟩
/-- PWR_STATUS.STATE (17/R397). -/
def PWR_STATUS_STATE : Fld := ⟨0xa0013000c, 0, 3, 4⟩
/-- PWR_DOMAIN.ON (17/R394). -/
def PWR_DOMAIN_ON : Fld := ⟨0xa00130010, 0, 32, 4⟩
/-- PWR_BLOCK_RESET.DOMAIN (17/R392). -/
def PWR_BLOCK_RESET_DOMAIN : Fld := ⟨0xa00130020, 0, 7, 4⟩
/-- PWR_SLOT_PARK.PARK (17/R396). -/
def PWR_SLOT_PARK_PARK : Fld := ⟨0xa00130024, 0, 8, 4⟩
/-- PWR_TRIP.AUTO (17/R398). -/
def PWR_TRIP_AUTO : Fld := ⟨0xa00130028, 31, 1, 4⟩
/-- PWR_TRIP.TEMP_C (17/R398). -/
def PWR_TRIP_TEMP_C : Fld := ⟨0xa00130028, 16, 8, 4⟩
/-- PWR_TRIP.I_LIMIT_A (17/R398). -/
def PWR_TRIP_I_LIMIT_A : Fld := ⟨0xa00130028, 0, 12, 4⟩
/-- PWR_PMBUS.ADDR (18/R419). -/
def PWR_PMBUS_ADDR : Fld := ⟨0xa00130030, 16, 7, 4⟩
/-- PWR_IOUT.FAILS (18/R420). -/
def PWR_IOUT_FAILS : Fld := ⟨0xa00130034, 24, 4, 4⟩
/-- PWR_IOUT.IOUT (18/R420). -/
def PWR_IOUT_IOUT : Fld := ⟨0xa00130034, 0, 16, 4⟩
/-- CTX_SEL.CTX (15/R349). -/
def CTX_SEL_CTX : Fld := ⟨0xa00140000, 0, 12, 4⟩
/-- CTX_BIND0.CONTRACT (15/R349). -/
def CTX_BIND0_CONTRACT : Fld := ⟨0xa00140004, 31, 1, 4⟩
/-- CTX_BIND0.PRIORITY (15/R349). -/
def CTX_BIND0_PRIORITY : Fld := ⟨0xa00140004, 28, 3, 4⟩
/-- CTX_BIND0.SLOT (15/R349). -/
def CTX_BIND0_SLOT : Fld := ⟨0xa00140004, 24, 3, 4⟩
/-- CTX_BIND0.SOURCE (15/R349). -/
def CTX_BIND0_SOURCE : Fld := ⟨0xa00140004, 20, 2, 4⟩
/-- CTX_BIND0.RESULT (15/R349). -/
def CTX_BIND0_RESULT : Fld := ⟨0xa00140004, 0, 8, 4⟩
/-- CTX_BIND1.LIMIT_US (15/R349). -/
def CTX_BIND1_LIMIT_US : Fld := ⟨0xa00140008, 0, 32, 4⟩
/-- CTX_STEER.WORD (15/R349). -/
def CTX_STEER_WORD : Fld := ⟨0xa0014000c, 0, 32, 4⟩
/-- CTX_CMD.STOP (15/R349). -/
def CTX_CMD_STOP : Fld := ⟨0xa00140010, 3, 1, 4⟩
/-- CTX_CMD.START (15/R349). -/
def CTX_CMD_START : Fld := ⟨0xa00140010, 2, 1, 4⟩
/-- CTX_CMD.UNBIND (15/R349). -/
def CTX_CMD_UNBIND : Fld := ⟨0xa00140010, 1, 1, 4⟩
/-- CTX_CMD.BIND (15/R349). -/
def CTX_CMD_BIND : Fld := ⟨0xa00140010, 0, 1, 4⟩
/-- CTX_STATUS.STATE (15/R349). -/
def CTX_STATUS_STATE : Fld := ⟨0xa00140014, 28, 2, 4⟩
/-- CTX_STATUS.FIDX (15/R349). -/
def CTX_STATUS_FIDX : Fld := ⟨0xa00140014, 16, 12, 4⟩
/-- CTX_STATUS.LAST_ERR (15/R349). -/
def CTX_STATUS_LAST_ERR : Fld := ⟨0xa00140014, 0, 16, 4⟩
/-- CTX_IN_QUOIN.INDEX (15/R351). -/
def CTX_IN_QUOIN_INDEX : Fld := ⟨0xa00140018, 0, 17, 4⟩
/-- CTX_FREE_QUOIN.INDEX (15/R351). -/
def CTX_FREE_QUOIN_INDEX : Fld := ⟨0xa0014001c, 0, 17, 4⟩
/-- CTX_PICBASE_LO.ADDR (15/R351). -/
def CTX_PICBASE_LO_ADDR : Fld := ⟨0xa00140020, 16, 16, 4⟩
/-- CTX_PICBASE_HI.ADDR (15/R351). -/
def CTX_PICBASE_HI_ADDR : Fld := ⟨0xa00140024, 0, 8, 4⟩
/-- CTX_RES_SEL.GALLEY (15/R352). -/
def CTX_RES_SEL_GALLEY : Fld := ⟨0xa00140040, 0, 8, 4⟩
/-- CTX_RES_CFG.USB (15/R353). -/
def CTX_RES_CFG_USB : Fld := ⟨0xa00140044, 31, 1, 4⟩
/-- CTX_RES_CFG.POLICY (15/R353). -/
def CTX_RES_CFG_POLICY : Fld := ⟨0xa00140044, 0, 2, 4⟩
/-- CTX_RES_DROPPED.COUNT (15/R352). -/
def CTX_RES_DROPPED_COUNT : Fld := ⟨0xa00140048, 0, 32, 4⟩
/-- LOAD_IMAGE_LO.ADDR (01/R18). -/
def LOAD_IMAGE_LO_ADDR : Fld := ⟨0xa00150000, 8, 24, 4⟩
/-- LOAD_IMAGE_HI.ADDR (01/R18). -/
def LOAD_IMAGE_HI_ADDR : Fld := ⟨0xa00150004, 0, 8, 4⟩
/-- LOAD_CTRL.UNLOAD (01/R33). -/
def LOAD_CTRL_UNLOAD : Fld := ⟨0xa00150008, 17, 1, 4⟩
/-- LOAD_CTRL.START (01/R33). -/
def LOAD_CTRL_START : Fld := ⟨0xa00150008, 16, 1, 4⟩
/-- LOAD_CTRL.AUTO_RELOCK (01/R33). -/
def LOAD_CTRL_AUTO_RELOCK : Fld := ⟨0xa00150008, 12, 1, 4⟩
/-- LOAD_CTRL.CHECK_OVERRIDE (01/R33). -/
def LOAD_CTRL_CHECK_OVERRIDE : Fld := ⟨0xa00150008, 11, 1, 4⟩
/-- LOAD_CTRL.TILE_LIMIT (01/R33). -/
def LOAD_CTRL_TILE_LIMIT : Fld := ⟨0xa00150008, 4, 7, 4⟩
/-- LOAD_CTRL.SLOT (01/R33). -/
def LOAD_CTRL_SLOT : Fld := ⟨0xa00150008, 0, 3, 4⟩
/-- LOAD_STATUS.FAIL_STEP (01/R33). -/
def LOAD_STATUS_FAIL_STEP : Fld := ⟨0xa0015000c, 8, 4, 4⟩
/-- LOAD_STATUS.FAILED (01/R33). -/
def LOAD_STATUS_FAILED : Fld := ⟨0xa0015000c, 2, 1, 4⟩
/-- LOAD_STATUS.DONE (01/R33). -/
def LOAD_STATUS_DONE : Fld := ⟨0xa0015000c, 1, 1, 4⟩
/-- LOAD_STATUS.BUSY (01/R33). -/
def LOAD_STATUS_BUSY : Fld := ⟨0xa0015000c, 0, 1, 4⟩
/-- LOAD_SLOT_STATE.STATES (01/R18). -/
def LOAD_SLOT_STATE_STATES : Fld := ⟨0xa00150010, 0, 32, 4⟩
/-- LOAD_TILE_MAP.TILES (01/R20). -/
def LOAD_TILE_MAP_TILES : Fld := ⟨0xa00150020, 0, 32, 4⟩
/-- LOAD_SW_SEL.SWITCH (05/R125). -/
def LOAD_SW_SEL_SWITCH : Fld := ⟨0xa00150100, 16, 7, 4⟩
/-- LOAD_SW_SEL.INDEX (05/R125). -/
def LOAD_SW_SEL_INDEX : Fld := ⟨0xa00150100, 0, 8, 4⟩
/-- LOAD_SW_DATA.WORD (05/R125). -/
def LOAD_SW_DATA_WORD : Fld := ⟨0xa00150104, 0, 32, 4⟩
/-- LOAD_MC_LAG_LIMIT.LIMIT (05/R141). -/
def LOAD_MC_LAG_LIMIT_LIMIT : Fld := ⟨0xa00150108, 0, 8, 4⟩
/-- LOAD_WDOG_PERIOD.PERIOD_US (05/R145). -/
def LOAD_WDOG_PERIOD_PERIOD_US : Fld := ⟨0xa0015010c, 0, 16, 4⟩
/-- LOAD_SNAP_LO.ADDR (05/R146). -/
def LOAD_SNAP_LO_ADDR : Fld := ⟨0xa00150110, 6, 26, 4⟩
/-- LOAD_SNAP_HI.ADDR (05/R146). -/
def LOAD_SNAP_HI_ADDR : Fld := ⟨0xa00150114, 0, 8, 4⟩
/-- LOAD_FAB_PARITY.COUNT (05/R131). -/
def LOAD_FAB_PARITY_COUNT : Fld := ⟨0xa00150118, 0, 32, 4⟩
/-- LOAD_FE_ROLE.SPARE (08/R191). -/
def LOAD_FE_ROLE_SPARE : Fld := ⟨0xa00150200, 8, 2, 4⟩
/-- LOAD_FE_ROLE.OUTPUT (08/R191). -/
def LOAD_FE_ROLE_OUTPUT : Fld := ⟨0xa00150200, 4, 2, 4⟩
/-- LOAD_FE_ROLE.INPUT (08/R191). -/
def LOAD_FE_ROLE_INPUT : Fld := ⟨0xa00150200, 0, 2, 4⟩
/-- LOAD_FE_STATUS.FAILED (08/R201). -/
def LOAD_FE_STATUS_FAILED : Fld := ⟨0xa00150204, 8, 3, 4⟩
/-- LOAD_FE_STATUS.BUSY (08/R201). -/
def LOAD_FE_STATUS_BUSY : Fld := ⟨0xa00150204, 0, 3, 4⟩
/-- LOAD_FE_FIRINGS.COUNT (08/R191). -/
def LOAD_FE_FIRINGS_COUNT : Fld := ⟨0xa00150208, 0, 32, 4⟩
/-- LOAD_IMP_STATUS.MULTI (09/R207). -/
def LOAD_IMP_STATUS_MULTI : Fld := ⟨0xa00150300, 31, 1, 4⟩
/-- LOAD_IMP_STATUS.PHASE (09/R207). -/
def LOAD_IMP_STATUS_PHASE : Fld := ⟨0xa00150300, 24, 3, 4⟩
/-- LOAD_IMP_STATUS.FRAMES (09/R207). -/
def LOAD_IMP_STATUS_FRAMES : Fld := ⟨0xa00150300, 16, 7, 4⟩
/-- LOAD_IMP_STATUS.LEAD (09/R207). -/
def LOAD_IMP_STATUS_LEAD : Fld := ⟨0xa00150300, 8, 8, 4⟩
/-- LOAD_IMP_STATUS.TRAIL (09/R207). -/
def LOAD_IMP_STATUS_TRAIL : Fld := ⟨0xa00150300, 0, 8, 4⟩
/-- LOAD_IMP_ROUNDS.COUNT (09/R207). -/
def LOAD_IMP_ROUNDS_COUNT : Fld := ⟨0xa00150320, 0, 32, 4⟩
/-- LOAD_IMP_CTRL.FAULT_SCAN (09/R217). -/
def LOAD_IMP_CTRL_FAULT_SCAN : Fld := ⟨0xa00150340, 3, 1, 4⟩
/-- LOAD_IMP_CTRL.SCAN_SLOT (09/R217). -/
def LOAD_IMP_CTRL_SCAN_SLOT : Fld := ⟨0xa00150340, 0, 3, 4⟩
/-- LOAD_IMP_SCAN_LO.ADDR (09/R217). -/
def LOAD_IMP_SCAN_LO_ADDR : Fld := ⟨0xa00150344, 6, 26, 4⟩
/-- LOAD_IMP_SCAN_HI.ADDR (09/R217). -/
def LOAD_IMP_SCAN_HI_ADDR : Fld := ⟨0xa00150348, 0, 8, 4⟩
/-- TILE_STATUS.PC (02/R70). -/
def TILE_STATUS_PC : Fld := ⟨0x9001f0000, 16, 12, 4⟩
/-- TILE_STATUS.WAIT_PORT (02/R70). -/
def TILE_STATUS_WAIT_PORT : Fld := ⟨0x9001f0000, 12, 4, 4⟩
/-- TILE_STATUS.WAIT_OUT (02/R70). -/
def TILE_STATUS_WAIT_OUT : Fld := ⟨0x9001f0000, 11, 1, 4⟩
/-- TILE_STATUS.STATE (02/R70). -/
def TILE_STATUS_STATE : Fld := ⟨0x9001f0000, 0, 4, 4⟩
/-- TILE_CTRL.CLEAR (02/R71). -/
def TILE_CTRL_CLEAR : Fld := ⟨0x9001f0004, 3, 1, 4⟩
/-- TILE_CTRL.STEP (02/R71). -/
def TILE_CTRL_STEP : Fld := ⟨0x9001f0004, 2, 1, 4⟩
/-- TILE_CTRL.RESUME (02/R71). -/
def TILE_CTRL_RESUME : Fld := ⟨0x9001f0004, 1, 1, 4⟩
/-- TILE_CTRL.HALT (02/R71). -/
def TILE_CTRL_HALT : Fld := ⟨0x9001f0004, 0, 1, 4⟩
/-- TILE_CFG.ENTRY (02/R70). -/
def TILE_CFG_ENTRY : Fld := ⟨0x9001f0008, 16, 12, 4⟩
/-- TILE_CFG.SLOT (02/R70). -/
def TILE_CFG_SLOT : Fld := ⟨0x9001f0008, 12, 4, 4⟩
/-- TILE_CFG.HELD (02/R70). -/
def TILE_CFG_HELD : Fld := ⟨0x9001f0008, 11, 1, 4⟩
/-- TILE_CFG.ROUND_L1 (02/R70). -/
def TILE_CFG_ROUND_L1 : Fld := ⟨0x9001f0008, 2, 1, 4⟩
/-- TILE_CFG.ISA_LEVEL (02/R70). -/
def TILE_CFG_ISA_LEVEL : Fld := ⟨0x9001f0008, 0, 2, 4⟩
/-- TILE_FAULT.OVERFLOW (02/R69). -/
def TILE_FAULT_OVERFLOW : Fld := ⟨0x9001f000c, 31, 1, 4⟩
/-- TILE_FAULT.VALID (02/R69). -/
def TILE_FAULT_VALID : Fld := ⟨0x9001f000c, 8, 1, 4⟩
/-- TILE_FAULT.CODE (02/R69). -/
def TILE_FAULT_CODE : Fld := ⟨0x9001f000c, 0, 8, 4⟩
/-- TILE_FAULT_PC.PC (02/R69). -/
def TILE_FAULT_PC_PC : Fld := ⟨0x9001f0010, 0, 12, 4⟩
/-- TILE_FAULT_ADDR.ADDR_VALID (02/R69). -/
def TILE_FAULT_ADDR_ADDR_VALID : Fld := ⟨0x9001f0014, 31, 1, 4⟩
/-- TILE_FAULT_ADDR.BEYOND (02/R69). -/
def TILE_FAULT_ADDR_BEYOND : Fld := ⟨0x9001f0014, 30, 1, 4⟩
/-- TILE_FAULT_ADDR.NEG (02/R69). -/
def TILE_FAULT_ADDR_NEG : Fld := ⟨0x9001f0014, 29, 1, 4⟩
/-- TILE_FAULT_ADDR.OFFSET (02/R69). -/
def TILE_FAULT_ADDR_OFFSET : Fld := ⟨0x9001f0014, 0, 22, 4⟩
/-- TILE_FIRINGS.COUNT (02/R66). -/
def TILE_FIRINGS_COUNT : Fld := ⟨0x9001f0020, 0, 32, 4⟩
/-- TILE_STALL_IN.COUNT (02/R66). -/
def TILE_STALL_IN_COUNT : Fld := ⟨0x9001f0024, 0, 32, 4⟩
/-- TILE_STALL_OUT.COUNT (02/R66). -/
def TILE_STALL_OUT_COUNT : Fld := ⟨0x9001f0028, 0, 32, 4⟩
/-- TILE_GCFG.EN (02/R70). -/
def TILE_GCFG_EN : Fld := ⟨0x9001f0040, 31, 1, 4⟩
/-- TILE_GCFG.NET (02/R70). -/
def TILE_GCFG_NET : Fld := ⟨0x9001f0040, 30, 1, 4⟩
/-- TILE_GCFG.COUNT_M1 (02/R70). -/
def TILE_GCFG_COUNT_M1 : Fld := ⟨0x9001f0040, 24, 6, 4⟩
/-- TILE_GCFG.CAP_KIB (02/R70). -/
def TILE_GCFG_CAP_KIB : Fld := ⟨0x9001f0040, 16, 6, 4⟩
/-- TILE_GCFG.BASE_KIB (02/R70). -/
def TILE_GCFG_BASE_KIB : Fld := ⟨0x9001f0040, 8, 6, 4⟩
/-- TILE_GRING.RING_TOKENS (02/R70). -/
def TILE_GRING_RING_TOKENS : Fld := ⟨0x9001f0080, 16, 15, 4⟩
/-- TILE_GRING.RING_BASE (02/R70). -/
def TILE_GRING_RING_BASE : Fld := ⟨0x9001f0080, 0, 15, 4⟩
/-- TILE_GLEV.LEVEL (02/R63). -/
def TILE_GLEV_LEVEL : Fld := ⟨0x9001f00c0, 0, 14, 4⟩
/-- TILE_AG_BASE.BASE (02/R51). -/
def TILE_AG_BASE_BASE : Fld := ⟨0x9001f0100, 0, 21, 0x40⟩
/-- TILE_AG_CNT0.COUNT_M1 (02/R51). -/
def TILE_AG_CNT0_COUNT_M1 : Fld := ⟨0x9001f0104, 0, 16, 0x40⟩
/-- TILE_AG_CNT1.COUNT_M1 (02/R51). -/
def TILE_AG_CNT1_COUNT_M1 : Fld := ⟨0x9001f0108, 0, 16, 0x40⟩
/-- TILE_AG_CNT2.COUNT_M1 (02/R51). -/
def TILE_AG_CNT2_COUNT_M1 : Fld := ⟨0x9001f010c, 0, 16, 0x40⟩
/-- TILE_AG_CNT3.COUNT_M1 (02/R51). -/
def TILE_AG_CNT3_COUNT_M1 : Fld := ⟨0x9001f0110, 0, 16, 0x40⟩
/-- TILE_AG_CNT4.COUNT_M1 (02/R51). -/
def TILE_AG_CNT4_COUNT_M1 : Fld := ⟨0x9001f0114, 0, 16, 0x40⟩
/-- TILE_AG_STR0.STRIDE (02/R51). -/
def TILE_AG_STR0_STRIDE : Fld := ⟨0x9001f0118, 0, 22, 0x40⟩
/-- TILE_AG_STR1.STRIDE (02/R51). -/
def TILE_AG_STR1_STRIDE : Fld := ⟨0x9001f011c, 0, 22, 0x40⟩
/-- TILE_AG_STR2.STRIDE (02/R51). -/
def TILE_AG_STR2_STRIDE : Fld := ⟨0x9001f0120, 0, 22, 0x40⟩
/-- TILE_AG_STR3.STRIDE (02/R51). -/
def TILE_AG_STR3_STRIDE : Fld := ⟨0x9001f0124, 0, 22, 0x40⟩
/-- TILE_AG_STR4.STRIDE (02/R51). -/
def TILE_AG_STR4_STRIDE : Fld := ⟨0x9001f0128, 0, 22, 0x40⟩
/-- TILE_AG_ADDR.WRAP (02/R47). -/
def TILE_AG_ADDR_WRAP : Fld := ⟨0x9001f012c, 31, 1, 0x40⟩
/-- TILE_AG_ADDR.BEYOND (02/R47). -/
def TILE_AG_ADDR_BEYOND : Fld := ⟨0x9001f012c, 30, 1, 0x40⟩
/-- TILE_AG_ADDR.NEG (02/R47). -/
def TILE_AG_ADDR_NEG : Fld := ⟨0x9001f012c, 29, 1, 0x40⟩
/-- TILE_AG_ADDR.OFFSET (02/R47). -/
def TILE_AG_ADDR_OFFSET : Fld := ⟨0x9001f012c, 0, 22, 0x40⟩

/-- The registers of block SYS. -/
def regsSys : List RegD := [
  ⟨"SYS_ID", 0xa00000000, 1, 0x4, .none, [⟨31, 16, .ro, 0xaf74, .fixed, 0, 65535⟩, ⟨15, 8, .ro, 0x10, .fixed, 0, 255⟩, ⟨7, 0, .ro, 0xb1, .fixed, 0, 255⟩]⟩,
  ⟨"SYS_FUNC_READY", 0xa00000010, 1, 0x4, .none, [⟨22, 16, .ro, 0, .warm, 0, 127⟩, ⟨15, 15, .ro, 0, .warm, 0, 1⟩, ⟨14, 14, .ro, 0, .warm, 0, 1⟩, ⟨13, 13, .ro, 0, .warm, 0, 1⟩, ⟨12, 12, .ro, 0, .warm, 0, 1⟩, ⟨11, 11, .ro, 0, .warm, 0, 1⟩, ⟨10, 10, .ro, 0, .warm, 0, 1⟩, ⟨9, 9, .ro, 0, .warm, 0, 1⟩, ⟨8, 8, .ro, 0, .warm, 0, 1⟩, ⟨7, 7, .ro, 0, .warm, 0, 1⟩, ⟨6, 6, .ro, 0, .warm, 0, 1⟩, ⟨5, 5, .ro, 0, .warm, 0, 1⟩, ⟨4, 4, .ro, 0, .warm, 0, 1⟩, ⟨3, 3, .ro, 0, .warm, 0, 1⟩, ⟨2, 2, .ro, 0, .warm, 0, 1⟩, ⟨1, 1, .ro, 0, .warm, 0, 1⟩, ⟨0, 0, .ro, 0, .warm, 0, 1⟩]⟩,
  ⟨"SYS_RESET", 0xa00000020, 1, 0x4, .none, [⟨31, 16, .wo, 0, .warm, 0, 65535⟩, ⟨0, 0, .wo, 0, .warm, 0, 1⟩]⟩,
  ⟨"SYS_RESET_CAUSE", 0xa00000024, 1, 0x4, .none, [⟨15, 8, .ro, 0, .warm, 0, 255⟩, ⟨2, 2, .ro, 0, .warm, 0, 1⟩, ⟨1, 0, .ro, 0, .warm, 0, 3⟩]⟩]

/-- The registers of block GOV. -/
def regsGov : List RegD := [
  ⟨"GOV_PACE_FLOOR", 0xa00010000, 1, 0x4, .none, [⟨23, 16, .rw, 0x20, .warm, 8, 255⟩, ⟨9, 0, .rw, 0x28a, .warm, 450, 800⟩]⟩,
  ⟨"GOV_PACE_STATUS", 0xa00010004, 1, 0x4, .none, [⟨27, 18, .ro, 0x2ee, .warm, 0, 1023⟩, ⟨17, 17, .w1c, 0, .warm, 0, 1⟩, ⟨16, 16, .ro, 0, .warm, 0, 1⟩, ⟨9, 0, .ro, 0, .warm, 0, 1023⟩]⟩,
  ⟨"GOV_THERM", 0xa00010008, 1, 0x4, .none, [⟨27, 24, .ro, 0, .warm, 0, 15⟩, ⟨23, 16, .rw, 0x64, .warm, 1, 255⟩, ⟨15, 8, .rw, 0x64, .warm, 80, 105⟩, ⟨7, 0, .ro, 0, .warm, 0, 255⟩]⟩,
  ⟨"GOV_ADMIT_WAIT", 0xa0001000c, 1, 0x4, .none, [⟨15, 0, .rw, 0x1388, .warm, 1, 65535⟩]⟩,
  ⟨"GOV_CTX_SEL", 0xa00010010, 1, 0x4, .none, [⟨11, 0, .rw, 0, .warm, 0, 4095⟩]⟩,
  ⟨"GOV_CTX_LMIN", 0xa00010014, 1, 0x4, .none, [⟨31, 0, .ro, 0, .warm, 0, 4294967295⟩]⟩,
  ⟨"GOV_ADMIT_REFUSED", 0xa00010018, 1, 0x4, .none, [⟨31, 0, .rc, 0, .mcr, 0, 4294967295⟩]⟩,
  ⟨"GOV_DEADLINE_EXPIRED", 0xa0001001c, 1, 0x4, .none, [⟨31, 0, .rc, 0, .mcr, 0, 4294967295⟩]⟩,
  ⟨"GOV_CONTRACT_BROKEN", 0xa00010020, 1, 0x4, .none, [⟨31, 0, .rc, 0, .mcr, 0, 4294967295⟩]⟩,
  ⟨"GOV_SCALE_SAT_LIMIT", 0xa00010040, 1, 0x4, .none, [⟨15, 0, .rw, 0x40, .warm, 0, 65535⟩]⟩,
  ⟨"GOV_SCALE_COLLAPSE_LIMIT", 0xa00010044, 1, 0x4, .none, [⟨15, 0, .rw, 0x2000, .warm, 0, 65535⟩]⟩,
  ⟨"GOV_SCALE_MIN_LANES", 0xa00010048, 1, 0x4, .none, [⟨19, 0, .rw, 0x400, .warm, 1, 1048575⟩]⟩,
  ⟨"GOV_SCALE_ALERTS", 0xa0001004c, 1, 0x4, .none, [⟨31, 0, .rc, 0, .mcr, 0, 4294967295⟩]⟩,
  ⟨"GOV_SCALE_REPORT_DROP", 0xa00010050, 1, 0x4, .none, [⟨31, 0, .rc, 0, .mcr, 0, 4294967295⟩]⟩,
  ⟨"GOV_STEP", 0xa00010100, 16, 0x4, .none, [⟨7, 0, .ro, 0, .fixed, 0, 255⟩]⟩]

/-- The registers of block TIME. -/
def regsTime : List RegD := [
  ⟨"TIME_NOW_LO", 0xa00020000, 1, 0x4, .none, [⟨31, 0, .ro, 0, .warm, 0, 4294967295⟩]⟩,
  ⟨"TIME_NOW_HI", 0xa00020004, 1, 0x4, .none, [⟨31, 0, .ro, 0, .warm, 0, 4294967295⟩]⟩,
  ⟨"TIME_RATE", 0xa00020008, 1, 0x4, .none, [⟨31, 0, .rw, 0, .warm, 0, 4294967295⟩]⟩,
  ⟨"TIME_STEP", 0xa0002000c, 1, 0x4, .none, [⟨31, 0, .wo, 0, .warm, 0, 4294967295⟩]⟩,
  ⟨"TIME_PPS_LO", 0xa00020010, 1, 0x4, .none, [⟨31, 0, .ro, 0, .warm, 0, 4294967295⟩]⟩,
  ⟨"TIME_PPS_HI", 0xa00020014, 1, 0x4, .none, [⟨31, 0, .ro, 0, .warm, 0, 4294967295⟩]⟩,
  ⟨"TIME_PPS_STATUS", 0xa00020018, 1, 0x4, .none, [⟨1, 1, .w1c, 0, .warm, 0, 1⟩, ⟨0, 0, .w1c, 0, .warm, 0, 1⟩]⟩]

/-- The registers of block QUOIN. -/
def regsQuoin : List RegD := [
  ⟨"QUOIN_WAITERS", 0xa00030000, 1, 0x4, .none, [⟨9, 0, .ro, 0, .warm, 0, 1023⟩]⟩,
  ⟨"QUOIN_OVERFLOWS", 0xa00030004, 1, 0x4, .none, [⟨31, 0, .rc, 0, .mcr, 0, 4294967295⟩]⟩,
  ⟨"QUOIN_LAST_OVF", 0xa00030008, 1, 0x4, .none, [⟨31, 31, .w1c, 0, .warm, 0, 1⟩, ⟨16, 0, .ro, 0, .warm, 0, 131071⟩]⟩]

/-- The registers of block HBMC. -/
def regsHbmc : List RegD := [
  ⟨"HBMC_CH_READY", 0xa00040000, 1, 0x4, .none, [⟨31, 0, .ro, 0, .warm, 0, 4294967295⟩]⟩,
  ⟨"HBMC_STACK_ECC", 0xa00040004, 1, 0x4, .none, [⟨31, 0, .rc, 0, .mcr, 0, 4294967295⟩]⟩]

/-- The registers of block ECC. -/
def regsEcc : List RegD := [
  ⟨"ECC_FLIP_CTRL", 0xa00050000, 1, 0x4, .none, [⟨31, 31, .ro, 0, .warm, 0, 1⟩, ⟨1, 1, .wo, 0, .warm, 0, 1⟩, ⟨0, 0, .wo, 0, .warm, 0, 1⟩]⟩,
  ⟨"ECC_FLIP_ADDR_LO", 0xa00050004, 1, 0x4, .none, [⟨31, 2, .rw, 0, .warm, 0, 1073741823⟩]⟩,
  ⟨"ECC_FLIP_ADDR_HI", 0xa00050008, 1, 0x4, .none, [⟨7, 0, .rw, 0, .warm, 0, 255⟩]⟩,
  ⟨"ECC_FLIP_MASK0", 0xa0005000c, 1, 0x4, .none, [⟨31, 0, .rw, 0, .warm, 0, 4294967295⟩]⟩,
  ⟨"ECC_FLIP_MASK1", 0xa00050010, 1, 0x4, .none, [⟨31, 0, .rw, 0, .warm, 0, 4294967295⟩]⟩,
  ⟨"ECC_FLIP_MASK2", 0xa00050014, 1, 0x4, .none, [⟨7, 0, .rw, 0, .warm, 0, 255⟩]⟩,
  ⟨"ECC_SCRUB_BASE_LO", 0xa00050020, 1, 0x4, .none, [⟨31, 6, .rw, 0, .warm, 0, 67108863⟩]⟩,
  ⟨"ECC_SCRUB_BASE_HI", 0xa00050024, 1, 0x4, .none, [⟨7, 0, .rw, 0, .warm, 0, 255⟩]⟩,
  ⟨"ECC_SCRUB_LEN", 0xa00050028, 1, 0x4, .none, [⟨31, 0, .rw, 1, .warm, 1, 268435456⟩]⟩,
  ⟨"ECC_SCRUB_CTRL", 0xa0005002c, 1, 0x4, .none, [⟨1, 1, .wo, 0, .warm, 0, 1⟩, ⟨0, 0, .wo, 0, .warm, 0, 1⟩]⟩,
  ⟨"ECC_SCRUB_STATUS", 0xa00050030, 1, 0x4, .none, [⟨2, 2, .w1c, 0, .warm, 0, 1⟩, ⟨1, 1, .w1c, 0, .warm, 0, 1⟩, ⟨0, 0, .ro, 0, .warm, 0, 1⟩]⟩,
  ⟨"ECC_SCRUB_CORR", 0xa00050034, 1, 0x4, .none, [⟨31, 0, .ro, 0, .warm, 0, 4294967295⟩]⟩,
  ⟨"ECC_SCRUB_UNCORR", 0xa00050038, 1, 0x4, .none, [⟨31, 0, .ro, 0, .warm, 0, 4294967295⟩]⟩,
  ⟨"ECC_SCRUB_FIRST_LO", 0xa00050040, 1, 0x4, .none, [⟨31, 0, .ro, 0, .warm, 0, 4294967295⟩]⟩,
  ⟨"ECC_SCRUB_FIRST_HI", 0xa00050044, 1, 0x4, .none, [⟨31, 31, .ro, 0, .warm, 0, 1⟩, ⟨30, 30, .ro, 0, .warm, 0, 1⟩, ⟨7, 0, .ro, 0, .warm, 0, 255⟩]⟩,
  ⟨"ECC_SCRUB_LAST_LO", 0xa00050048, 1, 0x4, .none, [⟨31, 0, .ro, 0, .warm, 0, 4294967295⟩]⟩,
  ⟨"ECC_SCRUB_LAST_HI", 0xa0005004c, 1, 0x4, .none, [⟨31, 31, .ro, 0, .warm, 0, 1⟩, ⟨30, 30, .ro, 0, .warm, 0, 1⟩, ⟨7, 0, .ro, 0, .warm, 0, 255⟩]⟩,
  ⟨"ECC_ERR_CORR", 0xa00050050, 1, 0x4, .none, [⟨31, 0, .rc, 0, .mcr, 0, 4294967295⟩]⟩,
  ⟨"ECC_ERR_UNCORR", 0xa00050054, 1, 0x4, .none, [⟨31, 0, .rc, 0, .mcr, 0, 4294967295⟩]⟩]

/-- The registers of block REGION. -/
def regsRegion : List RegD := [
  ⟨"REGION_SEL", 0xa00060000, 1, 0x4, .master, [⟨28, 16, .rw, 0, .warm, 0, 8191⟩]⟩,
  ⟨"REGION_ENTRY", 0xa00060004, 1, 0x4, .none, [⟨31, 31, .rw, 0, .warm, 0, 1⟩, ⟨30, 30, .rw, 0, .warm, 0, 1⟩, ⟨29, 29, .rw, 0, .warm, 0, 1⟩, ⟨12, 0, .rw, 0, .warm, 0, 8191⟩]⟩,
  ⟨"REGION_SUB", 0xa00060008, 1, 0x4, .none, [⟨31, 31, .rw, 0, .warm, 0, 1⟩, ⟨30, 30, .rw, 0, .warm, 0, 1⟩, ⟨17, 0, .rw, 0, .warm, 0, 262143⟩]⟩,
  ⟨"REGION_SUBSEL", 0xa0006000c, 1, 0x4, .master, [⟨25, 16, .rw, 0, .warm, 0, 1023⟩, ⟨4, 0, .rw, 0, .warm, 0, 31⟩]⟩,
  ⟨"REGION_FAULT_LO", 0xa00060010, 1, 0x4, .none, [⟨31, 0, .ro, 0, .warm, 0, 4294967295⟩]⟩,
  ⟨"REGION_FAULT_HI", 0xa00060014, 1, 0x4, .none, [⟨7, 0, .ro, 0, .warm, 0, 255⟩]⟩,
  ⟨"REGION_FAULT_INFO", 0xa00060018, 1, 0x4, .none, [⟨31, 31, .w1c, 0, .warm, 0, 1⟩, ⟨8, 8, .w1c, 0, .warm, 0, 1⟩, ⟨7, 0, .ro, 0, .warm, 0, 255⟩]⟩]

/-- The registers of block ACCESS. -/
def regsAccess : List RegD := [
  ⟨"ACCESS_SEL", 0xa00070000, 1, 0x4, .master, [⟨23, 16, .rw, 0, .warm, 0, 255⟩, ⟨5, 0, .rw, 0, .warm, 0, 63⟩]⟩,
  ⟨"ACCESS_E0", 0xa00070004, 1, 0x4, .master, [⟨31, 31, .rw, 0, .warm, 0, 1⟩, ⟨30, 28, .rw, 0, .warm, 0, 7⟩, ⟨19, 19, .rw, 0, .warm, 0, 1⟩, ⟨18, 16, .rw, 0, .warm, 0, 7⟩, ⟨15, 8, .rw, 0, .warm, 0, 255⟩, ⟨7, 0, .rw, 0, .warm, 0, 255⟩]⟩,
  ⟨"ACCESS_E1", 0xa00070008, 1, 0x4, .master, [⟨27, 0, .rw, 0, .warm, 0, 268435455⟩]⟩,
  ⟨"ACCESS_E2", 0xa0007000c, 1, 0x4, .master, [⟨27, 0, .rw, 0, .warm, 0, 268435455⟩]⟩,
  ⟨"ACCESS_CMD", 0xa00070010, 1, 0x4, .none, [⟨2, 2, .ro, 0, .warm, 0, 1⟩, ⟨1, 1, .wo, 0, .warm, 0, 1⟩, ⟨0, 0, .wo, 0, .warm, 0, 1⟩]⟩,
  ⟨"ACCESS_DENY_INFO", 0xa00070020, 1, 0x4, .none, [⟨31, 31, .w1c, 0, .warm, 0, 1⟩, ⟨24, 24, .w1c, 0, .warm, 0, 1⟩, ⟨23, 16, .ro, 0, .warm, 0, 255⟩, ⟨15, 8, .ro, 0, .warm, 0, 255⟩, ⟨1, 0, .ro, 0, .warm, 0, 3⟩]⟩,
  ⟨"ACCESS_DENY_ADDR_LO", 0xa00070024, 1, 0x4, .none, [⟨31, 0, .ro, 0, .warm, 0, 4294967295⟩]⟩,
  ⟨"ACCESS_DENY_ADDR_HI", 0xa00070028, 1, 0x4, .none, [⟨7, 0, .ro, 0, .warm, 0, 255⟩]⟩,
  ⟨"ACCESS_DENY_COUNT", 0xa0007002c, 1, 0x4, .none, [⟨31, 0, .rc, 0, .mcr, 0, 4294967295⟩]⟩]

/-- The registers of block STREAM. -/
def regsStream : List RegD := [
  ⟨"STREAM_ENG_CTRL", 0xa00080000, 32, 0x40, .none, [⟨4, 4, .wo, 0, .warm, 0, 1⟩, ⟨3, 3, .wo, 0, .warm, 0, 1⟩, ⟨2, 2, .wo, 0, .warm, 0, 1⟩, ⟨1, 1, .wo, 0, .warm, 0, 1⟩, ⟨0, 0, .wo, 0, .warm, 0, 1⟩]⟩,
  ⟨"STREAM_ENG_STATUS", 0xa00080004, 32, 0x40, .none, [⟨31, 31, .ro, 0, .warm, 0, 1⟩, ⟨30, 28, .ro, 0, .warm, 0, 7⟩, ⟨16, 16, .w1c, 0, .warm, 0, 1⟩, ⟨11, 8, .ro, 0, .warm, 0, 15⟩, ⟨3, 0, .ro, 0, .warm, 0, 15⟩]⟩,
  ⟨"STREAM_ENG_LIST_LO", 0xa00080008, 32, 0x40, .none, [⟨31, 8, .rw, 0, .warm, 0, 16777215⟩]⟩,
  ⟨"STREAM_ENG_LIST_HI", 0xa0008000c, 32, 0x40, .none, [⟨7, 0, .rw, 0, .warm, 0, 255⟩]⟩,
  ⟨"STREAM_ENG_EP", 0xa00080010, 32, 0x40, .none, [⟨31, 30, .rw, 0, .warm, 0, 3⟩, ⟨29, 29, .rw, 0, .warm, 0, 1⟩, ⟨7, 0, .rw, 0, .warm, 0, 255⟩]⟩,
  ⟨"STREAM_ENG_EP_LO", 0xa00080014, 32, 0x40, .none, [⟨31, 0, .rw, 0, .warm, 0, 4294967295⟩]⟩,
  ⟨"STREAM_ENG_EP_HI", 0xa00080018, 32, 0x40, .none, [⟨7, 0, .rw, 0, .warm, 0, 255⟩]⟩,
  ⟨"STREAM_ENG_DESC_LO", 0xa0008001c, 32, 0x40, .none, [⟨31, 5, .ro, 0, .warm, 0, 134217727⟩]⟩,
  ⟨"STREAM_ENG_DESC_HI", 0xa00080020, 32, 0x40, .none, [⟨7, 0, .ro, 0, .warm, 0, 255⟩]⟩,
  ⟨"STREAM_ENG_POS0", 0xa00080024, 32, 0x40, .none, [⟨23, 0, .ro, 0, .warm, 0, 16777215⟩]⟩,
  ⟨"STREAM_ENG_POS12", 0xa00080028, 32, 0x40, .none, [⟨31, 16, .ro, 0, .warm, 0, 65535⟩, ⟨15, 0, .ro, 0, .warm, 0, 65535⟩]⟩,
  ⟨"STREAM_ENG_POS34", 0xa0008002c, 32, 0x40, .none, [⟨31, 16, .ro, 0, .warm, 0, 65535⟩, ⟨15, 0, .ro, 0, .warm, 0, 65535⟩]⟩,
  ⟨"STREAM_ENG_DONE_BYTES", 0xa00080030, 32, 0x40, .none, [⟨24, 0, .ro, 0, .warm, 0, 33554431⟩]⟩,
  ⟨"STREAM_MRG_CTRL", 0xa00080800, 4, 0x40, .none, [⟨4, 4, .wo, 0, .warm, 0, 1⟩, ⟨3, 3, .wo, 0, .warm, 0, 1⟩, ⟨2, 2, .wo, 0, .warm, 0, 1⟩, ⟨1, 1, .wo, 0, .warm, 0, 1⟩, ⟨0, 0, .wo, 0, .warm, 0, 1⟩]⟩,
  ⟨"STREAM_MRG_STATUS", 0xa00080804, 4, 0x40, .none, [⟨31, 31, .ro, 0, .warm, 0, 1⟩, ⟨30, 28, .ro, 0, .warm, 0, 7⟩, ⟨16, 16, .w1c, 0, .warm, 0, 1⟩, ⟨11, 8, .ro, 0, .warm, 0, 15⟩, ⟨3, 0, .ro, 0, .warm, 0, 15⟩]⟩,
  ⟨"STREAM_MRG_LIST_LO", 0xa00080808, 4, 0x40, .none, [⟨31, 8, .rw, 0, .warm, 0, 16777215⟩]⟩,
  ⟨"STREAM_MRG_LIST_HI", 0xa0008080c, 4, 0x40, .none, [⟨7, 0, .rw, 0, .warm, 0, 255⟩]⟩,
  ⟨"STREAM_MRG_CFG", 0xa00080810, 4, 0x40, .none, [⟨0, 0, .rw, 0, .warm, 0, 1⟩]⟩,
  ⟨"STREAM_MRG_DESC_LO", 0xa0008081c, 4, 0x40, .none, [⟨31, 5, .ro, 0, .warm, 0, 134217727⟩]⟩,
  ⟨"STREAM_MRG_DESC_HI", 0xa00080820, 4, 0x40, .none, [⟨7, 0, .ro, 0, .warm, 0, 255⟩]⟩,
  ⟨"STREAM_MRG_POS0", 0xa00080824, 4, 0x40, .none, [⟨23, 0, .ro, 0, .warm, 0, 16777215⟩]⟩,
  ⟨"STREAM_MRG_POS12", 0xa00080828, 4, 0x40, .none, [⟨31, 16, .ro, 0, .warm, 0, 65535⟩, ⟨15, 0, .ro, 0, .warm, 0, 65535⟩]⟩,
  ⟨"STREAM_MRG_POS34", 0xa0008082c, 4, 0x40, .none, [⟨31, 16, .ro, 0, .warm, 0, 65535⟩, ⟨15, 0, .ro, 0, .warm, 0, 65535⟩]⟩,
  ⟨"STREAM_MRG_DONE_BYTES", 0xa00080830, 4, 0x40, .none, [⟨24, 0, .ro, 0, .warm, 0, 33554431⟩]⟩,
  ⟨"STREAM_GSEL", 0xa00081000, 1, 0x4, .master, [⟨31, 30, .rw, 0, .warm, 0, 2⟩, ⟨22, 16, .rw, 0, .warm, 0, 103⟩, ⟨7, 0, .rw, 0, .warm, 0, 255⟩]⟩,
  ⟨"STREAM_GCFG", 0xa00081004, 1, 0x4, .galley, [⟨31, 31, .rw, 0, .block, 0, 1⟩, ⟨30, 30, .rw, 0, .warm, 0, 1⟩, ⟨29, 24, .rw, 0, .block, 0, 63⟩, ⟨22, 16, .rw, 0, .block, 0, 63⟩, ⟨13, 0, .rw, 0, .block, 0, 8192⟩]⟩,
  ⟨"STREAM_GSIZE", 0xa00081008, 1, 0x4, .galley, [⟨21, 16, .rw, 0, .warm, 2, 32⟩, ⟨14, 0, .rw, 0, .warm, 0, 32767⟩]⟩,
  ⟨"STREAM_GLIMIT", 0xa0008100c, 1, 0x4, .galley, [⟨15, 0, .rw, 0, .block, 4, 32768⟩]⟩,
  ⟨"STREAM_GWM", 0xa00081010, 1, 0x4, .galley, [⟨25, 16, .rw, 0, .warm, 0, 1023⟩, ⟨9, 0, .rw, 0, .warm, 0, 1023⟩]⟩,
  ⟨"STREAM_GSTAT", 0xa00081014, 1, 0x4, .galley, [⟨31, 31, .w1c, 0, .warm, 0, 1⟩, ⟨17, 17, .ro, 0, .warm, 0, 1⟩, ⟨16, 16, .ro, 0, .warm, 0, 1⟩, ⟨15, 0, .ro, 0, .warm, 0, 65535⟩]⟩,
  ⟨"STREAM_GCMD", 0xa00081018, 1, 0x4, .galley, [⟨1, 1, .wo, 0, .warm, 0, 1⟩, ⟨0, 0, .wo, 0, .warm, 0, 1⟩]⟩,
  ⟨"STREAM_GCNT_TRUNC", 0xa0008101c, 1, 0x4, .galley, [⟨31, 0, .rc, 0, .mcr, 0, 4294967295⟩]⟩,
  ⟨"STREAM_GCNT_DROP", 0xa00081020, 1, 0x4, .galley, [⟨31, 0, .rc, 0, .mcr, 0, 4294967295⟩]⟩]

/-- The registers of block NET. -/
def regsNet : List RegD := [
  ⟨"NET_CFG", 0xa00090000, 1, 0x4, .none, [⟨31, 18, .rw, 0x5ee, .cold, 1518, 9216⟩, ⟨17, 10, .rw, 0, .cold, 0, 255⟩, ⟨5, 5, .rw, 0, .cold, 0, 1⟩, ⟨4, 4, .rw, 1, .cold, 0, 1⟩, ⟨2, 0, .rw, 0, .cold, 0, 5⟩]⟩,
  ⟨"NET_STATUS", 0xa00090004, 1, 0x4, .none, [⟨7, 4, .ro, 0, .cold, 0, 15⟩, ⟨3, 0, .ro, 0, .cold, 0, 15⟩]⟩,
  ⟨"NET_ADDR_SEL", 0xa00090010, 1, 0x4, .master, [⟨1, 0, .rw, 0, .cold, 0, 3⟩]⟩,
  ⟨"NET_MAC_LO", 0xa00090014, 1, 0x4, .link, [⟨31, 0, .rw, 0, .cold, 0, 4294967295⟩]⟩,
  ⟨"NET_MAC_HI", 0xa00090018, 1, 0x4, .link, [⟨15, 0, .rw, 0, .cold, 0, 65535⟩]⟩,
  ⟨"NET_IP4", 0xa0009001c, 1, 0x4, .link, [⟨31, 0, .rw, 0, .cold, 0, 4294967295⟩]⟩,
  ⟨"NET_IP6", 0xa00090020, 4, 0x4, .link, [⟨31, 0, .rw, 0, .cold, 0, 4294967295⟩]⟩,
  ⟨"NET_PTP_RXQ", 0xa00090040, 1, 0x4, .none, [⟨31, 31, .wo, 0, .warm, 0, 1⟩, ⟨22, 16, .ro, 0, .warm, 0, 127⟩, ⟨5, 0, .ro, 0, .warm, 0, 63⟩]⟩,
  ⟨"NET_PTP_TX_CTRL", 0xa00090044, 1, 0x4, .none, [⟨31, 31, .wo, 0, .warm, 0, 1⟩, ⟨30, 30, .ro, 0, .warm, 0, 1⟩, ⟨29, 29, .w1c, 0, .warm, 0, 1⟩, ⟨17, 16, .rw, 0, .warm, 0, 3⟩, ⟨8, 0, .rw, 0, .warm, 60, 256⟩]⟩,
  ⟨"NET_PTP_TX_TS_LO", 0xa00090048, 1, 0x4, .none, [⟨31, 0, .ro, 0, .warm, 0, 4294967295⟩]⟩,
  ⟨"NET_PTP_TX_TS_HI", 0xa0009004c, 1, 0x4, .none, [⟨31, 0, .ro, 0, .warm, 0, 4294967295⟩]⟩,
  ⟨"NET_RES_SEL", 0xa00090060, 1, 0x4, .master, [⟨7, 0, .rw, 0, .warm, 0, 255⟩]⟩,
  ⟨"NET_RES_CFG", 0xa00090064, 1, 0x4, .netRes, [⟨31, 31, .rw, 0, .cold, 0, 1⟩, ⟨30, 30, .rw, 0, .cold, 0, 1⟩, ⟨29, 29, .rw, 0, .cold, 0, 1⟩, ⟨25, 24, .rw, 0, .cold, 0, 3⟩, ⟨21, 16, .rw, 0, .cold, 0, 63⟩, ⟨11, 0, .rw, 0, .cold, 0, 4095⟩]⟩,
  ⟨"NET_RES_DMAC_LO", 0xa00090068, 1, 0x4, .netRes, [⟨31, 0, .rw, 0, .cold, 0, 4294967295⟩]⟩,
  ⟨"NET_RES_DMAC_HI", 0xa0009006c, 1, 0x4, .netRes, [⟨15, 0, .rw, 0, .cold, 0, 65535⟩]⟩,
  ⟨"NET_RES_DIP", 0xa00090070, 4, 0x4, .netRes, [⟨31, 0, .rw, 0, .cold, 0, 4294967295⟩]⟩,
  ⟨"NET_RES_PORTS", 0xa00090080, 1, 0x4, .netRes, [⟨31, 16, .rw, 0, .cold, 0, 65535⟩, ⟨15, 0, .rw, 0, .cold, 0, 65535⟩]⟩,
  ⟨"NET_DROP", 0xa00090100, 16, 0x4, .none, [⟨31, 0, .rc, 0, .mcr, 0, 4294967295⟩]⟩,
  ⟨"NET_PTP_RXE", 0xa00098000, 4096, 0x4, .none, [⟨31, 0, .ro, 0, .warm, 0, 4294967295⟩]⟩,
  ⟨"NET_PTP_TXB", 0xa0009c000, 64, 0x4, .none, [⟨31, 0, .rw, 0, .warm, 0, 4294967295⟩]⟩]

/-- The registers of block NET0. -/
def regsNet0 : List RegD := [
  ⟨"NET_CTX_SEL", 0xa00091000, 1, 0x4, .master, [⟨11, 0, .rw, 0, .warm, 0, 4095⟩]⟩,
  ⟨"NET_CTX_CFG", 0xa00091004, 1, 0x4, .ictx, [⟨31, 31, .rw, 0, .warm, 0, 1⟩, ⟨30, 30, .rw, 0, .warm, 0, 1⟩, ⟨29, 29, .rw, 0, .warm, 0, 1⟩, ⟨28, 28, .rw, 0, .warm, 0, 1⟩, ⟨27, 27, .rw, 0, .warm, 0, 1⟩, ⟨26, 26, .rw, 0, .warm, 0, 1⟩, ⟨25, 24, .rw, 0, .warm, 0, 2⟩, ⟨23, 23, .rw, 0, .warm, 0, 1⟩, ⟨22, 21, .rw, 0, .warm, 0, 3⟩, ⟨20, 14, .rw, 0, .warm, 0, 127⟩, ⟨11, 0, .rw, 0, .warm, 0, 4095⟩]⟩,
  ⟨"NET_CTX_UDP", 0xa00091008, 1, 0x4, .ictx, [⟨15, 0, .rw, 0, .warm, 0, 65535⟩]⟩,
  ⟨"NET_CTX_SSRC", 0xa0009100c, 1, 0x4, .ictx, [⟨31, 0, .rw, 0, .warm, 0, 4294967295⟩]⟩,
  ⟨"NET_CTX_GROUP", 0xa00091010, 4, 0x4, .ictx, [⟨31, 0, .rw, 0, .warm, 0, 4294967295⟩]⟩,
  ⟨"NET_CTX_JB", 0xa00091020, 1, 0x4, .ictx, [⟨27, 16, .rw, 0x32, .warm, 1, 4095⟩, ⟨15, 0, .rw, 0x10, .warm, 1, 256⟩]⟩,
  ⟨"NET_CTX_DEC", 0xa00091024, 1, 0x4, .ictx, [⟨31, 28, .rw, 0, .warm, 0, 15⟩, ⟨27, 23, .rw, 4, .warm, 1, 16⟩, ⟨17, 0, .rw, 0, .warm, 1, 250000⟩]⟩,
  ⟨"NET_CTX_RAW", 0xa00091028, 1, 0x4, .ictx, [⟨31, 16, .rw, 0, .warm, 2, 4096⟩, ⟨15, 0, .rw, 0, .warm, 2, 4096⟩]⟩,
  ⟨"NET_CTX_RAW_FMT", 0xa0009102c, 1, 0x4, .ictx, [⟨2, 0, .rw, 0, .warm, 0, 4⟩]⟩,
  ⟨"NET_CTX_CROP_XY", 0xa00091030, 1, 0x4, .ictx, [⟨31, 16, .rw, 0, .warm, 0, 65535⟩, ⟨15, 0, .rw, 0, .warm, 0, 65535⟩]⟩,
  ⟨"NET_CTX_CROP_WH", 0xa00091034, 1, 0x4, .ictx, [⟨31, 16, .rw, 0, .warm, 2, 4096⟩, ⟨15, 0, .rw, 0, .warm, 2, 4096⟩]⟩,
  ⟨"NET_CTX_OUT", 0xa00091038, 1, 0x4, .ictx, [⟨31, 16, .rw, 0, .warm, 2, 4096⟩, ⟨15, 0, .rw, 0, .warm, 2, 4096⟩]⟩,
  ⟨"NET_CTX_PIC", 0xa0009103c, 1, 0x4, .ictx, [⟨18, 16, .rw, 0, .warm, 0, 7⟩, ⟨11, 8, .rw, 0, .warm, 0, 15⟩, ⟨5, 4, .rw, 1, .warm, 0, 3⟩, ⟨1, 0, .rw, 0, .warm, 0, 3⟩]⟩,
  ⟨"NET_CTX_STATE", 0xa00091040, 1, 0x4, .ictx, [⟨1, 0, .ro, 0, .warm, 0, 3⟩]⟩,
  ⟨"NET_CTX_CNT", 0xa00091080, 7, 0x4, .ictx, [⟨31, 0, .rc, 0, .mcr, 0, 4294967295⟩]⟩]

/-- The registers of block VDEC. -/
def regsVdec : List RegD := [
  ⟨"VDEC_LOAD", 0xa000b0000, 16, 0x4, .none, [⟨17, 0, .ro, 0, .warm, 0, 262143⟩]⟩,
  ⟨"VDEC_BUSY", 0xa000b0040, 1, 0x4, .none, [⟨15, 0, .ro, 0, .warm, 0, 65535⟩]⟩]

/-- The registers of block SPORT. -/
def regsSport : List RegD := [
  ⟨"SPORT_CFG", 0xa000c0000, 1, 0x4, .none, [⟨31, 31, .rw, 0, .warm, 0, 1⟩, ⟨23, 8, .rw, 0x64, .warm, 1, 65535⟩, ⟨1, 0, .rw, 2, .warm, 0, 2⟩]⟩,
  ⟨"SPORT_STATUS", 0xa000c0004, 1, 0x4, .none, [⟨7, 7, .w1c, 0, .warm, 0, 1⟩, ⟨6, 6, .ro, 0, .warm, 0, 1⟩, ⟨5, 5, .ro, 1, .warm, 0, 1⟩, ⟨4, 4, .ro, 0, .warm, 0, 1⟩, ⟨3, 0, .ro, 0, .warm, 0, 15⟩]⟩,
  ⟨"SPORT_CH", 0xa000c0010, 16, 0x4, .none, [⟨31, 31, .rw, 0, .warm, 0, 1⟩, ⟨30, 30, .rw, 0, .warm, 0, 1⟩, ⟨10, 8, .rw, 0, .warm, 0, 7⟩, ⟨3, 0, .rw, 0, .warm, 0, 15⟩]⟩,
  ⟨"SPORT_EGR", 0xa000c0050, 1, 0x4, .none, [⟨15, 0, .rw, 0x3e8, .warm, 1, 65535⟩]⟩,
  ⟨"SPORT_RES_SEL", 0xa000c0054, 1, 0x4, .master, [⟨7, 0, .rw, 0, .warm, 0, 255⟩]⟩,
  ⟨"SPORT_RES_CFG", 0xa000c0058, 1, 0x4, .spRes, [⟨31, 31, .rw, 0, .warm, 0, 1⟩, ⟨3, 0, .rw, 0, .warm, 0, 15⟩]⟩,
  ⟨"SPORT_CNT", 0xa000c0080, 7, 0x4, .none, [⟨31, 0, .rc, 0, .mcr, 0, 4294967295⟩]⟩]

/-- The registers of block BURL. -/
def regsBurl : List RegD := [
  ⟨"BURL_CTRL", 0xa000d0000, 1, 0x4, .none, [⟨4, 4, .rw, 0, .warm, 0, 1⟩, ⟨3, 3, .wo, 0, .warm, 0, 1⟩, ⟨2, 2, .wo, 0, .warm, 0, 1⟩, ⟨1, 1, .wo, 0, .warm, 0, 1⟩]⟩,
  ⟨"BURL_STATUS", 0xa000d0004, 1, 0x4, .none, [⟨23, 16, .ro, 0, .warm, 0, 255⟩, ⟨15, 8, .ro, 0, .warm, 0, 255⟩, ⟨2, 0, .ro, 0, .warm, 0, 7⟩]⟩,
  ⟨"BURL_IMAGE_LO", 0xa000d0008, 1, 0x4, .none, [⟨31, 6, .rw, 0, .warm, 0, 67108863⟩]⟩,
  ⟨"BURL_IMAGE_HI", 0xa000d000c, 1, 0x4, .none, [⟨7, 0, .rw, 0, .warm, 0, 255⟩]⟩,
  ⟨"BURL_SOFT", 0xa000d0020, 1, 0x4, .none, [⟨15, 0, .rw, 0, .warm, 0, 65535⟩]⟩,
  ⟨"BURL_CAPTURE", 0xa000d0024, 1, 0x4, .none, [⟨31, 31, .wo, 0, .warm, 0, 1⟩, ⟨30, 30, .w1c, 0, .warm, 0, 1⟩, ⟨29, 29, .ro, 0, .warm, 0, 1⟩, ⟨25, 24, .rw, 0, .warm, 0, 3⟩, ⟨23, 23, .rw, 0, .warm, 0, 1⟩, ⟨19, 10, .rw, 0, .warm, 0, 1023⟩, ⟨9, 0, .rw, 1, .warm, 0, 1023⟩]⟩,
  ⟨"BURL_WTAP", 0xa000d0040, 8, 0x4, .none, [⟨31, 31, .rw, 0, .warm, 0, 1⟩, ⟨25, 24, .rw, 0, .warm, 0, 3⟩, ⟨21, 20, .rw, 0, .warm, 0, 3⟩, ⟨11, 0, .rw, 0, .warm, 0, 4095⟩]⟩,
  ⟨"BURL_QSEL", 0xa000d0080, 1, 0x4, .master, [⟨2, 0, .rw, 0, .warm, 0, 7⟩]⟩,
  ⟨"BURL_QCFG", 0xa000d0084, 1, 0x4, .queue, [⟨31, 31, .rw, 0, .warm, 0, 1⟩, ⟨30, 28, .rw, 0, .warm, 0, 3⟩, ⟨27, 26, .rw, 0, .warm, 0, 3⟩, ⟨25, 24, .rw, 0, .warm, 0, 3⟩, ⟨19, 16, .rw, 0, .warm, 0, 15⟩, ⟨11, 0, .rw, 0, .warm, 0, 4095⟩]⟩,
  ⟨"BURL_QWM", 0xa000d0088, 1, 0x4, .queue, [⟨28, 16, .rw, 0xfff, .warm, 1, 4096⟩, ⟨11, 0, .rw, 0, .warm, 0, 4095⟩]⟩,
  ⟨"BURL_QSTAT", 0xa000d008c, 1, 0x4, .queue, [⟨31, 31, .ro, 0, .warm, 0, 1⟩, ⟨12, 0, .ro, 0, .warm, 0, 8191⟩]⟩,
  ⟨"BURL_QDROP", 0xa000d0090, 1, 0x4, .queue, [⟨31, 0, .rc, 0, .mcr, 0, 4294967295⟩]⟩,
  ⟨"BURL_BRIDGE_TIMEOUT", 0xa000d0094, 1, 0x4, .none, [⟨15, 0, .rw, 0x3e8, .warm, 1, 65535⟩]⟩,
  ⟨"BURL_IO", 0xa000d0100, 32, 0x4, .none, [⟨31, 30, .rw, 2, .warm, 0, 2⟩, ⟨29, 29, .rw, 0, .warm, 0, 1⟩, ⟨28, 27, .rw, 1, .warm, 0, 2⟩, ⟨26, 25, .rw, 0, .warm, 0, 2⟩, ⟨23, 22, .rw, 0, .warm, 0, 2⟩, ⟨21, 14, .rw, 0, .warm, 0, 255⟩, ⟨13, 13, .rw, 0, .warm, 0, 1⟩]⟩,
  ⟨"BURL_IOIN", 0xa000d0180, 1, 0x4, .none, [⟨31, 0, .ro, 0, .warm, 0, 4294967295⟩]⟩,
  ⟨"BURL_CAP_DATA", 0xa000d0400, 32, 0x4, .none, [⟨31, 0, .ro, 0, .warm, 0, 4294967295⟩]⟩]

/-- The registers of block USB. -/
def regsUsb : List RegD := [
  ⟨"USB_STATUS", 0xa000e0000, 1, 0x4, .none, [⟨31, 31, .ro, 0, .warm, 0, 1⟩, ⟨18, 16, .ro, 0, .cold, 0, 7⟩, ⟨8, 8, .ro, 0, .cold, 0, 1⟩, ⟨0, 0, .ro, 0, .cold, 0, 1⟩]⟩,
  ⟨"USB_CTRL", 0xa000e0004, 1, 0x4, .none, [⟨1, 0, .rw, 0, .cold, 0, 3⟩]⟩,
  ⟨"USB_BUS_RESETS", 0xa000e0008, 1, 0x4, .none, [⟨31, 0, .rc, 0, .mcr, 0, 4294967295⟩]⟩]

/-- The registers of block MGMT. -/
def regsMgmt : List RegD := [
  ⟨"MGMT_CFG", 0xa000f0000, 1, 0x4, .none, [⟨1, 1, .rw, 0, .cold, 0, 1⟩, ⟨0, 0, .rw, 0, .cold, 0, 1⟩]⟩,
  ⟨"MGMT_STATUS", 0xa000f0004, 1, 0x4, .none, [⟨31, 31, .ro, 0, .cold, 0, 1⟩, ⟨17, 16, .ro, 0, .cold, 0, 3⟩, ⟨8, 8, .ro, 0, .cold, 0, 1⟩, ⟨0, 0, .ro, 0, .warm, 0, 1⟩]⟩,
  ⟨"MGMT_IP4", 0xa000f0008, 1, 0x4, .none, [⟨31, 0, .rw, 0, .cold, 0, 4294967295⟩]⟩,
  ⟨"MGMT_MASK", 0xa000f000c, 1, 0x4, .none, [⟨31, 0, .rw, 0, .cold, 0, 4294967295⟩]⟩,
  ⟨"MGMT_GW", 0xa000f0010, 1, 0x4, .none, [⟨31, 0, .rw, 0, .cold, 0, 4294967295⟩]⟩,
  ⟨"MGMT_MAC_LO", 0xa000f0014, 1, 0x4, .none, [⟨31, 0, .ro, 0, .fixed, 0, 4294967295⟩]⟩,
  ⟨"MGMT_MAC_HI", 0xa000f0018, 1, 0x4, .none, [⟨15, 0, .ro, 0, .fixed, 0, 65535⟩]⟩,
  ⟨"MGMT_DROP", 0xa000f001c, 1, 0x4, .none, [⟨31, 0, .rc, 0, .mcr, 0, 4294967295⟩]⟩]

/-- The registers of block FW. -/
def regsFw : List RegD := [
  ⟨"FW_STATUS", 0xa00100000, 1, 0x4, .none, [⟨31, 31, .ro, 0, .cold, 0, 1⟩, ⟨25, 24, .ro, 0, .warm, 0, 3⟩, ⟨19, 16, .ro, 0, .warm, 0, 15⟩]⟩,
  ⟨"FW_ROLE", 0xa00100004, 1, 0x4, .none, [⟨18, 16, .ro, 4, .cold, 0, 7⟩, ⟨14, 12, .ro, 3, .cold, 0, 7⟩, ⟨10, 8, .ro, 2, .cold, 0, 7⟩, ⟨6, 4, .ro, 1, .cold, 0, 7⟩, ⟨2, 0, .ro, 0, .cold, 0, 7⟩]⟩,
  ⟨"FW_VERSION_RUN", 0xa00100008, 1, 0x4, .none, [⟨31, 0, .ro, 0, .warm, 0, 4294967295⟩]⟩,
  ⟨"FW_IF_VERSION", 0xa0010000c, 1, 0x4, .none, [⟨31, 0, .ro, 0, .warm, 0, 4294967295⟩]⟩,
  ⟨"FW_UPDATE_ADDR_LO", 0xa00100010, 1, 0x4, .none, [⟨31, 8, .rw, 0, .warm, 0, 16777215⟩]⟩,
  ⟨"FW_UPDATE_ADDR_HI", 0xa00100014, 1, 0x4, .none, [⟨7, 0, .rw, 0, .warm, 0, 255⟩]⟩,
  ⟨"FW_UPDATE_CTRL", 0xa00100018, 1, 0x4, .none, [⟨31, 31, .wo, 0, .warm, 0, 1⟩, ⟨27, 24, .ro, 0, .warm, 0, 15⟩, ⟨19, 16, .ro, 0, .warm, 0, 15⟩, ⟨0, 0, .ro, 0, .warm, 0, 1⟩]⟩,
  ⟨"FW_CTRL", 0xa0010001c, 1, 0x4, .none, [⟨1, 1, .wo, 0, .warm, 0, 1⟩, ⟨0, 0, .wo, 0, .warm, 0, 1⟩]⟩,
  ⟨"FW_LOG_HEAD", 0xa00100020, 1, 0x4, .none, [⟨20, 0, .ro, 0, .por, 0, 2097151⟩]⟩,
  ⟨"FW_TRACE_MASK", 0xa00100040, 8, 0x4, .none, [⟨31, 0, .rw, 0, .warm, 0, 4294967295⟩]⟩,
  ⟨"FW_MC_RESTARTS", 0xa00100060, 1, 0x4, .none, [⟨31, 0, .rc, 0, .cold, 0, 4294967295⟩]⟩]

/-- The registers of block SEC. -/
def regsSec : List RegD := [
  ⟨"SEC_LIFECYCLE", 0xa00110000, 1, 0x4, .none, [⟨14, 8, .ro, 0, .fixed, 0, 127⟩, ⟨0, 0, .ro, 0, .fixed, 0, 1⟩]⟩,
  ⟨"SEC_UID", 0xa00110010, 4, 0x4, .none, [⟨31, 0, .ro, 0, .fixed, 0, 4294967295⟩]⟩,
  ⟨"SEC_IDKEY", 0xa00110020, 8, 0x4, .none, [⟨31, 0, .ro, 0, .cold, 0, 4294967295⟩]⟩,
  ⟨"SEC_FW_DIGEST", 0xa00110040, 8, 0x4, .none, [⟨31, 0, .ro, 0, .cold, 0, 4294967295⟩]⟩,
  ⟨"SEC_DEBUG_CTRL", 0xa00110080, 1, 0x4, .none, [⟨0, 0, .wo, 0, .cold, 0, 1⟩]⟩,
  ⟨"SEC_DEBUG_STATUS", 0xa00110084, 1, 0x4, .none, [⟨31, 31, .ro, 0, .cold, 0, 1⟩, ⟨11, 8, .ro, 0, .cold, 0, 15⟩, ⟨1, 0, .ro, 0, .cold, 0, 3⟩]⟩,
  ⟨"SEC_DEBUG_ADDR_LO", 0xa00110088, 1, 0x4, .none, [⟨31, 6, .rw, 0, .warm, 0, 67108863⟩]⟩,
  ⟨"SEC_DEBUG_ADDR_HI", 0xa0011008c, 1, 0x4, .none, [⟨7, 0, .rw, 0, .warm, 0, 255⟩]⟩,
  ⟨"SEC_DEBUG_NONCE", 0xa00110090, 4, 0x4, .none, [⟨31, 0, .ro, 0, .cold, 0, 4294967295⟩]⟩,
  ⟨"SEC_ATTEST_CTRL", 0xa001100c0, 1, 0x4, .none, [⟨31, 31, .wo, 0, .warm, 0, 1⟩, ⟨2, 1, .ro, 0, .warm, 0, 3⟩, ⟨0, 0, .ro, 0, .warm, 0, 1⟩]⟩,
  ⟨"SEC_ATTEST_ADDR_LO", 0xa001100c4, 1, 0x4, .none, [⟨31, 6, .rw, 0, .warm, 0, 67108863⟩]⟩,
  ⟨"SEC_ATTEST_ADDR_HI", 0xa001100c8, 1, 0x4, .none, [⟨7, 0, .rw, 0, .warm, 0, 255⟩]⟩,
  ⟨"SEC_ATTEST_NONCE", 0xa001100d0, 8, 0x4, .none, [⟨31, 0, .rw, 0, .warm, 0, 4294967295⟩]⟩]

/-- The registers of block BIST. -/
def regsBist : List RegD := [
  ⟨"BIST_UNIT_SEL", 0xa00120000, 1, 0x4, .master, [⟨7, 0, .rw, 0, .warm, 0, 132⟩]⟩,
  ⟨"BIST_UNIT", 0xa00120004, 1, 0x4, .none, [⟨7, 2, .ro, 0, .cold, 0, 63⟩, ⟨1, 0, .ro, 0, .cold, 0, 3⟩]⟩,
  ⟨"BIST_ACTIVE", 0xa00120008, 1, 0x4, .none, [⟨3, 0, .ro, 0, .warm, 0, 15⟩]⟩,
  ⟨"BIST_FAILS", 0xa0012000c, 1, 0x4, .none, [⟨31, 0, .rc, 0, .mcr, 0, 4294967295⟩]⟩]

/-- The registers of block PWR. -/
def regsPwr : List RegD := [
  ⟨"PWR_BUDGET", 0xa00130000, 1, 0x4, .none, [⟨11, 0, .rw, 0xaf0, .warm, 400, 2800⟩]⟩,
  ⟨"PWR_COMMITTED", 0xa00130004, 1, 0x4, .none, [⟨11, 0, .ro, 0x50, .warm, 0, 4095⟩]⟩,
  ⟨"PWR_CTRL", 0xa00130008, 1, 0x4, .none, [⟨3, 3, .wo, 0, .warm, 0, 1⟩, ⟨2, 2, .wo, 0, .warm, 0, 1⟩, ⟨1, 1, .wo, 0, .warm, 0, 1⟩]⟩,
  ⟨"PWR_STATUS", 0xa0013000c, 1, 0x4, .none, [⟨9, 9, .ro, 0, .cold, 0, 1⟩, ⟨8, 8, .ro, 0, .cold, 0, 1⟩, ⟨2, 0, .ro, 0, .warm, 0, 7⟩]⟩,
  ⟨"PWR_DOMAIN", 0xa00130010, 4, 0x4, .none, [⟨31, 0, .ro, 0, .warm, 0, 4294967295⟩]⟩,
  ⟨"PWR_BLOCK_RESET", 0xa00130020, 1, 0x4, .none, [⟨6, 0, .wo, 0, .warm, 0, 127⟩]⟩,
  ⟨"PWR_SLOT_PARK", 0xa00130024, 1, 0x4, .none, [⟨7, 0, .rw, 0, .warm, 0, 255⟩]⟩,
  ⟨"PWR_TRIP", 0xa00130028, 1, 0x4, .none, [⟨31, 31, .rw, 1, .cold, 0, 1⟩, ⟨23, 16, .rw, 0x73, .cold, 110, 120⟩, ⟨11, 0, .rw, 0xb4, .cold, 20, 250⟩]⟩,
  ⟨"PWR_PMBUS", 0xa00130030, 1, 0x4, .none, [⟨22, 16, .rw, 0x40, .cold, 8, 119⟩]⟩,
  ⟨"PWR_IOUT", 0xa00130034, 1, 0x4, .none, [⟨27, 24, .ro, 0, .warm, 0, 15⟩, ⟨15, 0, .ro, 0, .warm, 0, 65535⟩]⟩]

/-- The registers of block CTX. -/
def regsCtx : List RegD := [
  ⟨"CTX_SEL", 0xa00140000, 1, 0x4, .master, [⟨11, 0, .rw, 0, .warm, 0, 4095⟩]⟩,
  ⟨"CTX_BIND0", 0xa00140004, 1, 0x4, .ctx, [⟨31, 31, .rw, 0, .warm, 0, 1⟩, ⟨30, 28, .rw, 0, .warm, 0, 7⟩, ⟨26, 24, .rw, 0, .warm, 0, 7⟩, ⟨21, 20, .rw, 0, .warm, 0, 2⟩, ⟨7, 0, .rw, 0, .warm, 0, 255⟩]⟩,
  ⟨"CTX_BIND1", 0xa00140008, 1, 0x4, .ctx, [⟨31, 0, .rw, 0, .warm, 0, 1000000⟩]⟩,
  ⟨"CTX_STEER", 0xa0014000c, 1, 0x4, .ctx, [⟨31, 0, .rw, 0, .warm, 0, 4294967295⟩]⟩,
  ⟨"CTX_CMD", 0xa00140010, 1, 0x4, .ctx, [⟨3, 3, .wo, 0, .warm, 0, 1⟩, ⟨2, 2, .wo, 0, .warm, 0, 1⟩, ⟨1, 1, .wo, 0, .warm, 0, 1⟩, ⟨0, 0, .wo, 0, .warm, 0, 1⟩]⟩,
  ⟨"CTX_STATUS", 0xa00140014, 1, 0x4, .ctx, [⟨29, 28, .ro, 0, .warm, 0, 3⟩, ⟨27, 16, .ro, 0, .warm, 0, 4095⟩, ⟨15, 0, .ro, 0, .warm, 0, 65535⟩]⟩,
  ⟨"CTX_IN_QUOIN", 0xa00140018, 1, 0x4, .ctx, [⟨16, 0, .ro, 0, .warm, 0, 131071⟩]⟩,
  ⟨"CTX_FREE_QUOIN", 0xa0014001c, 1, 0x4, .ctx, [⟨16, 0, .ro, 0, .warm, 0, 131071⟩]⟩,
  ⟨"CTX_PICBASE_LO", 0xa00140020, 1, 0x4, .ctx, [⟨31, 16, .ro, 0, .warm, 0, 65535⟩]⟩,
  ⟨"CTX_PICBASE_HI", 0xa00140024, 1, 0x4, .ctx, [⟨7, 0, .ro, 0, .warm, 0, 255⟩]⟩,
  ⟨"CTX_RES_SEL", 0xa00140040, 1, 0x4, .master, [⟨7, 0, .rw, 0, .warm, 0, 255⟩]⟩,
  ⟨"CTX_RES_CFG", 0xa00140044, 1, 0x4, .ctxRes, [⟨31, 31, .rw, 0, .warm, 0, 1⟩, ⟨1, 0, .rw, 3, .warm, 0, 3⟩]⟩,
  ⟨"CTX_RES_DROPPED", 0xa00140048, 1, 0x4, .ctxRes, [⟨31, 0, .rc, 0, .mcr, 0, 4294967295⟩]⟩]

/-- The registers of block LOAD. -/
def regsLoad : List RegD := [
  ⟨"LOAD_IMAGE_LO", 0xa00150000, 1, 0x4, .none, [⟨31, 8, .rw, 0, .warm, 0, 16777215⟩]⟩,
  ⟨"LOAD_IMAGE_HI", 0xa00150004, 1, 0x4, .none, [⟨7, 0, .rw, 0, .warm, 0, 3⟩]⟩,
  ⟨"LOAD_CTRL", 0xa00150008, 1, 0x4, .none, [⟨17, 17, .wo, 0, .warm, 0, 1⟩, ⟨16, 16, .wo, 0, .warm, 0, 1⟩, ⟨12, 12, .rw, 0, .warm, 0, 1⟩, ⟨11, 11, .rw, 0, .warm, 0, 1⟩, ⟨10, 4, .rw, 0, .warm, 0, 104⟩, ⟨2, 0, .rw, 0, .warm, 0, 7⟩]⟩,
  ⟨"LOAD_STATUS", 0xa0015000c, 1, 0x4, .none, [⟨11, 8, .ro, 0, .warm, 0, 15⟩, ⟨2, 2, .w1c, 0, .warm, 0, 1⟩, ⟨1, 1, .w1c, 0, .warm, 0, 1⟩, ⟨0, 0, .ro, 0, .warm, 0, 1⟩]⟩,
  ⟨"LOAD_SLOT_STATE", 0xa00150010, 1, 0x4, .none, [⟨31, 0, .ro, 0, .warm, 0, 4294967295⟩]⟩,
  ⟨"LOAD_TILE_MAP", 0xa00150020, 4, 0x4, .none, [⟨31, 0, .ro, 0, .warm, 0, 4294967295⟩]⟩,
  ⟨"LOAD_SW_SEL", 0xa00150100, 1, 0x4, .none, [⟨22, 16, .rw, 0, .warm, 0, 103⟩, ⟨7, 0, .rw, 0, .warm, 0, 255⟩]⟩,
  ⟨"LOAD_SW_DATA", 0xa00150104, 1, 0x4, .none, [⟨31, 0, .ro, 0, .warm, 0, 4294967295⟩]⟩,
  ⟨"LOAD_MC_LAG_LIMIT", 0xa00150108, 1, 0x4, .none, [⟨7, 0, .rw, 8, .warm, 1, 255⟩]⟩,
  ⟨"LOAD_WDOG_PERIOD", 0xa0015010c, 1, 0x4, .none, [⟨15, 0, .rw, 0x3e8, .warm, 1, 65535⟩]⟩,
  ⟨"LOAD_SNAP_LO", 0xa00150110, 1, 0x4, .none, [⟨31, 6, .rw, 0, .warm, 0, 67108863⟩]⟩,
  ⟨"LOAD_SNAP_HI", 0xa00150114, 1, 0x4, .none, [⟨7, 0, .rw, 0, .warm, 0, 3⟩]⟩,
  ⟨"LOAD_FAB_PARITY", 0xa00150118, 1, 0x4, .none, [⟨31, 0, .rc, 0, .mcr, 0, 4294967295⟩]⟩,
  ⟨"LOAD_FE_ROLE", 0xa00150200, 1, 0x4, .none, [⟨9, 8, .ro, 2, .cold, 0, 3⟩, ⟨5, 4, .ro, 1, .cold, 0, 3⟩, ⟨1, 0, .ro, 0, .cold, 0, 3⟩]⟩,
  ⟨"LOAD_FE_STATUS", 0xa00150204, 1, 0x4, .none, [⟨10, 8, .ro, 0, .cold, 0, 7⟩, ⟨2, 0, .ro, 0, .warm, 0, 7⟩]⟩,
  ⟨"LOAD_FE_FIRINGS", 0xa00150208, 3, 0x4, .none, [⟨31, 0, .ro, 0, .mcr, 0, 4294967295⟩]⟩,
  ⟨"LOAD_IMP_STATUS", 0xa00150300, 8, 0x4, .none, [⟨31, 31, .ro, 0, .warm, 0, 1⟩, ⟨26, 24, .ro, 0, .warm, 0, 7⟩, ⟨22, 16, .ro, 0, .warm, 0, 127⟩, ⟨15, 8, .ro, 0, .warm, 0, 255⟩, ⟨7, 0, .ro, 0, .warm, 0, 255⟩]⟩,
  ⟨"LOAD_IMP_ROUNDS", 0xa00150320, 8, 0x4, .none, [⟨31, 0, .ro, 0, .mcr, 0, 4294967295⟩]⟩,
  ⟨"LOAD_IMP_CTRL", 0xa00150340, 1, 0x4, .none, [⟨3, 3, .rw, 0, .warm, 0, 1⟩, ⟨2, 0, .rw, 0, .warm, 0, 7⟩]⟩,
  ⟨"LOAD_IMP_SCAN_LO", 0xa00150344, 1, 0x4, .none, [⟨31, 6, .rw, 0, .warm, 0, 67108863⟩]⟩,
  ⟨"LOAD_IMP_SCAN_HI", 0xa00150348, 1, 0x4, .none, [⟨7, 0, .rw, 0, .warm, 0, 3⟩]⟩]

/-- The registers of block TILE. -/
def regsTile : List RegD := [
  ⟨"TILE_STATUS", 0x9001f0000, 1, 0x4, .none, [⟨27, 16, .ro, 0, .block, 0, 4095⟩, ⟨15, 12, .ro, 0xf, .block, 0, 15⟩, ⟨11, 11, .ro, 0, .block, 0, 1⟩, ⟨3, 0, .ro, 0, .block, 0, 15⟩]⟩,
  ⟨"TILE_CTRL", 0x9001f0004, 1, 0x4, .none, [⟨3, 3, .wo, 0, .block, 0, 1⟩, ⟨2, 2, .wo, 0, .block, 0, 1⟩, ⟨1, 1, .wo, 0, .block, 0, 1⟩, ⟨0, 0, .wo, 0, .block, 0, 1⟩]⟩,
  ⟨"TILE_CFG", 0x9001f0008, 1, 0x4, .none, [⟨27, 16, .rw, 0, .block, 0, 4095⟩, ⟨15, 12, .rw, 0, .block, 0, 7⟩, ⟨11, 11, .rw, 0, .block, 0, 1⟩, ⟨2, 2, .rw, 0, .block, 0, 1⟩, ⟨1, 0, .rw, 2, .block, 1, 2⟩]⟩,
  ⟨"TILE_FAULT", 0x9001f000c, 1, 0x4, .none, [⟨31, 31, .w1c, 0, .block, 0, 1⟩, ⟨8, 8, .w1c, 0, .block, 0, 1⟩, ⟨7, 0, .ro, 0, .block, 0, 255⟩]⟩,
  ⟨"TILE_FAULT_PC", 0x9001f0010, 1, 0x4, .none, [⟨11, 0, .ro, 0, .block, 0, 4095⟩]⟩,
  ⟨"TILE_FAULT_ADDR", 0x9001f0014, 1, 0x4, .none, [⟨31, 31, .ro, 0, .block, 0, 1⟩, ⟨30, 30, .ro, 0, .block, 0, 1⟩, ⟨29, 29, .ro, 0, .block, 0, 1⟩, ⟨21, 0, .ro, 0, .block, 0, 4194303⟩]⟩,
  ⟨"TILE_FIRINGS", 0x9001f0020, 1, 0x4, .none, [⟨31, 0, .ro, 0, .mcr, 0, 4294967295⟩]⟩,
  ⟨"TILE_STALL_IN", 0x9001f0024, 1, 0x4, .none, [⟨31, 0, .ro, 0, .mcr, 0, 4294967295⟩]⟩,
  ⟨"TILE_STALL_OUT", 0x9001f0028, 1, 0x4, .none, [⟨31, 0, .ro, 0, .mcr, 0, 4294967295⟩]⟩,
  ⟨"TILE_GCFG", 0x9001f0040, 12, 0x4, .none, [⟨31, 31, .rw, 0, .block, 0, 1⟩, ⟨30, 30, .rw, 0, .block, 0, 1⟩, ⟨29, 24, .rw, 0, .block, 0, 63⟩, ⟨21, 16, .rw, 0, .block, 2, 32⟩, ⟨13, 8, .rw, 0, .block, 0, 62⟩]⟩,
  ⟨"TILE_GRING", 0x9001f0080, 12, 0x4, .none, [⟨30, 16, .rw, 0, .block, 0, 32767⟩, ⟨14, 0, .rw, 0, .block, 0, 24575⟩]⟩,
  ⟨"TILE_GLEV", 0x9001f00c0, 12, 0x4, .none, [⟨13, 0, .ro, 0, .block, 0, 16383⟩]⟩,
  ⟨"TILE_AG_BASE", 0x9001f0100, 4, 0x40, .none, [⟨20, 0, .rw, 0, .block, 0, 1572863⟩]⟩,
  ⟨"TILE_AG_CNT0", 0x9001f0104, 4, 0x40, .none, [⟨15, 0, .rw, 0, .block, 0, 65535⟩]⟩,
  ⟨"TILE_AG_CNT1", 0x9001f0108, 4, 0x40, .none, [⟨15, 0, .rw, 0, .block, 0, 65535⟩]⟩,
  ⟨"TILE_AG_CNT2", 0x9001f010c, 4, 0x40, .none, [⟨15, 0, .rw, 0, .block, 0, 65535⟩]⟩,
  ⟨"TILE_AG_CNT3", 0x9001f0110, 4, 0x40, .none, [⟨15, 0, .rw, 0, .block, 0, 65535⟩]⟩,
  ⟨"TILE_AG_CNT4", 0x9001f0114, 4, 0x40, .none, [⟨15, 0, .rw, 0, .block, 0, 65535⟩]⟩,
  ⟨"TILE_AG_STR0", 0x9001f0118, 4, 0x40, .none, [⟨21, 0, .rw, 0, .block, 0, 4194303⟩]⟩,
  ⟨"TILE_AG_STR1", 0x9001f011c, 4, 0x40, .none, [⟨21, 0, .rw, 0, .block, 0, 4194303⟩]⟩,
  ⟨"TILE_AG_STR2", 0x9001f0120, 4, 0x40, .none, [⟨21, 0, .rw, 0, .block, 0, 4194303⟩]⟩,
  ⟨"TILE_AG_STR3", 0x9001f0124, 4, 0x40, .none, [⟨21, 0, .rw, 0, .block, 0, 4194303⟩]⟩,
  ⟨"TILE_AG_STR4", 0x9001f0128, 4, 0x40, .none, [⟨21, 0, .rw, 0, .block, 0, 4194303⟩]⟩,
  ⟨"TILE_AG_ADDR", 0x9001f012c, 4, 0x40, .none, [⟨31, 31, .ro, 0, .block, 0, 1⟩, ⟨30, 30, .ro, 0, .block, 0, 1⟩, ⟨29, 29, .ro, 0, .block, 0, 1⟩, ⟨21, 0, .ro, 0, .block, 0, 4194303⟩]⟩]

/-- The registers of register block `b` (Table 0-3); those of NET1 are NET0's without the context registers, at NET0's
addresses. -/
def blockRegs (b : Nat) : List RegD :=
  match b with
  | 0 => regsSys
  | 1 => regsGov
  | 2 => regsTime
  | 3 => regsQuoin
  | 4 => regsHbmc
  | 5 => regsEcc
  | 6 => regsRegion
  | 7 => regsAccess
  | 8 => regsStream
  | 9 => regsNet ++ regsNet0
  | 10 => regsNet
  | 11 => regsVdec
  | 12 => regsSport
  | 13 => regsBurl
  | 14 => regsUsb
  | 15 => regsMgmt
  | 16 => regsFw
  | 17 => regsSec
  | 18 => regsBist
  | 19 => regsPwr
  | 20 => regsCtx
  | 21 => regsLoad
  | _ => []

/-- The block a register address lies in, none outside the register range. -/
def blockOf (a : Nat) : Option Nat :=
  if 0x0A00000000 ≤ a ∧ a < 0x0A00160000 then some ((a - 0x0A00000000) / 0x10000) else none

/-- The register of a list that holds address `a`. -/
def regIn (l : List RegD) (a : Nat) : Option RegD :=
  l.find? (fun r => decide (r.addr ≤ a) && (a - r.addr) % r.stride == 0 && decide ((a - r.addr) / r.stride < r.count))

/-- The register at a physical address, if one is defined there. -/
def regAt (a : Nat) : Option RegD :=
  match blockOf a with
  | some b => regIn (blockRegs b) (if b = 10 then a - 0x10000 else a)
  | none =>
    if 0x0900000000 ≤ a ∧ a < 0x090D000000 then
      regIn regsTile (0x0900000000 + (a - 0x0900000000) % 0x200000)
    else none

/-- The value of a register with every field at its reset value. -/
def RegD.resetVal (r : RegD) : Nat := r.fields.foldl (fun v f => v + f.reset % 2 ^ (f.hi - f.lo + 1) * 2 ^ f.lo) 0

/-- What a register key reads as before anything is written: keys are copy * 2^40 + address. -/
def regReset (key : Nat) : Word :=
  match regAt (key % 0x10000000000) with
  | some r => BitVec.ofNat 32 r.resetVal
  | none => 0

end Sys2Proof.Machine
end

