-- ==== Sys2Proof/Machine/State.lean ====
section
/-! DEFINITION. The state of the AQ7410 block as plain data, the reasons a step can stop, and the state after power-on
reset and before the ROM runs (17_reset_power_bist.md R389, 16_firmware_and_security.md R362). INVENTORY.md lists every
field with its rule. -/
namespace Sys2Proof.Machine

/-- Reasons for a fault. -/
inductive Fault where
  /-- Raised by nothing: every error the spec describes is answered inside the machine (a bus error, a stage fault, a
  descriptor error, a status) and the machine goes on. Safe. -/
  | unraised
deriving DecidableEq, Repr

/-- Reasons for a refusal. -/
inductive Refusal where
  /-- Raised by the arm of a command that has no meaning yet, by its mnemonic. Safe. -/
  | notModelled (mnemonic : String)
deriving DecidableEq, Repr

/-- The chase fabric: switch configuration words (key: switch * 256 + index, R125), routes, control routes and steering
units. -/
structure Fabric where
  sw : Table Word := []
  routes : List Route := []
  ctl : List CtlRoute := []
  steers : List Steerer := []
deriving DecidableEq, Repr

/-- Admission (R230 to R236) and MC2's watch report queue (R172): frames in flight, inputs that wait, the last ticket
given per slot, the ledgers r_in and r_out with the slot of the frame last entered in r_out, decided scales, and the
dropped reports' frames as ticket and base time of acceptance. -/
structure Adm where
  flights : List Flight := []
  waiting : List Waiting := []
  tickets : List Nat := List.replicate 8 0
  rin : Nat := 0
  rout : Nat := 0
  routSlot : Option Nat := none
  reports : List Report := []
  flips : List Flip := []
  dropped : List (Nat × Nat) := []
deriving DecidableEq, Repr

/-- Region map entries, sub-entries (key: table * 32 + sub) and access entries 0 to 62 (key: target * 64 + entry), R250 to
R256. -/
structure Prot where
  region : Table Word := []
  sub : Table Word := []
  access : Table AccEnt := []
deriving DecidableEq, Repr

/-- Quoin counts, and the pending WAITs oldest first: quoin, requester, operand (R346, R347). -/
structure Quoins where
  count : Table Word := []
  waits : List (Nat × Waiter × Nat) := []
deriving DecidableEq, Repr

/-- What MC2 has allocated: commons granules (R245), HBM pages of 2 MiB (R28), quoin runs (R348). -/
structure Alloc where
  granules : List Nat := []
  pages : List Nat := []
  quoins : List (Nat × Nat) := []
deriving DecidableEq, Repr

/-- The sessions of the two transports, what has left the device, oldest first (R341), and the galley whose turn it is to be
drained to USB (R353). -/
structure HostSt where
  usb : Sess := {}
  mgmt : Sess := {}
  out : List Out := []
  usbNext : Nat := 0
deriving DecidableEq, Repr

/-- The machine. `pending` is the model's own queue of commands (log entry 1), `freeCtr` counts the free values taken (log
entry 2), `resp` is what the last bus access answered; `base` is base time in ns and `dev` device time in units of
10^-9 ns (R239); `decRef` holds the decoders' reference buffers (key: decoder * 2^25 + offset, 12 R281). -/
structure State where
  pending : List Instr := []
  freeCtr : Nat := 0
  resp : Resp := .none
  base : Nat := 0
  dev : Nat := 0
  regs : Table Word := []
  hbm : Mem := {}
  commons : Mem := {}
  msram : Mem := {}
  flash : Mem := {}
  tiles : List Tile := List.replicate 104 {}
  fab : Fabric := {}
  slots : List Slot := List.replicate 8 {}
  adm : Adm := {}
  face : Facing := {}
  prot : Prot := {}
  scrub : Option Scrub := none
  eng : List Eng := List.replicate 36 {}
  ing : List CGalley := List.replicate 16 {}
  res : List CGalley := List.replicate 256 {}
  ctxs : Table Ctx := []
  net : List NetPort := List.replicate 2 {}
  decQ : List (List Nat) := List.replicate 16 []
  decRef : Table Byte := []
  ppsEdge : Option Nat := none
  sport : Sport := {}
  burl : Burl := {}
  io : IoSt := {}
  host : HostSt := {}
  quoins : Quoins := {}
  alloc : Alloc := {}
  log : LogSt := {}
  fw : Fw := {}
  otp : Otp := {}
  health : Health := {}
  pwr : Pwr := {}
  ld : Option LoadJob := none
deriving DecidableEq, Repr

/-- The machine right after power-on reset: every field at its reset value, nothing listed in any table. -/
def State.reset : State := {}

end Sys2Proof.Machine
end

