-- ==== Sys2Proof/Machine/Ops.lean ====
section
/-! DEFINITION. The named operations every meaning uses: register fields, the parts of State by index, events (15
R354, R355, R426), free values, transport packets (R339) and quoin operations (R346, R347, R351). -/
namespace Sys2Proof.Machine

/-! ## Registers by field -/

/-- The key of copy `c` of the register at address `a`; copy 0 is the only copy of a register without copies. -/
def rkey (c a : Nat) : Nat := c * 0x10000000000 + a

/-- The stored word of copy `c` of the register at `a`. -/
def State.reg (s : State) (c a : Nat) : Nat := (tget regReset s.regs (rkey c a)).toNat

/-- The stored word set. -/
def State.setReg (s : State) (c a v : Nat) : State :=
  { s with regs := tput regReset s.regs (rkey c a) (BitVec.ofNat 32 v) }

/-- A field of a register. -/
def State.rd (s : State) (f : Fld) : Nat := bits (s.reg 0 f.addr) f.lo f.len

/-- A field of copy `c` of a register. -/
def State.rdc (s : State) (c : Nat) (f : Fld) : Nat := bits (s.reg c f.addr) f.lo f.len

/-- A field set by the hardware. -/
def State.wr (s : State) (f : Fld) (v : Nat) : State := s.setReg 0 f.addr (setBits (s.reg 0 f.addr) f.lo f.len v)

/-- A field of copy `c` set by the hardware. -/
def State.wrc (s : State) (c : Nat) (f : Fld) (v : Nat) : State :=
  s.setReg c f.addr (setBits (s.reg c f.addr) f.lo f.len v)

/-- A counter field raised by `n`; it wraps. -/
def State.inc (s : State) (f : Fld) (n : Nat := 1) : State := s.wr f (s.rd f + n)

/-- A counter field of copy `c` raised by `n`; it wraps. -/
def State.incc (s : State) (c : Nat) (f : Fld) (n : Nat := 1) : State := s.wrc c f (s.rdc c f + n)

/-! ## Parts by index -/

/-- Tile `t`. -/
def State.tile (s : State) (t : Nat) : Tile := s.tiles.getD t {}

/-- Tile `t` replaced; no such tile, no change. -/
def State.setTile (s : State) (t : Nat) (x : Tile) : State := { s with tiles := setAt s.tiles t x }

/-- Tile `t` changed by `f`. -/
def State.modTile (s : State) (t : Nat) (f : Tile → Tile) : State := { s with tiles := modAt s.tiles t f }

/-- Slot `k`. -/
def State.slot (s : State) (k : Nat) : Slot := s.slots.getD k {}

/-- Slot `k` changed by `f`. -/
def State.modSlot (s : State) (k : Nat) (f : Slot → Slot) : State := { s with slots := modAt s.slots k f }

/-- Context `c`. -/
def State.ctx (s : State) (c : Nat) : Ctx := tget (fun _ => {}) s.ctxs c

/-- Context `c` replaced. -/
def State.setCtx (s : State) (c : Nat) (x : Ctx) : State := { s with ctxs := tput (fun _ => {}) s.ctxs c x }

/-- Context `c` changed by `f`. -/
def State.modCtx (s : State) (c : Nat) (f : Ctx → Ctx) : State := s.setCtx c (f (s.ctx c))

/-- Stream engine `e`; 32 to 35 are the merge channels. -/
def State.engine (s : State) (e : Nat) : Eng := s.eng.getD e {}

/-- Stream engine `e` changed by `f`. -/
def State.modEng (s : State) (e : Nat) (f : Eng → Eng) : State := { s with eng := modAt s.eng e f }

/-- Ethernet port `p` changed by `f`. -/
def State.modNet (s : State) (p : Nat) (f : NetPort → NetPort) : State := { s with net := modAt s.net p f }

/-- Ethernet port `p`. -/
def State.port (s : State) (p : Nat) : NetPort := s.net.getD p {}

/-- The session of a transport. -/
def State.sess (s : State) (mgmt : Bool) : Sess := if mgmt then s.host.mgmt else s.host.usb

/-- The session of a transport replaced. -/
def State.setSess (s : State) (mgmt : Bool) (x : Sess) : State :=
  if mgmt then { s with host := { s.host with mgmt := x } } else { s with host := { s.host with usb := x } }

/-- Something leaves the device. -/
def State.emit (s : State) (o : Out) : State := { s with host := { s.host with out := s.host.out ++ [o] } }

/-- What a bus access answers. -/
def State.answer (s : State) (r : Resp) : State := { s with resp := r }

/-! ## Free values (log entry 2) -/

/-- The next free value, and the state that has taken it. -/
def State.takeFree (s : State) : Nat × State := (Config.free s.freeCtr, { s with freeCtr := s.freeCtr + 1 })

/-! ## Roles (16 R360) and sources of events (R426) -/

/-- The master ID of the core that holds the security role. -/
def State.secCore (s : State) : Nat := 0x60 + s.rd FW_ROLE_SECURITY
/-- The master ID of the core that holds the power role. -/
def State.powCore (s : State) : Nat := 0x60 + s.rd FW_ROLE_POWER
/-- The master ID of the core that holds the admission role. -/
def State.admCore (s : State) : Nat := 0x60 + s.rd FW_ROLE_ADMISSION
/-- The master ID of the core that holds the health role. -/
def State.heaCore (s : State) : Nat := 0x60 + s.rd FW_ROLE_HEALTH

/-- SOURCE of tile `t`. -/
def srcTile (t : Nat) : Nat := 0x0100 + t
/-- SOURCE of register block `b` of Table 0-3. -/
def srcBlock (b : Nat) : Nat := 0x0200 + b

/-- Ticket and context sharing ARG0 (R354). -/
def tickCtx (ticket ctx : Nat) : Nat := ticket % 4096 + ctx % 4096 * 0x10000

/-- Device time in nanoseconds (10 R239). -/
def State.now (s : State) : Nat := s.dev / 1000000000

/-- Slot `k` makes progress now, for its no-progress watchdog (05 R145). -/
def State.touch (s : State) (k : Nat) : State := s.modSlot k (fun x => { x with progress := s.now })

/-! ## Events -/

/-- An event offered to a session's queue (R355): kept out where the mask does not let its group in, counted where the
queue is full. -/
def Sess.offer (q : Sess) (base : Nat) (e : Ev) : Sess :=
  if !q.isOpen || !(q.mask.testBit (e.code / 256)) then q
  else if q.events.length < 1024 then { q with events := q.events ++ [(base, e)] }
  else { q with lost := q.lost + 1 }

/-- An event entered in the log ring and handed to the mirror; it takes the next SEQ (R354, R380). -/
def LogSt.enter (l : LogSt) (e : Ev) : LogSt :=
  { l with seq := (l.seq + 1) % 2 ^ 32, ring := (e :: l.ring).take 8192, mirror := l.mirror ++ [e] }

/-- Whether a session has lost records and has room again (R355). -/
def Sess.lostDue (q : Sess) : Bool := q.isOpen && decide (0 < q.lost) && decide (q.events.length < 1024)

/-- EVENTS_LOST for a transport's session, at base time `base` and device time `now`, where it is due: logged, and queued to that session
only (R355). -/
def HostSt.noteLost (h : HostSt) (l : LogSt) (base now : Nat) (mgmt : Bool) : HostSt × LogSt :=
  let q := if mgmt then h.mgmt else h.usb
  if q.lostDue then
    let e : Ev := ⟨now, EV_EVENTS_LOST, srcBlock 0, l.seq, q.lost, b2n mgmt, 0⟩
    let q' := { q with events := q.events ++ [(base, e)], lost := 0 }
    (if mgmt then { h with mgmt := q' } else { h with usb := q' }, l.enter e)
  else (h, l)

/-- EVENTS_LOST for a transport's session (R355). -/
def State.noteLost (s : State) (mgmt : Bool) : State :=
  let r := s.host.noteLost s.log s.base s.now mgmt
  { s with host := r.1, log := r.2 }

/-- What an event makes of the sessions and the log: the EVENTS_LOST that is due comes first (R355), then the event is logged and
offered to both sessions. -/
def State.noteEvent (s : State) (code src a0 a1 a2 : Nat) : HostSt × LogSt :=
  let u := s.host.noteLost s.log s.base s.now false
  let m := u.1.noteLost u.2 s.base s.now true
  let e : Ev := ⟨s.now, code, src, m.2.seq, a0, a1, a2⟩
  ({ m.1 with usb := m.1.usb.offer s.base e, mgmt := m.1.mgmt.offer s.base e }, m.2.enter e)

/-- An event raised (R354, R355). -/
def State.raise (s : State) (code src a0 a1 a2 : Nat) : State :=
  let r := s.noteEvent code src a0 a1 a2
  { s with host := r.1, log := r.2 }

/-- An event raised at most once per `span` ns of base time for its `key` (R257, R261, R352 and others). -/
def State.raiseOnce (s : State) (key span code src a0 a1 a2 : Nat) : State :=
  let due := match tget (fun _ => none) s.log.last key with
    | none => true
    | some t => decide (span ≤ s.base - t)
  if due then
    let s := s.raise code src a0 a1 a2
    { s with log := { s.log with last := tput (fun _ => none) s.log.last key (some s.base) } }
  else s

/-- The 32 bytes of an event record (Table 15-8). -/
def Ev.bytes (e : Ev) : List Byte :=
  leBytes 8 e.time ++ leBytes 2 e.code ++ leBytes 2 e.source ++ leBytes 4 e.seq ++ leBytes 4 e.a0 ++ leBytes 4 e.a1 ++
    leBytes 8 e.a2

/-! ## Transport packets (R339, R340, R345) -/

/-- A packet of the control transport (Table 15-1). -/
def packet (op tag status flags : Nat) (payload : List Byte) : List Byte :=
  leBytes 4 0x54434641 ++ leBytes 1 1 ++ leBytes 1 op ++ leBytes 2 tag ++ leBytes 4 payload.length ++ leBytes 2 status ++
    leBytes 2 flags ++ payload

/-- A response: RESPONSE set, OP and TAG of the request; the management session keeps its last 16 responses. -/
def State.respond (s : State) (h : HostHdr) (op status : Nat) (payload : List Byte) : State :=
  let p := packet op h.tag status 0x8000 payload
  let s := s.emit (.response h.mgmt h.src p)
  if h.mgmt && s.host.mgmt.isOpen then
    let q := s.host.mgmt
    s.setSess true { q with kept := ((h.tag, p) :: q.kept.filter (fun k => k.1 != h.tag)).take 16 }
  else s

/-! ## The spindle core's end of an instruction -/

/-- The core has completed the instruction at `pc`: the next word follows, and if `pc` was the last word of the innermost
loop's body its end is due (03 R84). -/
def SCore.finish (c : SCore) : SCore :=
  { c with
    waiting := none
    loopDue := match c.loops with
      | l :: _ => decide (l.last = c.pc)
      | [] => false
    pc := c.pc + 1 }

/-! ## Quoins (R346, R347) -/

/-- The count of quoin `i`. -/
def State.qcount (s : State) (i : Nat) : Nat := (tget (fun _ => 0) s.quoins.count i).toNat

/-- The count of quoin `i` set. -/
def State.setCount (s : State) (i v : Nat) : State :=
  { s with quoins := { s.quoins with count := tput (fun _ => 0) s.quoins.count i (BitVec.ofNat 32 v) } }

/-- The requests that a session kept while a WAIT held it come to the front of the queue (R341). -/
def State.unhold (s : State) (mgmt : Bool) : State :=
  let q := s.sess mgmt
  ({ s with pending := q.held ++ s.pending }).setSess mgmt { q with waitQ := none, held := [] }

/-- What follows for a requester whose WAIT on quoin `i` has succeeded. -/
def State.wake (s : State) (i : Nat) : Waiter → State
  | .tile t => s.modTile t (fun x =>
      { x with st := if x.st = .stalled then .running else x.st
               back := if x.back = .stalled then .running else x.back
               core := x.core.finish })
  | .eng e => s.modEng e (fun x => { x with passed := true })
  | .merge c => s.modEng (32 + c) (fun x => { x with passed := true })
  | .seq k tag => s.modSlot k (fun x => { x with imp := { x.imp with passed := x.imp.passed ++ [tag] } })
  | .host mgmt =>
    match (s.sess mgmt).waitQ with
    | some (h, _, _) =>
      let s := s.unhold mgmt
      s.respond h 7 0 (leBytes 4 (s.qcount i))
    | none => s
  | .core _ => s

/-- The oldest pending WAIT on quoin `i`. -/
def State.oldest (s : State) (i : Nat) : Option (Waiter × Nat) :=
  (s.quoins.waits.find? (fun w => w.1 == i)).map (fun w => w.2)

/-- The first pending WAIT on quoin `i` taken out of the list. -/
def dropWait (i : Nat) : List (Nat × Waiter × Nat) → List (Nat × Waiter × Nat)
  | [] => []
  | w :: ws => if w.1 = i then ws else w :: dropWait i ws

/-- The oldest pending WAIT on quoin `i` served if the count covers its operand; none where there is nothing to do. -/
def State.serve (s : State) (i : Nat) : Option State :=
  match s.oldest i with
  | some (w, n) =>
    if n ≤ s.qcount i then
      let s := s.setCount i (s.qcount i - n)
      let s := { s with quoins := { s.quoins with waits := dropWait i s.quoins.waits } }
      some (s.wake i w)
    else none
  | none => none

/-- Pending WAITs served as long as the oldest can be; a later operation finds none that is due (R347). -/
def State.settleN (s : State) (i : Nat) : Nat → State
  | 0 => s
  | k + 1 =>
    match s.serve i with
    | some s' => s'.settleN i k
    | none => s

/-- Every WAIT that is due on quoin `i` served before a further operation takes effect. -/
def State.settle (s : State) (i : Nat) : State := s.settleN i s.quoins.waits.length

/-- The memory-source context whose IN quoin is `i` and that takes inputs (R351). -/
def State.inputCtx (s : State) (i : Nat) : Option Nat :=
  (s.ctxs.find? (fun e => e.2.inQ == i && i != 0 && (e.2.st == 2 || e.2.st == 3))).map (·.1)

/-- The count of quoin `i` raised by `n`, saturating with QUOIN_OVERFLOW (Table 15-6); `m` is the signaller. -/
def State.addCount (s : State) (m i n : Nat) : State :=
  let v := s.qcount i + n
  if v ≤ 0xFFFFFFFF then s.setCount i v
  else
    let s := s.setCount i 0xFFFFFFFF
    let s := s.inc QUOIN_OVERFLOWS_COUNT
    let s := (s.wr QUOIN_LAST_OVF_VALID 1).wr QUOIN_LAST_OVF_INDEX i
    s.raise EV_QUOIN_OVERFLOW (srcBlock 3) i m 0

/-- One credit of FREE signalled for each picture buffer of a memory-source context that is free, in frame order (R351); `fuel`
bounds them. -/
def State.memFree (s : State) (c : Nat) : Nat → State
  | 0 => s
  | fuel + 1 =>
    let x := s.ctx c
    if x.freeNext < x.next ∧ x.bufs.getD (x.freeNext % max 1 x.bufs.length) .whole = .free then
      let s := s.setCtx c { x with freeNext := x.freeNext + 1 }
      ((s.settle x.freeQ).addCount s.admCore x.freeQ 1).memFree c fuel
    else s

/-- One input of a memory-source context becomes whole (R351), or is discarded by freeing its buffer while STOPPING (R350). -/
def State.memInput (s : State) (c : Nat) : State :=
  let x := s.ctx c
  let b := if x.bufs.length = 0 then 0 else x.next % x.bufs.length
  if x.st = 2 then
    let s := s.setCtx c { x with next := x.next + 1, bufs := setAt x.bufs b .whole, seq := x.seq + 1 }
    { s with adm := { s.adm with waiting := s.adm.waiting ++ [⟨c, b, s.base, x.seq, 0, s.now⟩] } }
  else (s.setCtx c { x with next := x.next + 1, bufs := setAt x.bufs b .free }).memFree c x.bufs.length

/-- `n` inputs of context `c`. -/
def State.memInputs (s : State) (c : Nat) : Nat → State
  | 0 => s
  | k + 1 => (s.memInput c).memInputs c k

/-- SIGNAL `n` on quoin `i` by master `m`; on the IN quoin of a memory-source context the admission role's WAIT takes the
operand at once and the inputs are whole (R346, R351). -/
def State.qsignal (s : State) (m i n : Nat) : State :=
  let s := s.settle i
  match s.inputCtx i with
  | some c =>
    let s' := (s.addCount m i n).memInputs c n
    s'.setCount i (s.qcount i)
  | none => s.addCount m i n

/-- RESET of quoin `i` to `v`. -/
def State.qreset (s : State) (i v : Nat) : State := (s.settle i).setCount i v

/-- TEST of quoin `i`. -/
def State.qtest (s : State) (i : Nat) : Nat × State :=
  let s := s.settle i
  (s.qcount i, s)

/-- WAIT `n` on quoin `i` by requester `w`: true where it succeeds at once (n = 0, or nothing older pends and the count
covers it), otherwise it pends (R347). -/
def State.qwait (s : State) (i n : Nat) (w : Waiter) : Bool × State :=
  let s := s.settle i
  if n = 0 then (true, s)
  else if (s.oldest i).isNone ∧ n ≤ s.qcount i then (true, s.setCount i (s.qcount i - n))
  else (false, { s with quoins := { s.quoins with waits := s.quoins.waits ++ [(i, w, n)] } })

/-- A requester's pending WAITs abandoned without effect (R342). -/
def State.dropWaits (s : State) (w : Waiter) : State :=
  { s with quoins := { s.quoins with waits := s.quoins.waits.filter (fun e => e.2.1 != w) } }

end Sys2Proof.Machine
end

