-- ==== Sys2Proof/Machine/MemOps.lean ====
section
/-! DEFINITION. The device's memories: where each lies, code words, valid bits and the SECDED outcomes of a read (11
R258 to R263), reads and writes by any master, bank clears and correctable-error write-backs. -/
namespace Sys2Proof.Machine

/-- One memory of the device. -/
inductive MemId where
  | hbm
  | commons
  | msram
  | flash
  | sram (t : Nat)
  | gsram (t : Nat)
  | prog (t : Nat)
deriving DecidableEq, Repr

/-- Bytes of a code word (Table 11-13). -/
def MemId.cw : MemId → Nat
  | .gsram _ => 4
  | .prog _ => 4
  | _ => 8

/-- Bytes that a partial write reads, merges and writes: a burst of HBM (R248), elsewhere a code word (R260). -/
def MemId.unit : MemId → Nat
  | .hbm => 32
  | i => i.cw

/-- Bytes of the memory. -/
def MemId.size : MemId → Nat
  | .hbm => 0x400000000
  | .commons => 0x2000000
  | .msram => 0x180000
  | .flash => 0x100000
  | .sram _ => 0x180000
  | .gsram _ => 0x10000
  | .prog _ => 0x4000

/-- Whether its code words have valid bits. -/
def MemId.hasValid : MemId → Bool
  | .hbm => false
  | .flash => false
  | _ => true

/-- The memory kind that ECC_CORRECTED is limited by (R261). -/
def MemId.kind : MemId → Nat
  | .sram _ => 0
  | .gsram _ => 1
  | .prog _ => 2
  | .commons => 3
  | .msram => 4
  | .hbm => 5
  | .flash => 6

/-- The physical address of offset 0 (Table 0-2; program memory at window + 0x1F_C000). Management SRAM and flash lie
outside the map. -/
def MemId.base : MemId → Nat
  | .hbm => 0
  | .commons => 0x0800000000
  | .sram t => 0x0900000000 + 0x200000 * t
  | .gsram t => 0x0900000000 + 0x200000 * t + 0x180000
  | .prog t => 0x0900000000 + 0x200000 * t + 0x1FC000
  | _ => 0

/-- The contents of a memory. -/
def State.mem (s : State) : MemId → Mem
  | .hbm => s.hbm
  | .commons => s.commons
  | .msram => s.msram
  | .flash => s.flash
  | .sram t => (s.tile t).sram
  | .gsram t => (s.tile t).gsram
  | .prog t => (s.tile t).prog

/-- The contents of a memory replaced. -/
def State.setMem (s : State) (i : MemId) (m : Mem) : State :=
  match i with
  | .hbm => { s with hbm := m }
  | .commons => { s with commons := m }
  | .msram => { s with msram := m }
  | .flash => { s with flash := m }
  | .sram t => s.modTile t (fun x => { x with sram := m })
  | .gsram t => s.modTile t (fun x => { x with gsram := m })
  | .prog t => s.modTile t (fun x => { x with prog := m })

/-! ## Bytes -/

/-- What a byte reads as that nothing has written: 0 (log entry 4 for HBM; R259 for the rest). -/
def memDflt : Nat → Byte := fun _ => 0

/-- The stored byte at `a`. -/
def Mem.byte (m : Mem) (a : Nat) : Byte := tget memDflt m.cells a

/-- One byte stored. -/
def Mem.putByte (m : Mem) (a : Nat) (b : Byte) : Mem := { m with cells := tput memDflt m.cells a b }

/-- Bytes stored from `a` on. -/
def Mem.putBytes (m : Mem) (a : Nat) : List Byte → Mem
  | [] => m
  | b :: bs => (m.putByte a b).putBytes (a + 1) bs

/-- `n` stored bytes from `a`. -/
def Mem.bytesAt (m : Mem) (a n : Nat) : List Byte := (List.range n).map (fun i => m.byte (a + i))

/-- The canonical form of a memory: each of its tables in canonical form. -/
def Mem.wf (m : Mem) : Bool :=
  twf memDflt m.cells && twf (fun _ => false) m.valid && twf (fun _ => 0) m.flips

/-- Whether code word `w` is valid. -/
def Mem.isValid (m : Mem) (i : MemId) (w : Nat) : Bool := !i.hasValid || tget (fun _ => false) m.valid w

/-- The mask of inverted bits stored with code word `w`. -/
def Mem.flip (m : Mem) (w : Nat) : Nat := tget (fun _ => 0) m.flips w

/-- Code word `w` written with `v`, its valid bit set, `mask` of its bits inverted. -/
def Mem.putWord (m : Mem) (i : MemId) (w v mask : Nat) : Mem :=
  let m := m.putBytes (w * i.cw) (leBytes i.cw v)
  { m with valid := if i.hasValid then tput (fun _ => false) m.valid w true else m.valid
           flips := tput (fun _ => 0) m.flips w mask }

/-- What a read makes of a code word: its data, corrected data, or nothing. -/
inductive WordRead where
  | good (v : Nat)
  | corr (v : Nat)
  | bad
deriving DecidableEq, Repr

/-- The outcome of a read of code word `w` (R258, R259, R263): an invalid word reads 0 with no check; one inverted bit is
corrected, two are not; for three or more the outcome is FREE (log entry 6). -/
def Mem.look (m : Mem) (i : MemId) (w : Nat) : WordRead :=
  let v := leNat (m.bytesAt (w * i.cw) i.cw)
  let n := 8 * i.cw
  let f := m.flip w
  if !m.isValid i w then .good 0
  else if f = 0 then .good v
  else
    match popCount 72 f with
    | 1 => .corr v
    | 2 => .bad
    | _ =>
      let stored := (v.xor f) % 2 ^ n
      let k := Config.eccMany i.kind w f
      if k % 3 = 0 then .corr (stored.xor (2 ^ (k / 3 % n)))
      else if k % 3 = 1 then .bad
      else .good stored

/-! ## Reads -/

/-- A correction (R261): the word written back clean, ECC_ERR_CORR raised, ECC_CORRECTED at most once per kind and
millisecond. -/
def State.correct (s : State) (i : MemId) (w v : Nat) : State :=
  let s := s.setMem i ((s.mem i).putWord i w v 0)
  let s := s.inc ECC_ERR_CORR_COUNT
  s.raiseOnce (0x1000 + i.kind) 1000000 EV_ECC_CORRECTED (srcBlock 5) 0 0 (i.base + w * i.cw)

/-- An uncorrectable error met by master `m` (R262). -/
def State.uncorrectable (s : State) (i : MemId) (w m : Nat) : State :=
  let s := s.inc ECC_ERR_UNCORR_COUNT
  let s := { s with health := { s.health with hardSeen := s.health.hardSeen ++ [i.base + w * i.cw] } }
  s.raise EV_ECC_UNCORRECTED (srcBlock 5) m 0 (i.base + w * i.cw)

/-- One code word read by master `m`. -/
def State.readWord (s : State) (i : MemId) (w m : Nat) : Option Nat × State :=
  match (s.mem i).look i w with
  | .good v => (some v, s)
  | .corr v => (some v, s.correct i w v)
  | .bad => (none, s.uncorrectable i w m)

/-- `n` code words read from `w` on: their bytes, and whether every one had data. -/
def State.readWords (s : State) (i : MemId) (w m : Nat) : Nat → List Byte × Bool × State
  | 0 => ([], true, s)
  | n + 1 =>
    let r := s.readWord i w m
    let t := r.2.readWords i (w + 1) m n
    (leBytes i.cw (r.1.getD 0) ++ t.1, r.1.isSome && t.2.1, t.2.2)

/-- `n` bytes read from offset `a` by master `m`; none where a word of them is uncorrectable (R262). -/
def State.read (s : State) (i : MemId) (a n m : Nat) : Option (List Byte) × State :=
  if n = 0 then (some [], s)
  else
    let w := a / i.cw
    let r := s.readWords i w m ((a + n - 1) / i.cw - w + 1)
    (if r.2.1 then some (slice r.1 (a - w * i.cw) n) else none, r.2.2)

/-! ## Writes -/

/-- The mask that the next write of the code word takes, and the mask registers once it is taken (R263). -/
def State.takeFlip (s : State) (i : MemId) (w : Nat) : Nat × State :=
  if s.rd ECC_FLIP_CTRL_ARMED = 1 ∧
      i.base + w * i.cw = s.rd ECC_FLIP_ADDR_LO_ADDR * 4 + s.rd ECC_FLIP_ADDR_HI_ADDR * 2 ^ 32 ∧ i.kind ≠ 4 ∧ i.kind ≠ 6 then
    let mask := s.rd ECC_FLIP_MASK0_BITS + s.rd ECC_FLIP_MASK1_BITS * 2 ^ 32 + s.rd ECC_FLIP_MASK2_BITS * 2 ^ 64
    let s := ((s.wr ECC_FLIP_MASK0_BITS 0).wr ECC_FLIP_MASK1_BITS 0).wr ECC_FLIP_MASK2_BITS 0
    let s := s.wr ECC_FLIP_CTRL_ARMED 0
    (mask, s.raise EV_ECC_FLIP_APPLIED (srcBlock 5) 0 0 (i.base + w * i.cw))
  else (0, s)

/-- One whole code word written. -/
def State.writeWord (s : State) (i : MemId) (w v : Nat) : State :=
  let f := s.takeFlip i w
  f.2.setMem i ((f.2.mem i).putWord i w v f.1)

/-- Whole code words written from `w` on, their bytes given. -/
def State.writeWords (s : State) (i : MemId) (w : Nat) : List (List Byte) → State
  | [] => s
  | b :: bs => (s.writeWord i w (leNat b)).writeWords i (w + 1) bs

/-- One unit written: `bs` at offset `o` within the unit. A unit not covered is read, merged and written; an
uncorrectable word of it abandons the write of this unit (R248, R260). -/
def State.writeUnit (s : State) (i : MemId) (u o : Nat) (bs : List Byte) (m : Nat) : Bool × State :=
  let w := u * i.unit / i.cw
  let k := i.unit / i.cw
  if o = 0 ∧ bs.length = i.unit then (true, s.writeWords i w (chunks i.cw k bs))
  else
    let r := s.readWords i w m k
    if r.2.1 then
      let old := r.1
      let new := old.take o ++ bs ++ old.drop (o + bs.length)
      (true, r.2.2.writeWords i w (chunks i.cw k new))
    else (false, r.2.2)

/-- Bytes written from offset `a` on, unit by unit; `fuel` bounds the units. -/
def State.writeFrom (s : State) (i : MemId) (a : Nat) (bs : List Byte) (m : Nat) : Nat → Bool × State
  | 0 => (true, s)
  | fuel + 1 =>
    if bs.isEmpty then (true, s)
    else
      let u := a / i.unit
      let o := a % i.unit
      let n := i.unit - o
      let r := s.writeUnit i u o (bs.take n) m
      let t := r.2.writeFrom i (a + n) (bs.drop n) m fuel
      (r.1 && t.1, t.2)

/-- Bytes written at offset `a` by master `m`; false where a part met an uncorrectable error (R260, R262). -/
def State.write (s : State) (i : MemId) (a : Nat) (bs : List Byte) (m : Nat) : Bool × State :=
  s.writeFrom i a bs m (bs.length + 1)

/-- A bank clear of the code words `lo` to `hi - 1`: every valid bit 0 (R259); an armed mask is taken (R263). -/
def State.clearMem (s : State) (i : MemId) (lo hi : Nat) : State :=
  let armed := s.rd ECC_FLIP_ADDR_LO_ADDR * 4 + s.rd ECC_FLIP_ADDR_HI_ADDR * 2 ^ 32
  let w := (armed - i.base) / i.cw
  let s := if i.base ≤ armed ∧ lo ≤ w ∧ w < hi then (s.takeFlip i w).2 else s
  let m := s.mem i
  s.setMem i
    { cells := m.cells.filter (fun c => !(decide (lo * i.cw ≤ c.1) && decide (c.1 < hi * i.cw)))
      valid := m.valid.filter (fun c => !(decide (lo ≤ c.1) && decide (c.1 < hi)))
      flips := m.flips.filter (fun c => !(decide (lo ≤ c.1) && decide (c.1 < hi))) }

/-- Every bank of a memory cleared. -/
def State.clearAll (s : State) (i : MemId) : State := s.clearMem i 0 (i.size / i.cw)

end Sys2Proof.Machine
end

