-- ==== Sys2Proof/Machine/Galleys.lean ====
section
/-! DEFINITION. Tile galleys and rings, credits, and the tokens of both kinds on the fabric: what a port holds, landing
and shipping (02 R63 to R65), packets at a port (12 R284, R285, R287), frame marks (05 R134), credits and feeds (R129,
R130), and control tokens on their routes (R132, R133). -/
namespace Sys2Proof.Machine

/-! ## Port configuration -/

/-- The number that names a galley among the copies of the STREAM_G registers: kind 0 tile, 1 ingress, 2 result. -/
def galKey (kind tile num : Nat) : Nat := kind * 65536 + tile * 256 + num

/-- What a tile port is configured to be (Tables 2-14, 2-15 and 12-10), with capacities in tokens. -/
structure PortCfg where
  en : Bool
  net : Nat
  size : Nat
  count : Nat
  cap : Nat
  base : Nat
  ringTok : Nat
  ringBase : Nat
  pkt : Bool
  pad : Nat
  pktTokens : Nat
  ty : Nat
deriving DecidableEq, Repr

/-- The configuration of port `p` of tile `t`. -/
def State.portCfg (s : State) (t p : Nat) : PortCfg :=
  let net := s.rd ((TILE_GCFG_NET.idx p).tile t)
  let size := if net = 1 then 4 else 64
  let c := 1 + galKey 0 t p
  { en := s.rd ((TILE_GCFG_EN.idx p).tile t) == 1
    net := net
    size := size
    count := s.rd ((TILE_GCFG_COUNT_M1.idx p).tile t) + 1
    cap := s.rd ((TILE_GCFG_CAP_KIB.idx p).tile t) * 1024 / size
    base := s.rd ((TILE_GCFG_BASE_KIB.idx p).tile t) * 1024
    ringTok := s.rd ((TILE_GRING_RING_TOKENS.idx p).tile t)
    ringBase := s.rd ((TILE_GRING_RING_BASE.idx p).tile t) * 64
    pkt := s.rdc c STREAM_GCFG_PKT == 1
    pad := s.rdc c STREAM_GCFG_PAD_M1 + 1
    pktTokens := s.rdc c STREAM_GCFG_PKT_TOKENS
    ty := s.rdc c STREAM_GCFG_TYPE }

/-- The slot that holds tile `t`, where TILE_CFG.HELD is 1. -/
def State.tileSlot (s : State) (t : Nat) : Option Nat :=
  if s.rd (TILE_CFG_HELD.tile t) = 1 then some (s.rd (TILE_CFG_SLOT.tile t)) else none

/-- The master ID under which tile `t` accesses memory; 0xFF, which no master bears, where no slot holds it (R253). -/
def State.tileMaster (s : State) (t : Nat) : Nat := (s.tileSlot t).getD 0xFF

/-- Galley `p` of a tile. -/
def Ports.gal (x : Ports) (p : Nat) : TGalley := x.g.getD p {}

/-- Galley `p` of a tile changed. -/
def State.modGal (s : State) (t p : Nat) (f : TGalley → TGalley) : State :=
  s.modTile t (fun x => { x with ports := { x.ports with g := modAt x.ports.g p f } })

/-- The loop port record of port `p`. -/
def Ports.loopAt (x : Ports) (p : Nat) : LoopPort := x.loop.getD p {}

/-- The loop port record of port `p` changed. -/
def State.modLoop (s : State) (t p : Nat) (f : LoopPort → LoopPort) : State :=
  s.modTile t (fun x => { x with ports := { x.ports with loop := modAt x.ports.loop p f } })

/-- Whether port `p` of tile `t` is a loop input port. -/
def State.isLoopIn (s : State) (t p : Nat) : Bool := decide (p < 8) && ((s.tile t).ports.loopAt p).on

/-- AVAIL of an input port (R63; R189 for a loop input port). -/
def State.avail (s : State) (t p : Nat) : Nat :=
  let x := (s.tile t).ports
  if s.isLoopIn t p then (x.loopAt p).avail else (x.gal p).tags.length

/-- FREE of an output port (R63). -/
def State.room (s : State) (t p : Nat) : Nat := (s.portCfg t p).cap - ((s.tile t).ports.gal p).tags.length

/-- LEVEL of TILE_GLEVn (Table 2-16). -/
def State.level (s : State) (t p : Nat) : Nat :=
  if (s.portCfg t p).en then (if p < 8 then s.avail t p else s.room t p) else 0

/-! ## Routes, feeds and credits -/

/-- The first receiver that satisfies `p`, as route index and receiver index. -/
def recvAt (p : Route → Recv → Bool) (routes : List Route) : Option (Nat × Nat) :=
  match indexOf? (fun r => r.recvs.any (p r)) routes with
  | none => none
  | some i =>
    match routes[i]? with
    | none => none
    | some r => (indexOf? (p r) r.recvs).map (fun j => (i, j))

/-- Route `r` changed. -/
def State.modRoute (s : State) (r : Nat) (f : Route → Route) : State :=
  { s with fab := { s.fab with routes := modAt s.fab.routes r f } }

/-- Receiver `j` of route `r` changed. -/
def State.modRecv (s : State) (r j : Nat) (f : Recv → Recv) : State :=
  s.modRoute r (fun x => { x with recvs := modAt x.recvs j f })

/-- The receiver that feed `f` of port `p` of tile `t` is, in the impression the tile holds. -/
def State.feedRecv (s : State) (t p f : Nat) : Option (Nat × Nat) :=
  recvAt (fun r v => v.dst == .port t p f && r.imp == (s.tile t).imp) s.fab.routes

/-- Tokens held by the galley of a receiver, with its tile and the port's COUNT, where its tile is in impression `imp`. -/
def State.heldAt (s : State) (imp : Nat) : Dst → Option (Nat × Nat × Nat)
  | .port t p _ => if (s.tile t).imp = imp then some (t, s.avail t p, (s.portCfg t p).count) else none
  | _ => none

/-- The number of feeds of port `p`. -/
def State.feeds (s : State) (t p : Nat) : Nat :=
  ((List.range 4).filter (fun f => (s.feedRecv t p f).isSome)).length

/-- `n` credits returned for tokens that left port `p`: they go to the sender of the active feed (R129, R130). -/
def State.creditBack (s : State) (t p n : Nat) : State :=
  match s.feedRecv t p ((s.tile t).ports.gal p).feed with
  | some (r, j) => s.modRecv r j (fun v => { v with coming := v.coming + n })
  | none => s

/-- SOURCE of an event about a route. -/
def State.routeSource (s : State) : Src → Nat
  | .port t _ => srcTile t
  | .steer sw _ => srcTile sw
  | .feIn _ => 0x58 + s.rd LOAD_FE_ROLE_INPUT
  | .eng e => 0x10 + e
  | .refill k i => 0x10 + ((s.slot k).imp.streams[i]?.map (·.engine)).getD 0

/-- MULTICAST_LAG raised for a route whose receivers lie too far apart, at most once per route and frame (R141). -/
def State.checkLag (s : State) (r : Nat) : State :=
  match s.fab.routes[r]? with
  | none => s
  | some x =>
    let l := x.recvs.filterMap (fun v => s.heldAt x.imp v.dst)
    let low := listMin ((l.map (fun e => e.2.1)).headD 0) (l.map (fun e => e.2.1))
    let limit := s.rd LOAD_MC_LAG_LIMIT_LIMIT
    if x.lagged || decide (l.length < 2) then s
    else
      match l.find? (fun e => decide (limit < (e.2.1 - low) / e.2.2)) with
      | some e =>
        let s := s.raise EV_MULTICAST_LAG (s.routeSource x.src) (s.tile e.1).logical ((e.2.1 - low) / e.2.2) 0
        s.modRoute r (fun x => { x with lagged := true })
      | none => s

/-- Whether a receiver is some feed of port `p` of tile `t`. -/
def Recv.feeds (v : Recv) (t p : Nat) : Bool :=
  match v.dst with
  | .port u q _ => u == t && q == p
  | _ => false

/-- The lag of every route into port `p` of tile `t` looked at, once its level has changed (R141). -/
def State.lagAt (s : State) (t p : Nat) : State :=
  (List.range s.fab.routes.length).foldl (fun s r =>
    if (s.fab.routes[r]?).any (fun x => x.imp == (s.tile t).imp && decide (2 ≤ x.recvs.length) &&
        x.recvs.any (fun v => v.feeds t p)) then s.checkLag r else s) s

/-- Feed `f` becomes the active one and holds the credits of the free slots (R129). -/
def State.activate (s : State) (t p f : Nat) : State :=
  let old := ((s.tile t).ports.gal p).feed
  let s := match s.feedRecv t p old with
    | some (r, j) => s.modRecv r j (fun v => { v with credits := 0, coming := 0 })
    | none => s
  let s := s.modGal t p (fun g => { g with feed := f })
  match s.feedRecv t p f with
  | some (r, j) =>
    let free := s.room t p
    s.modRecv r j (fun v => { v with credits := free, coming := 0, seen := 0 })
  | none => s

/-! ## Galley slots -/

/-- Galley SRAM offset of the `i`-th token held at a port. -/
def slotAddr (c : PortCfg) (g : TGalley) (i : Nat) : Nat :=
  c.base + (if c.cap = 0 then 0 else (g.rptr + i) % c.cap) * c.size

/-- A token written at the write pointer of port `p`. -/
def State.pushToken (s : State) (t p data tag : Nat) : State :=
  let c := s.portCfg t p
  let g := (s.tile t).ports.gal p
  let s := (s.write (.gsram t) (slotAddr c g g.tags.length) (leBytes c.size data) (s.tileMaster t)).2
  s.modGal t p (fun g => { g with tags := g.tags ++ [tag] })

/-- The data of the `i`-th token held at port `p`; none where its slot is uncorrectable. -/
def State.peekToken (s : State) (t p i : Nat) : Option Nat × State :=
  let c := s.portCfg t p
  let r := s.read (.gsram t) (slotAddr c ((s.tile t).ports.gal p) i) c.size (s.tileMaster t)
  (r.1.map leNat, r.2)

/-- The head of a galley moved on by `n` tokens: fewer lie before each frame mark. -/
def TGalley.advance (g : TGalley) (cap n : Nat) : TGalley :=
  { g with rptr := if cap = 0 then 0 else (g.rptr + n) % cap
           tags := g.tags.drop n
           marks := g.marks.map (fun m => { m with before := m.before - n }) }

/-- `n` tokens leave port `p` at its head; an input port returns their credits. -/
def State.popTokens (s : State) (t p n : Nat) : State :=
  let k := min n ((s.tile t).ports.gal p).tags.length
  let s' := s.modGal t p (fun g => g.advance (s.portCfg t p).cap k)
  if p < 8 then (s'.creditBack t p k).lagAt t p else s'

/-- The galley of port `p` emptied with its pointers at the start of bank 0 (R290). -/
def State.emptyGalley (s : State) (t p : Nat) : State :=
  s.modGal t p (fun g => { mismatch := g.mismatch })

/-! ## Packets at a port -/

/-- Slots that a packet of `len` bytes fills (R284). -/
def packetSlots (size pad len : Nat) : Nat := ceilDiv (ceilDiv len size) pad * pad

/-- The length word (Table 12-5). -/
def lengthWord (trunc drop : Bool) (ty len : Nat) : Nat :=
  b2n trunc * 2 ^ 31 + b2n drop * 2 ^ 30 + ty % 64 * 2 ^ 24 + len % 2 ^ 24

/-- Packet progress at an input port after it has landed a token with this data (R285). -/
def TGalley.landed (g : TGalley) (c : PortCfg) (data : Nat) : TGalley :=
  if !c.pkt then g
  else if g.pktLeft = 0 then { g with pktLeft := packetSlots c.size c.pad (data % 2 ^ 24) - 1 }
  else { g with pktLeft := g.pktLeft - 1 }

/-- The rest of the packet in progress at an input port discarded, and whether anything was (R119, R287). -/
def State.dropPacket (s : State) (t p : Nat) : Bool × State :=
  let g := (s.tile t).ports.gal p
  if !(s.portCfg t p).pkt || g.pktLeft = 0 then (false, s)
  else
    let k := min g.pktLeft g.tags.length
    let s := s.popTokens t p k
    (true, s.modGal t p (fun g => { g with dropLeft := g.pktLeft - k, pktLeft := 0 }))

/-- `n` slots of zeros appended at an output port. -/
def State.padSlots (s : State) (t p tag : Nat) : Nat → State
  | 0 => s
  | n + 1 => (s.pushToken t p 0 tag).padSlots t p tag n

/-- The packet being assembled at an output port closed with its length word (R285, R286), and filled up to a multiple of PAD slots
(R284) as far as slots are free (log entry 78). -/
def State.closePacket (s : State) (t p : Nat) (drop : Bool) : State :=
  let c := s.portCfg t p
  let g := (s.tile t).ports.gal p
  let w := lengthWord false drop c.ty (g.asm * c.size)
  let s := (s.write (.gsram t) (slotAddr c g (g.tags.length - g.asm)) (leBytes 4 w) (s.tileMaster t)).2
  let pad := min (s.room t p) (packetSlots c.size c.pad (g.asm * c.size) - g.asm)
  let s := s.padSlots t p (g.tags.getLastD 0) pad
  s.modGal t p (fun g => { g with asm := 0, dropLeft := if drop then c.pktTokens - g.asm else 0 })

/-- One token of a FIRE appended at an output port, with packet assembly (R285); a token of a dropped packet is discarded
(R287). -/
def State.shipToken (s : State) (t p data tag : Nat) : State :=
  let c := s.portCfg t p
  let g := (s.tile t).ports.gal p
  if c.pkt && decide (0 < g.dropLeft) then s.modGal t p (fun g => { g with dropLeft := g.dropLeft - 1 })
  else
    let s := s.pushToken t p data tag
    if c.pkt then
      let s := s.modGal t p (fun g => { g with asm := g.asm + 1 })
      if g.asm + 1 = c.pktTokens then s.closePacket t p false else s
    else s

/-- Tokens of an output port that may be read: all but those of a packet still being assembled (R285). -/
def State.readable (s : State) (t p : Nat) : Nat :=
  let g := (s.tile t).ports.gal p
  g.tags.length - g.asm

/-! ## Landing and shipping by a FIRE (R65) -/

/-- Ring address of the token `i` after the ring pointer. -/
def ringAddr (c : PortCfg) (ring i : Nat) : Nat :=
  c.ringBase + (if c.ringTok = 0 then 0 else (ring + i) % c.ringTok) * c.size

/-- How landing or shipping met an uncorrectable error (R96, R262, R289): a galley slot, or tile SRAM at an offset. -/
inductive MoveErr where
  | slot
  | sram (off : Nat)
deriving DecidableEq, Repr

/-- The first of two errors. -/
def firstErr (a b : Option MoveErr) : Option MoveErr := if a.isSome then a else b

/-- Tokens from the head of port `p` landed in its ring, `n` of them, from ring place `i` on, with the first uncorrectable
error met. -/
def State.landN (s : State) (t p i : Nat) : Nat → Option MoveErr × State
  | 0 => (none, s)
  | n + 1 =>
    let c := s.portCfg t p
    let tag := ((s.tile t).ports.gal p).tags.headD 0
    let d := s.peekToken t p 0
    let v := d.1.getD 0
    let s := d.2
    let off := ringAddr c ((s.tile t).ports.ring.getD p 0) i
    let w := if d.1.isSome then s.write (.sram t) off (leBytes c.size v) (s.tileMaster t) else (true, s)
    let e := if d.1.isNone then some MoveErr.slot else if w.1 then none else some (MoveErr.sram off)
    let s := w.2.popTokens t p 1
    let s := s.modGal t p (fun g => g.landed c v)
    let s := s.modTile t (fun x => { x with ports := { x.ports with inTag := setAt x.ports.inTag p tag } })
    let r := s.landN t p (i + 1) n
    (firstErr e r.1, r.2)

/-- The ring pointer of port `p` advanced by COUNT modulo RING_TOKENS. -/
def State.advanceRing (s : State) (t p : Nat) : State :=
  let c := s.portCfg t p
  s.modTile t (fun x => { x with ports := { x.ports with
    ring := modAt x.ports.ring p (fun r => if c.ringTok = 0 then 0 else (r + c.count) % c.ringTok) } })

/-- One named input port of an issued FIRE: COUNT tokens land, or a loop input port's AVAIL falls by 1 and nothing moves
(R189). -/
def State.landPort (s : State) (t p : Nat) : Option MoveErr × State :=
  if s.isLoopIn t p then
    (none, s.modLoop t p (fun l => { l with avail := l.avail - 1, fired := true }))
  else
    let r := s.landN t p 0 (s.portCfg t p).count
    (r.1, r.2.advanceRing t p)

/-- `n` tokens at the ring pointer of an output port from ring place `i` on, with the first uncorrectable error met. -/
def State.ringTokens (s : State) (t p i : Nat) : Nat → List Nat × Option MoveErr × State
  | 0 => ([], none, s)
  | n + 1 =>
    let c := s.portCfg t p
    let off := ringAddr c ((s.tile t).ports.ring.getD p 0) i
    let r := s.read (.sram t) off c.size (s.tileMaster t)
    let q := r.2.ringTokens t p (i + 1) n
    (leNat (r.1.getD []) :: q.1, firstErr (if r.1.isSome then none else some (.sram off)) q.2.1, q.2.2)

/-- Tokens appended one after another at an output port. -/
def State.shipTokens (s : State) (t p tag : Nat) : List Nat → State
  | [] => s
  | d :: ds => (s.shipToken t p d tag).shipTokens t p tag ds

/-- One named output port of an issued FIRE: COUNT tokens of its ring appended under the port's tag counter (R166); a
failed ring read appends none and leaves pointer and FREE (R96). -/
def State.shipPort (s : State) (t p : Nat) : Option MoveErr × State :=
  let c := s.portCfg t p
  let tag := (s.tile t).ports.outTag.getD (p - 8) 0
  let r := s.ringTokens t p 0 c.count
  let s := r.2.2.modTile t (fun x => { x with ports := { x.ports with
    outTag := modAt x.ports.outTag (p - 8) (fun k => (k + 1) % 16) } })
  let s := s.modLoop t p (fun l => { l with fired := true })
  (r.2.1, if r.2.1.isNone then (s.shipTokens t p tag r.1).advanceRing t p else s)

/-! ## Control tokens -/

/-- The control output of tile `t` as a source. -/
def ctlOut (t : Nat) : Src := .port t 12

/-- The impression that a slot's words at switch `sw` stand for: where the slot holds the switch's tile, that of the tile, or the one
before it until step 5 of Table 9-5 (09 R212). -/
def State.swImp (s : State) (slot sw : Nat) : Nat :=
  let x := (s.slot slot).imp
  let i := (s.tile sw).imp
  if s.tileSlot sw = some slot then (if x.due.contains sw then (i + x.count - 1) % max 1 x.count else i) else x.outer

/-- Whether a control route leaves source `src` in force: the routes of a tile or a steering unit count in the impression that
stands there. -/
def State.ctlFrom (s : State) (src : Src) (r : CtlRoute) : Bool :=
  r.src == src && (match src with
    | .port t _ => r.imp == (s.tile t).imp
    | .steer sw _ => r.imp == s.swImp r.slot sw
    | _ => true)

/-- Whether a control route reaches node `d` in force. -/
def State.ctlAt (s : State) (d : Node) (r : CtlRoute) : Bool :=
  r.dst == d && (match d with
    | .tile t => r.imp == (s.tile t).imp
    | .steer sw _ => r.imp == s.swImp r.slot sw
    | _ => true)

/-- A control token of sub-channel A as its 16 bits: type in [15:12], argument in [11:0] (Table 5-6). -/
def CtlTok.word : CtlTok → Nat
  | .start f => 0x1000 + f % 4096
  | .ticket n => 0x2000 + n % 4096
  | .frameEnd n a => (if a then 0x4000 else 0x3000) + n % 4096
  | .eos f => 0x5000 + f % 4096
  | .steer u v => 0x6000 + u % 16 * 256 + v % 4
  | .tagReset => 0x7000

/-- The token of sub-channel A that 16 bits spell; none for ABORT, which travels on X, and the reserved types (Table 5-6). -/
def ctlTok (w : Nat) : Option CtlTok :=
  let n := bits w 0 12
  match bits w 12 4 with
  | 1 => some (.start n)
  | 2 => some (.ticket n)
  | 3 => some (.frameEnd n false)
  | 4 => some (.frameEnd n true)
  | 5 => some (.eos n)
  | 6 => some (.steer (bits w 8 4) (bits w 0 2))
  | 7 => some .tagReset
  | _ => none

/-- Whether `flip`, the bits of a control token (its parity bit is bit 16) that changed on the way, breaks its parity (R131). -/
def parityBroken (flip : Nat) : Bool := listSum ((List.range 17).map (fun i => b2n (flip.testBit i))) % 2 == 1

/-- A token of sub-channel A as it arrives with `flip` of its bits changed: none where it may not be used (R131). -/
def CtlTok.received (k : CtlTok) (flip : Nat) : Option CtlTok :=
  if flip = 0 then some k else if parityBroken flip then none else ctlTok ((k.word ^^^ flip) % 2 ^ 16)

/-- The ticket of an ABORT as it arrives with `flip` of its bits changed: none where it may not be used (R131). -/
def abortReceived (n flip : Nat) : Option Nat :=
  let w := ((0x8000 + n % 4096) ^^^ flip) % 2 ^ 16
  if flip = 0 then some n else if parityBroken flip ∨ bits w 12 4 ≠ 8 then none else some (bits w 0 12)

/-- A control token sent on sub-channel A of every control route of a source. -/
def State.sendA (s : State) (src : Src) (tok : CtlTok) : State :=
  { s with fab := { s.fab with ctl := s.fab.ctl.map (fun r =>
      if s.ctlFrom src r then { r with a := r.a ++ [tok] } else r) } }

/-- Control tokens sent one after another. -/
def State.sendAll (s : State) (src : Src) (toks : List CtlTok) : State := toks.foldl (fun s k => s.sendA src k) s

/-- An ABORT sent on sub-channel X. -/
def State.sendX (s : State) (src : Src) (ticket : Nat) : State :=
  { s with fab := { s.fab with ctl := s.fab.ctl.map (fun r =>
      if s.ctlFrom src r then { r with x := r.x ++ [ticket] } else r) } }

/-- The control route in force that arrives at input `k` of a node. -/
def State.ctlInto (s : State) (d : Node) (k : Nat) : Option Nat :=
  indexOf? (fun r => r.k == k && s.ctlAt d r) s.fab.ctl

/-- The control inputs of a node. -/
def State.ctlInputs (s : State) (d : Node) : List Nat := (s.fab.ctl.filter (s.ctlAt d)).map (·.k)

/-! ## Frame marks (R38, R134) -/

/-- How many control inputs of tile `t` set their frame marks on port `p` (R134). -/
def State.enders (s : State) (t p : Nat) : Nat :=
  (s.fab.ctl.filter (fun r => s.ctlAt (.tile t) r && r.mask.testBit p)).length

/-- How many tokens at the head of galley `p` belong to the ending frame: those before its last mark, once every input that
marks the port has ended the frame; none while tokens of the frame can still arrive (R129, R134). -/
def State.frameTokens (s : State) (t p : Nat) : Option Nat :=
  let ms := ((s.tile t).ports.gal p).marks
  if s.enders t p ≤ ms.length then (ms.getLast?).map (·.before) else none

/-- The tokens at an input port that the frame at hand may take: none beyond its mark (R38, R134). -/
def State.frameAvail (s : State) (t p : Nat) : Nat :=
  if s.isLoopIn t p then s.avail t p else min (s.avail t p) ((s.frameTokens t p).getD (s.avail t p))

/-- The token at the head of sub-channel A of input `k`. -/
def State.headA (s : State) (d : Node) (k : Nat) : Option CtlTok :=
  match s.ctlInto d k with
  | some i => (s.fab.ctl[i]?).bind (fun r => r.a.head?)
  | none => none

/-- Control route `i` changed. -/
def State.modCtl (s : State) (i : Nat) (f : CtlRoute → CtlRoute) : State :=
  { s with fab := { s.fab with ctl := modAt s.fab.ctl i f } }

/-- The token at the head of sub-channel A of input `k` taken. -/
def State.popA (s : State) (d : Node) (k : Nat) : State :=
  match s.ctlInto d k with
  | some i => s.modCtl i (fun r => { r with a := r.a.drop 1 })
  | none => s

/-- Whether every data token of a source has completed its write handshake at every receiver, so that its frame end may
be sent or taken (R133): nothing to ship, nothing on its lanes to a tile port. -/
def State.delivered (s : State) (src : Src) : Bool :=
  let mine := fun (x : Src) => match src, x with
    | .port t _, .port u _ => t == u
    | a, b => a == b
  s.fab.routes.all (fun r => !(mine r.src && !r.back) || (r.todo.isEmpty && r.recvs.all (fun v =>
    match v.dst with
    | .port _ _ _ => v.lane.isEmpty
    | _ => true)))

/-- Whether a frame end of the source has yet to complete its handshake at some receiver; the source sends no data token
until it has (R133). -/
def State.endPending (s : State) (src : Src) : Bool :=
  s.fab.ctl.any (fun r => s.ctlFrom src r && r.a.any (fun k => match k with
    | .frameEnd _ _ => true
    | _ => false))

end Sys2Proof.Machine
end

