-- ==== Sys2Proof/Machine/Scalar.lean ====
section
/-! DEFINITION. The results of the scalar instructions of Table 3-3 (03_spindle_isa_level1.md R78). They set no flag and
wrap modulo 2^32. -/
namespace Sys2Proof.Machine

/-- The shift amount of a register shift: the low five bits of rs2. -/
def shamt (b : Word) : Nat := b.toNat % 32

/-- MULHS: bits [63:32] of the signed product. -/
def mulhs (a b : Word) : Word := BitVec.ofInt 32 ((a.toInt * b.toInt) / (2 ^ 32 : Nat))

/-- MULHU: bits [63:32] of the unsigned product. -/
def mulhu (a b : Word) : Word := BitVec.ofNat 32 ((a.toNat * b.toNat) / 2 ^ 32)

/-- MIN: the signed minimum. -/
def smin (a b : Word) : Word := if a.toInt ≤ b.toInt then a else b

/-- MAX: the signed maximum. -/
def smax (a b : Word) : Word := if a.toInt ≤ b.toInt then b else a

/-- MINU: the unsigned minimum. -/
def umin (a b : Word) : Word := if a.toNat ≤ b.toNat then a else b

/-- MAXU: the unsigned maximum. -/
def umax (a b : Word) : Word := if a.toNat ≤ b.toNat then b else a

/-- SLT: 1 where rs1 is less, signed. -/
def sltW (a b : Word) : Word := if a.toInt < b.toInt then 1 else 0

/-- SLTU: 1 where rs1 is less, unsigned. -/
def sltuW (a b : Word) : Word := if a.toNat < b.toNat then 1 else 0

/-- imm18 sign-extended to 32 bits (ADDI, LW, SW). -/
def sext18 (imm : BitVec 18) : Word := imm.signExtend 32

/-- imm18 zero-extended to 32 bits (ANDI, ORI, XORI). -/
def zext18 (imm : BitVec 18) : Word := imm.zeroExtend 32

end Sys2Proof.Machine
end

