-- ==== Sys2Proof/Machine/Operands.lean ====
section
/-! DEFINITION. The operand forms of the spindle core: scalar and vector registers (02 R44), address generator draws
(R47, R48), and the offset as a register reports it. -/
namespace Sys2Proof.Machine

/-- What a scalar register reads as; s0 reads 0 (R44). -/
def SCore.sreg (c : SCore) (r : BitVec 4) : Word := if r = 0 then 0 else c.s.getD r.toNat 0

/-- A scalar register written; a write to s0 is discarded (R44, R73). -/
def SCore.setS (c : SCore) (r : BitVec 4) (v : Word) : SCore :=
  if r = 0 then c else { c with s := setAt c.s r.toNat v }

/-- What a vector register reads as. -/
def SCore.vreg (c : SCore) (r : BitVec 3) : Vec := c.v.getD r.toNat 0

/-- A vector register written. -/
def SCore.setV (c : SCore) (r : BitVec 3) (v : Vec) : SCore := { c with v := setAt c.v r.toNat v }

/-- Generator `k`. -/
def SCore.gen (c : SCore) (k : Nat) : Ag := c.ag.getD k {}

/-- Generator `k` replaced. -/
def SCore.setGen (c : SCore) (k : Nat) (a : Ag) : SCore := { c with ag := setAt c.ag k a }

/-- The sum of index times stride over the dimensions. -/
def dotInt : List Nat → List Int → Int
  | i :: is, s :: ss => (i : Int) * s + dotInt is ss
  | _, _ => 0

/-- The offset of the next draw, computed without overflow (R47). -/
def Ag.offset (a : Ag) : Int := (a.base : Int) + dotInt a.i a.s

/-- The indices after a draw, and whether the last of them wrapped (R47). -/
def bumpIdx : List Nat → List Nat → List Nat × Bool
  | i :: is, n :: ns =>
    if i + 1 < n then ((i + 1) :: is, false)
    else
      let r := bumpIdx is ns
      (0 :: r.1, r.2)
  | _, _ => ([], true)

/-- A generator after a draw (R47). -/
def Ag.next (a : Ag) : Ag :=
  let r := bumpIdx a.i a.n
  { a with i := r.1, wrap := a.wrap || r.2 }

/-- The offset of the `k`-th draw from now, and the generator after `n` draws. -/
def Ag.after (a : Ag) : Nat → Ag
  | 0 => a
  | n + 1 => a.next.after n

/-- The offsets of the next `n` draws. -/
def Ag.draws (a : Ag) (n : Nat) : List Int := (List.range n).map (fun k => (a.after k).offset)

/-- Indices 0 and WRAP clear (R51, R82). -/
def Ag.rewind (a : Ag) : Ag := { a with i := [0, 0, 0, 0, 0], wrap := false }

/-- The frame-start configuration that generator `k` of tile `t` takes from its TILE_AGn registers (R51). -/
def State.agConfig (s : State) (t k : Nat) : Ag :=
  let n := fun (f : Fld) => s.rd ((f.idx k).tile t) + 1
  let d := fun (f : Fld) => signed 22 (s.rd ((f.idx k).tile t))
  { base := s.rd ((TILE_AG_BASE_BASE.idx k).tile t)
    n := [n TILE_AG_CNT0_COUNT_M1, n TILE_AG_CNT1_COUNT_M1, n TILE_AG_CNT2_COUNT_M1, n TILE_AG_CNT3_COUNT_M1,
      n TILE_AG_CNT4_COUNT_M1]
    s := [d TILE_AG_STR0_STRIDE, d TILE_AG_STR1_STRIDE, d TILE_AG_STR2_STRIDE, d TILE_AG_STR3_STRIDE,
      d TILE_AG_STR4_STRIDE] }

/-- An offset as TILE_FAULT_ADDR and TILE_AGn_ADDR hold it in bits [30:0] (Tables 2-12 and 2-17). -/
def offsetBits (x : Int) : Nat :=
  if x < 0 then 2 ^ 30 + 2 ^ 29
  else if 0x3FFFFF < x then 2 ^ 30 + 0x3FFFFF
  else x.toNat

/-- Why an access of `n` bytes at an offset is refused (R48): outside tile SRAM, or not aligned to its size. -/
inductive DrawFault where
  | range
  | align
deriving DecidableEq, Repr

/-- The check of R48. -/
def drawCheck (n : Nat) (x : Int) : Option DrawFault :=
  if x < 0 ∨ 0x17FFFF < x then some .range
  else if x.toNat % n ≠ 0 then some .align
  else none

end Sys2Proof.Machine
end

