-- ==== Sys2Proof/Machine/Bus.lean ====
section
/-! DEFINITION. The bus: what lies at an address (00 R1 to R4), readiness (15 R357), access tables and denials (11 R253
to R257), what a register read returns (00 R8, R10), and a plain register write (R8, R9). -/
namespace Sys2Proof.Machine

/-! ## What lies at an address -/

/-- What an access reaches. -/
inductive Place where
  | mem (i : MemId) (off : Nat)
  | reg
  | quoin (i off : Nat)
  | none
deriving DecidableEq, Repr

/-- The place of an access of `n` bytes at `a` (Tables 0-2 and 0-3; R2, R4): registers, program memory and quoins are
reached in aligned words. -/
def place (a n : Nat) : Place :=
  let word := n = 4 ∧ a % 4 = 0
  if a + n ≤ 0x0400000000 then .mem .hbm a
  else if 0x0800000000 ≤ a ∧ a + n ≤ 0x0802000000 then .mem .commons (a - 0x0800000000)
  else if 0x0900000000 ≤ a ∧ a + n ≤ 0x090D000000 then
    let t := (a - 0x0900000000) / 0x200000
    let o := (a - 0x0900000000) % 0x200000
    if o + n ≤ 0x180000 then .mem (.sram t) o
    else if 0x180000 ≤ o ∧ o + n ≤ 0x190000 then .mem (.gsram t) (o - 0x180000)
    else if 0x1FC000 ≤ o ∧ o + n ≤ 0x200000 ∧ word then .mem (.prog t) (o - 0x1FC000)
    else if 0x1F0000 ≤ o ∧ o < 0x1FC000 ∧ word ∧ (regAt a).isSome then .reg
    else .none
  else if 0x0A00000000 ≤ a ∧ a < 0x0A00160000 then (if word ∧ (regAt a).isSome then .reg else .none)
  else if 0x0A10000000 ≤ a ∧ a + n ≤ 0x0A10200000 ∧ word then
    .quoin ((a - 0x0A10000000) / 16) ((a - 0x0A10000000) % 16)
  else .none

/-- The target of an address and the offset within it (Table 11-7). -/
def targetOf (a : Nat) : Nat × Nat :=
  if a < 0x0800000000 then (0, a)
  else if a < 0x0900000000 then (1, a - 0x0800000000)
  else if a < 0x0A00000000 then (32 + (a - 0x0900000000) / 0x200000, (a - 0x0900000000) % 0x200000)
  else if a < 0x0A10000000 then (3 + (a - 0x0A00000000) / 0x10000, (a - 0x0A00000000) % 0x10000)
  else (2, a - 0x0A10000000)

/-- Bytes of a target, for LIMIT (R256). -/
def targetSize (target : Nat) : Nat :=
  if target = 0 then 0x400000000
  else if target = 1 then 0x2000000
  else if target = 2 then 0x200000
  else if target < 25 then 0x10000
  else 0x200000

/-! ## Readiness (R3, R357, R396, R397) -/

/-- STATE of PWR_STATUS. -/
def State.power (s : State) : Nat := s.rd PWR_STATUS_STATE

/-- Whether a switched domain is on. -/
def State.domainOn (s : State) (d : Nat) : Bool := tget (fun _ => false) s.pwr.on d

/-- A switched domain switched on or off. -/
def State.setDomain (s : State) (d : Nat) (on : Bool) : State :=
  { s with pwr := { s.pwr with on := tput (fun _ => false) s.pwr.on d on } }

/-- Whether a unit is marked UNUSABLE in the health map (R403). -/
def State.unusable (s : State) (u : Nat) : Bool := (s.health.units.getD u (1, 0)).1 == 2

/-- Whether tile `t` is under self-test. -/
def State.testing (s : State) (u : Nat) : Bool := s.pwr.testing.contains u

/-- Whether unit `u` is between steps 1 and 7 of Table 17-8: its test waits or runs. -/
def State.inTest (s : State) (u : Nat) : Bool := s.testing u || s.pwr.queue.any (fun e => e.1 == u)

/-- Whether the registers of block `b` may be reached (R357): the block's function is ready. -/
def State.blockReady (s : State) (b : Nat) : Bool :=
  let regs := s.rd SYS_FUNC_READY_REGS == 1
  match b with
  | 0 => true
  | 2 => regs && s.rd SYS_FUNC_READY_TIME == 1
  | 9 => regs && s.rd SYS_FUNC_READY_NET0 == 1
  | 10 => regs && s.rd SYS_FUNC_READY_NET1 == 1
  | 11 => regs && s.rd SYS_FUNC_READY_VDEC == 1 && s.power != 2
  | 12 => regs && s.rd SYS_FUNC_READY_SPORT == 1
  | 13 => regs && s.rd SYS_FUNC_READY_BURL == 1
  | 14 => regs && s.rd SYS_FUNC_READY_USB == 1
  | 15 => regs && s.rd SYS_FUNC_READY_MGMT == 1
  | 21 => regs && s.rd SYS_FUNC_READY_LOADER == 1
  | _ => regs

/-- Whether the pseudo-channels of HBM bytes `a` to `a + n - 1` carry traffic (R246, R249, R397): they take 256 bytes each in turn.
-/
def State.hbmReady (s : State) (a n : Nat) : Bool :=
  let ready := fun x => (s.rd HBMC_CH_READY_READY).testBit (bits x 8 5)
  s.domainOn 124 && (List.range (min 32 ((a + n - 1) / 256 - a / 256 + 1))).all (fun i => ready (a + 256 * i))

/-- Whether the window of tile `t` answers master `m` (R3, R357, R396). -/
def State.tileReady (s : State) (t m : Nat) : Bool :=
  let mc3 := m == s.heaCore && s.inTest t && s.domainOn t
  s.pwr.joined.contains t && (mc3 || (!s.unusable t && s.domainOn t && (s.tile t).st != .parked))

/-- Whether an address exists for an access now, the access tables apart. -/
def State.reachable (s : State) (m a n : Nat) : Bool :=
  match place a n with
  | .none => false
  | .mem .hbm off => s.hbmReady off n
  | .mem .commons _ => s.rd SYS_FUNC_READY_COMMONS == 1 && s.domainOn 123
  | .mem (.sram t) _ => s.tileReady t m
  | .mem (.gsram t) _ => s.tileReady t m
  | .mem (.prog t) _ => s.tileReady t m
  | .mem _ _ => true
  | .quoin _ _ => s.rd SYS_FUNC_READY_REGS == 1
  | .reg =>
    match blockOf a with
    | some b => s.blockReady b
    | none => s.tileReady ((a - 0x0900000000) / 0x200000) m

/-- Whether the role of the core with master ID `m` has a holder (16 R374, 10 R238): the core is neither held in reset nor unusable.
While it has none, the role's own work waits. -/
def State.roleHeld (s : State) (m : Nat) : Bool := s.fw.down != some (m - 0x60) && !s.unusable (128 + (m - 0x60))

/-! ## Access tables (R253 to R257) -/

/-- Entry `e` of a target's table; entry 63 is fixed (R255). -/
def State.accEntry (s : State) (target e : Nat) : AccEnt :=
  if e = 63 then ⟨0xF0006460, 0, targetSize target / 64 - 1⟩
  else tget (fun _ => {}) s.prot.access (target * 64 + e)

/-- Whether an entry grants master `m` the right at bit `right` of E0 over `n` bytes from `off` (R254). -/
def AccEnt.grants (e : AccEnt) (m off n right : Nat) : Bool :=
  bit e.e0 31 && bit e.e0 right && decide (bits e.e0 0 8 ≤ m) && decide (m ≤ bits e.e0 8 8) &&
  decide (e.e1 * 64 ≤ off) && decide (off + n ≤ (e.e2 + 1) * 64)

/-- The bit of the R right. -/
def rightR : Nat := 30
/-- The bit of the W right. -/
def rightW : Nat := 29

/-- Whether some entry grants the access (R254); none does for a tile that no slot holds, which has no master ID (R253). -/
def State.granted (s : State) (m a n right : Nat) : Bool :=
  let t := targetOf a
  m != 0xFF && (List.range 64).any (fun e => (s.accEntry t.1 e).grants m t.2 n right)

/-- A denial recorded, counted and reported (R257). -/
def State.deny (s : State) (m a right : Nat) : State :=
  let t := (targetOf a).1
  let s := if s.rd ACCESS_DENY_INFO_VALID = 0 then
      let s := (s.wr ACCESS_DENY_INFO_VALID 1).wr ACCESS_DENY_INFO_TARGET t
      let s := (s.wr ACCESS_DENY_INFO_MASTER m).wr ACCESS_DENY_INFO_KIND (if right = rightR then 0 else 1)
      (s.wr ACCESS_DENY_ADDR_LO_ADDR (a % 2 ^ 32)).wr ACCESS_DENY_ADDR_HI_ADDR (a / 2 ^ 32)
    else s.wr ACCESS_DENY_INFO_OVERFLOW 1
  let s := s.inc ACCESS_DENY_COUNT_COUNT
  s.raiseOnce (0x2000 + t) 1000000 EV_ACCESS_DENIED (srcBlock 7) t m a

/-- Whether master `m` may make an access of `n` bytes at `a`: it exists now, and an entry grants it; a denial is
recorded. -/
def State.accessCheck (s : State) (m a n right : Nat) : Bool × State :=
  if !s.reachable m a n then (false, s)
  else if s.granted m a n right then (true, s)
  else (false, s.deny m a right)

/-! ## Register copies and values -/

/-- The network port of a NET block address. -/
def netOf (a : Nat) : Nat := if 0x0A000A0000 ≤ a then 1 else 0

/-- The copy of a register that master `m` reaches (R252, R256 and the other select registers). -/
def State.copyOf (s : State) (m : Nat) (b : RBank) (a : Nat) : Nat :=
  let c := 1 + m
  match b with
  | .none => 0
  | .master => c
  | .ctx => 1 + s.rdc c CTX_SEL_CTX
  | .ictx => 1 + s.rdc c NET_CTX_SEL_CTX
  | .galley => 1 + galKey (s.rdc c STREAM_GSEL_KIND) (if s.rdc c STREAM_GSEL_KIND = 0 then s.rdc c STREAM_GSEL_TILE else 0)
      (s.rdc c STREAM_GSEL_NUM)
  | .netRes => 1 + s.rdc c (NET_RES_SEL_GALLEY.net (netOf a))
  | .link => 1 + s.rdc c (NET_ADDR_SEL_LINK.net (netOf a))
  | .queue => 1 + s.rdc c BURL_QSEL_QUEUE
  | .spRes => 1 + s.rdc c SPORT_RES_SEL_GALLEY
  | .ctxRes => 1 + s.rdc c CTX_RES_SEL_GALLEY

/-- The index of an address in an array of `n` registers that a field lies in. -/
def ix (f : Fld) (n a : Nat) : Option Nat :=
  if f.addr ≤ a ∧ (a - f.addr) % f.stride = 0 ∧ (a - f.addr) / f.stride < n then some ((a - f.addr) / f.stride)
  else none

/-- STATE of TILE_STATUS (Table 2-7). -/
def TileSt.code : TileSt → Nat
  | .idle => 0
  | .waitFrame => 1
  | .running => 2
  | .stalled => 3
  | .draining => 4
  | .halted => 5
  | .parked => 6

/-- The ports a FIRE names, g0 first. -/
def firePorts (f : FireOp) : List Nat :=
  (List.range 12).filter (fun p => if p < 8 then f.inp.toNat.testBit p else f.out.toNat.testBit (p - 8))

/-- Whether a port lacks tokens of the frame at hand, or room, for a FIRE (R38, R64). -/
def State.lacks (s : State) (t p : Nat) : Bool :=
  if s.isLoopIn t p then s.avail t p == 0
  else decide ((if p < 8 then s.frameAvail t p else s.room t p) < (s.portCfg t p).count)

/-- TILE_STATUS of tile `t`; STATE is PARKED from step 7 of Table 17-8 on. -/
def State.tileStatus (s : State) (t : Nat) : Nat :=
  let x := s.tile t
  let w := match x.core.waiting with
    | some (.fire _ f) => (firePorts f).find? (s.lacks t)
    | _ => none
  let st := if x.st == .parked && s.inTest t && s.domainOn t then x.back else x.st
  st.code + (match w with
    | some p => p * 2 ^ 12 + (if p < 8 then 0 else 2 ^ 11)
    | none => 15 * 2 ^ 12) + x.core.pc % 4096 * 2 ^ 16

/-- The tiles a slot holds. -/
def State.heldBy (s : State) (k : Nat) : List Nat := (List.range 104).filter (fun t => s.tileSlot t == some k)

/-- The word with the bits of the listed numbers, counted from `lo`. -/
def bitsOf (lo : Nat) (l : List Nat) : Nat :=
  (List.range 32).foldl (fun v i => v + (if l.contains (lo + i) then 2 ^ i else 0)) 0

/-- Committed power in units of 0.05 W (R394). -/
def State.committed (s : State) : Nat :=
  let role := fun e => s.rd LOAD_FE_ROLE_INPUT == e || s.rd LOAD_FE_ROLE_OUTPUT == e
  let up := s.rd SYS_FUNC_READY_FACING == 1
  80 + listSum ((List.range 3).map (fun e => if up && role e then 60 else 0)) +
  listSum ((List.range 16).map (fun d => if s.domainOn (107 + d) then 15 else 0)) +
  (if s.domainOn 123 then 40 else 0) + (if s.domainOn 124 then 200 else 0) +
  (if s.domainOn 125 then 80 else 0) + (if s.domainOn 126 then 80 else 0) +
  (if s.domainOn 127 then 40 else 0) +
  listSum (s.slots.map (fun k => if 2 ≤ k.st then k.power else 0))

/-- Bytes that an ingress or result galley holds, the packet being assembled included (R288). -/
def CGalley.level (g : CGalley) : Nat :=
  listSum (g.pkts.map (fun p => 4 * p.slots - p.drained)) + (match g.asm with
    | some a => 4 * ceilDiv a.len 4
    | none => 0) + g.raw

/-- Galley of kind 1 or 2. -/
def State.cgal (s : State) (kind n : Nat) : CGalley := if kind = 1 then s.ing.getD n {} else s.res.getD n {}

/-- Galley of kind 1 or 2 changed. -/
def State.modCgal (s : State) (kind n : Nat) (f : CGalley → CGalley) : State :=
  if kind = 1 then { s with ing := modAt s.ing n f } else { s with res := modAt s.res n f }

/-- S_dev(k) of stepping B1 (Table 10-2). -/
def stepTable (k : Nat) : Nat := [1, 2, 6, 1, 1, 2, 2, 2, 3, 2, 1, 2, 4, 1, 4, 2].getD k 0

/-- A read-only bus register over an engine's state (Table 12-8). -/
def State.engView (s : State) (e off : Nat) (stored : Nat) : Option Nat :=
  let x := s.engine e
  let d := x.batchAddr + 32 * x.bi
  let i := fun k => x.idx.getD k 0
  match off with
  | 0x04 => some ((match x.held with
      | some k => 2 ^ 31 + k * 2 ^ 28
      | none => 0) + bits stored 16 1 * 2 ^ 16 + x.err * 2 ^ 8 + x.st)
  | 0x1C => some (d % 2 ^ 32)
  | 0x20 => some (d / 2 ^ 32)
  | 0x24 => some x.i0
  | 0x28 => some (i 1 * 2 ^ 16 + i 0)
  | 0x2C => some (i 3 * 2 ^ 16 + i 2)
  | 0x30 => some x.done
  | _ => none

/-- A galley register whose truth lies elsewhere than in the register (Tables 12-10 and 12-11). -/
def State.galView (s : State) (c a stored : Nat) : Option Nat :=
  let kind := (c - 1) / 65536
  let t := (c - 1) / 256 % 256
  let n := (c - 1) % 256
  if a = STREAM_GCFG_EN.addr ∧ kind = 0 then
    some (setBits stored 30 1 (s.rd ((TILE_GCFG_EN.idx n).tile t)))
  else if a = STREAM_GSIZE_CAP_KIB.addr ∧ kind = 0 then
    some (s.rd ((TILE_GCFG_CAP_KIB.idx n).tile t) * 2 ^ 16 + s.rd ((TILE_GCFG_BASE_KIB.idx n).tile t))
  else if a = STREAM_GSTAT_LEVEL.addr then
    if kind = 0 then
      let g := (s.tile t).ports.gal n
      some (b2n g.mismatch * 2 ^ 31 + (if 0 < g.asm then 2 ^ 16 else 0) + g.tags.length * (s.portCfg t n).size)
    else
      let g := s.cgal kind n
      some (b2n g.mismatch * 2 ^ 31 + b2n g.xoff * 2 ^ 17 + b2n (g.asm.any (fun a => decide (0 < a.len))) * 2 ^ 16 + g.level)
  else none

/-- The first of several choices that is there. -/
def firstSome {α : Type} : List (Option α) → Option α
  | [] => none
  | some x :: _ => some x
  | none :: l => firstSome l

/-- A tile register whose truth lies in the tile (Tables 2-7, 2-16 and 2-17). -/
def State.tileView (s : State) (a : Nat) : Option Nat :=
  let t := (a - 0x0900000000) / 0x200000
  let b := 0x0900000000 + (a - 0x0900000000) % 0x200000
  firstSome [
    if b = TILE_STATUS_STATE.addr then some (s.tileStatus t) else none,
    (ix TILE_GLEV_LEVEL 12 b).map (s.level t),
    (ix TILE_AG_ADDR_OFFSET 4 b).map (fun k =>
      let g := (s.tile t).core.gen k
      b2n g.wrap * 2 ^ 31 + offsetBits g.offset)]

/-- SP_XOFF_OUT (14 R321): high while the port is not enabled or not aligned, its domain is off, or a destination that an enabled
channel names is in its XOFF state. -/
def State.xoffOut (s : State) : Bool :=
  s.rd SPORT_CFG_EN == 0 || s.rd SPORT_STATUS_ALIGNED == 0 || !s.domainOn 127 ||
  (List.range 16).any (fun c => s.rd (SPORT_CH_EN.idx c) == 1 &&
    (if s.rd (SPORT_CH_DEST.idx c) = 0 then (s.cgal 1 (s.rd (SPORT_CH_GALLEY.idx c))).xoff
     else (s.burl.q.getD (s.rd (SPORT_CH_QUEUE.idx c)) {}).xoff))

/-- Whether a decoder holds unit `i` (number × 4096 + context): it has been released, or its NAL units are handed over early (13 R302,
R304). -/
def State.decReady (s : State) (i : Nat) : Bool :=
  let g := (s.ctx (i % 4096)).ing
  g.early == some (i / 4096) || g.aus.any (fun (u : Au) => u.seq == i / 4096)

/-- The unit that decoder `d` is at: the first of its queue that it holds. -/
def State.decNext (s : State) (d : Nat) : Option Nat := (s.decQ.getD d []).find? s.decReady

/-- What a register outside the tiles reads as where its truth lies elsewhere in State: copy `c` at address `a` for master
`m`, its stored word given. -/
def State.view (s : State) (m c a stored : Nat) : Option Nat :=
  let x := s.ctx (c - 1)
  let on := fun (f : Fld) (v : Nat) => if a = f.addr then some v else none
  firstSome [
    on TIME_NOW_LO_NS_LO (s.now % 2 ^ 32),
    on TIME_NOW_HI_NS_HI (s.reg (1 + m) a),
    (ix GOV_STEP_STEPS 16 a).map stepTable,
    on GOV_CTX_LMIN_NS (
      let y := s.ctx (s.rd GOV_CTX_SEL_CTX)
      if y.st = 0 then 0 else min (s.slot y.slot).lmin 0xFFFFFFFF),
    on QUOIN_WAITERS_SLOTS s.quoins.waits.length,
    on REGION_ENTRY_P (tget (fun _ => 0) s.prot.region (s.rdc (1 + m) REGION_SEL_INDEX)).toNat,
    on REGION_SUB_P (tget (fun _ => 0) s.prot.sub
      (s.rdc (1 + m) REGION_SUBSEL_TABLE * 32 + s.rdc (1 + m) REGION_SUBSEL_SUB)).toNat,
    if 0x0A00080000 ≤ a ∧ a < 0x0A00080900 then
      s.engView ((a - 0x0A00080000) / 0x40) ((a - 0x0A00080000) % 0x40) stored
    else none,
    if 0x0A00081000 ≤ a ∧ a < 0x0A00081100 then s.galView c a stored else none,
    (ix NET_PTP_RXQ_COUNT 1 (if netOf a = 1 then a - 0x10000 else a)).map (fun _ =>
      (s.port (netOf a)).rxCount * 2 ^ 16 + (s.port (netOf a)).head),
    on NET_CTX_STATE_STATE x.ing.st,
    on VDEC_BUSY_BUSY (bitsOf 0 ((List.range 16).filter (fun d => (s.decNext d).isSome))),
    on USB_STATUS_SESSION (setBits stored 31 1 (b2n s.host.usb.isOpen)),
    on MGMT_STATUS_SESSION (setBits stored 0 1 (b2n s.host.mgmt.isOpen)),
    on MGMT_MAC_LO_MAC (s.otp.mac % 2 ^ 32),
    on MGMT_MAC_HI_MAC (s.otp.mac / 2 ^ 32 % 2 ^ 16),
    on SEC_LIFECYCLE_RETURNED (s.otp.returned % 2 + popCount 64 s.otp.rollback * 2 ^ 8),
    (ix SEC_UID_UID 4 a).map (fun i => bits s.otp.uid (32 * i) 32),
    on BIST_UNIT_STATE (
      let u := s.health.units.getD (s.rdc (1 + m) BIST_UNIT_SEL_UNIT) (1, 0)
      u.1 + u.2 * 4),
    on BIST_ACTIVE_TILES (s.pwr.testing.filter (fun u => decide (u < 104))).length,
    on PWR_COMMITTED_COMMITTED s.committed,
    (ix PWR_DOMAIN_ON 4 a).map (fun i => bitsOf (32 * i) ((List.range 128).filter s.domainOn)),
    on CTX_STATUS_STATE (setBits (setBits stored 28 2 x.st) 16 12 (if x.st = 0 then 0 else x.fidx)),
    on CTX_IN_QUOIN_INDEX x.inQ,
    on CTX_FREE_QUOIN_INDEX x.freeQ,
    on CTX_PICBASE_LO_ADDR (x.base % 2 ^ 32),
    on CTX_PICBASE_HI_ADDR (x.base / 2 ^ 32),
    on LOAD_SLOT_STATE_STATES (listSum ((List.range 8).map (fun k => (s.slot k).st * 2 ^ (4 * k)))),
    (ix LOAD_TILE_MAP_TILES 4 a).map (fun i => bitsOf (32 * i) (s.heldBy (s.rd LOAD_CTRL_SLOT))),
    on LOAD_SW_DATA_WORD
      (tget (fun _ => 0) s.fab.sw (s.rd LOAD_SW_SEL_SWITCH * 256 + s.rd LOAD_SW_SEL_INDEX)).toNat,
    on LOAD_FE_STATUS_BUSY (
      (if s.face.sending.isSome then 2 ^ s.rd LOAD_FE_ROLE_INPUT % 8 else 0) +
      (if s.face.out.order ≠ [] then 2 ^ s.rd LOAD_FE_ROLE_OUTPUT % 8 else 0) +
      listSum ((List.range 3).map (fun e => if s.unusable (104 + e) then 2 ^ (8 + e) else 0))),
    (ix LOAD_IMP_STATUS_MULTI 8 a).map (fun k =>
      let z := s.slot k
      let held := (s.heldBy k).map (fun t => (s.tile t).imp)
      if z.multi ∧ 2 ≤ z.st then
        2 ^ 31 + z.imp.phase * 2 ^ 24 + z.imp.round.length * 2 ^ 16 + listMax held * 2 ^ 8 + listMin 0 held
      else 0),
    on SPORT_STATUS_XOFF_OUT (setBits stored 5 1 (b2n s.xoffOut)),
    on BURL_STATUS_STATE (stored + s.burl.st + listSum ((List.range 4).map (fun g => s.io.bank.getD g 0 * 2 ^ (16 + 2 * g)))),
    on BURL_QSTAT_LEVEL (b2n (s.burl.q.getD (c - 1) {}).xoff * 2 ^ 31 + (s.burl.q.getD (c - 1) {}).level),
    on BURL_IOIN_IN (listSum ((List.range 32).map (fun i =>
      if (s.io.filt.getD i false) != (s.rd (BURL_IO_INV.idx i) == 1) then 2 ^ i else 0)))]

/-- The value that a read of register `r` at `a` by master `m` returns (R8). -/
def State.regValue (s : State) (m : Nat) (r : RegD) (a : Nat) : Nat :=
  let c := s.copyOf m r.bank a
  let stored := s.reg c a
  let v := if a < 0x0A00000000 then s.tileView a else s.view m c a stored
  v.getD stored

/-- What a read changes: an RC field is cleared (R8, R10), and TIME_NOW_LO latches the upper word for its master (Table
10-17). -/
def State.regAfterRead (s : State) (m : Nat) (r : RegD) (a : Nat) : State :=
  let c := s.copyOf m r.bank a
  let rc := r.fields.filter (fun f => f.acc == .rc)
  let s := if rc.isEmpty then s
    else s.setReg c a (rc.foldl (fun v f => setBits v f.lo (f.hi - f.lo + 1) 0) (s.reg c a))
  if a = TIME_NOW_LO_NS_LO.addr then s.setReg (1 + m) TIME_NOW_HI_NS_HI.addr (s.now / 2 ^ 32 % 2 ^ 32) else s

/-- A register read by master `m`, granted already. -/
def State.regRead (s : State) (m a : Nat) : Nat × State :=
  match regAt a with
  | some r => (s.regValue m r a, s.regAfterRead m r a)
  | none => (0, s)

/-! ## A plain register write (R8, R9) -/

/-- A field's bits of a word. -/
def FieldD.of (f : FieldD) (v : Nat) : Nat := bits v f.lo (f.hi - f.lo + 1)

/-- Whether a word may be written to a register: reserved bits 0, every RW and WO field in its documented range or at its
reset value (R9). -/
def RegD.accepts (r : RegD) (v : Nat) : Bool :=
  decide (r.fields.foldl (fun w f => setBits w f.lo (f.hi - f.lo + 1) 0) v = 0) &&
  r.fields.all (fun f =>
    match f.acc with
    | .rw => (decide (f.least ≤ f.of v) && decide (f.of v ≤ f.most)) || f.of v == f.reset
    | .wo => (decide (f.least ≤ f.of v) && decide (f.of v ≤ f.most)) || f.of v == f.reset
    | _ => true)

/-- The word that a write leaves in a register whose value is `old` (R8): a WO field triggers and holds nothing. -/
def RegD.written (r : RegD) (old v : Nat) : Nat :=
  r.fields.foldl (fun w f =>
    let n := f.hi - f.lo + 1
    match f.acc with
    | .rw => setBits w f.lo n (f.of v)
    | .w1c => setBits w f.lo n ((f.of w) - (f.of w).land (f.of v))
    | .w1s => setBits w f.lo n ((f.of w).lor (f.of v))
    | _ => w) old

/-- The fields set by a write that is accepted, without any further effect. -/
def State.setFields (s : State) (m a v : Nat) : State :=
  match regAt a with
  | some r =>
    let c := s.copyOf m r.bank a
    s.setReg c a (r.written (s.reg c a) v)
  | none => s

/-- Whether register `a` accepts the word (R9). -/
def regAccepts (a v : Nat) : Bool :=
  match regAt a with
  | some r => r.accepts v
  | none => false

/-- A refused write: a bus error, and REG_WRITE_REFUSED (R9, R426). -/
def State.refuse (s : State) (m a : Nat) : State :=
  let src := match blockOf a with
    | some b => srcBlock b
    | none => srcTile ((a - 0x0900000000) / 0x200000)
  (s.raise EV_REG_WRITE_REFUSED src m 0 a).answer .refused

/-- A register write by master `m` whose effect beyond the checks of R2 to R4, R254 and R9 is `act`: it answers false where
the register's own rule refuses the write. -/
def State.writeCmd (s : State) (m a v : Nat) (act : State → Bool × State) : State :=
  let g := s.accessCheck m a 4 rightW
  if !g.1 then g.2.answer .busError
  else if place a 4 ≠ .reg then g.2.answer .busError
  else if !regAccepts a v then g.2.refuse m a
  else
    let r := act g.2
    if r.1 then r.2.answer (.ok []) else r.2.refuse m a

end Sys2Proof.Machine
end

