-- ==== Sys2Proof/Machine/Fault.lean ====
section
/-! DEFINITION. Stage faults and what follows from them: the abort of a frame at a tile (01 R41, 05 R134, R136, 08 R189,
R190), the fault record and its event (02 R69), the scan of the faulting tile (09 R217), and a unit that becomes unusable
(17 R403, 01 R35). -/
namespace Sys2Proof.Machine

/-! ## Frames in flight -/

/-- The frame in flight that bears a ticket (R132: no two do). -/
def State.flightOf (s : State) (ticket : Nat) : Option Flight := s.adm.flights.find? (fun f => f.ticket == ticket)

/-- The frame in flight that bears a ticket changed. -/
def State.modFlight (s : State) (ticket : Nat) (f : Flight → Flight) : State :=
  { s with adm := { s.adm with flights := s.adm.flights.map (fun x => if x.ticket = ticket then f x else x) } }

/-- The first cause of an abort recorded against the ticket (13 R313). -/
def State.recordCause (s : State) (ticket cause : Nat) : State :=
  s.modFlight ticket (fun f => { f with aborted := true, cause := if f.cause = 0 then cause else f.cause })

/-- The device context of a forme context index, by the slot's index table (R37). -/
def State.ctxOf (s : State) (slot fidx : Nat) : Option Nat := tget (fun _ => none) (s.slot slot).fidx fidx

/-- The slot named by TILE_CFG.SLOT. -/
def State.cfgSlot (s : State) (t : Nat) : Nat := s.rd (TILE_CFG_SLOT.tile t)

/-- ARG0 of an event about the frame that tile `t` holds (R69). -/
def State.frameArg (s : State) (t : Nat) : Nat :=
  match (s.tile t).ctl.frame with
  | some f => tickCtx f.ticket ((s.ctxOf (s.cfgSlot t) f.fidx).getD 0)
  | none => 2 ^ 31

/-! ## The abort of the frame that a tile holds -/

/-- The frame's tokens at input port `p` discarded, with their credits returned (R130, R136). -/
def State.discardInput (s : State) (t p : Nat) : State :=
  if s.isLoopIn t p then s
  else
    let s := s.popTokens t p ((s.frameTokens t p).getD ((s.tile t).ports.gal p).tags.length)
    s.modGal t p (fun g => { g with pktLeft := 0, dropLeft := 0 })

/-- A partly written output packet dropped (R41). -/
def State.dropAsm (s : State) (t p : Nat) : State :=
  s.modGal t p (fun g => { g with tags := g.tags.take (g.tags.length - g.asm), asm := 0, dropLeft := 0 })

/-- The reset token of a loop (R189, R190): CONTEXT, zero, and the loop's initial image; image bytes that the tile cannot
read are FREE (log entry 2). -/
def State.resetToken (s : State) (t p fidx : Nat) : Nat × State :=
  let r := s.read (.sram t) ((s.tile t).ports.loopAt p).image 64 (s.tileMaster t)
  match r.1 with
  | some b => (leNat (leBytes 2 fidx ++ [0, 0] ++ b.drop 4), r.2)
  | none =>
    let f := r.2.takeFree
    (fidx % 2 ^ 16 + f.1 % 2 ^ 480 * 2 ^ 32, f.2)

/-- What a loop port owes settled as far as it can be: reductions of an input port with AVAIL of at least 1, a reset token of
an output port with FREE of at least 1 (R189, R190). -/
def State.payLoop (s : State) (t p : Nat) : State :=
  let l := (s.tile t).ports.loopAt p
  if p < 8 then
    let k := min l.owed l.avail
    s.modLoop t p (fun l => { l with avail := l.avail - k, owed := l.owed - k })
  else
    match l.resets with
    | [] => s
    | fidx :: rest =>
      if 1 ≤ s.room t p then
        let d := s.resetToken t p fidx
        let s := d.2.pushToken t p d.1 ((s.tile t).ports.outTag.getD (p - 8) 0)
        s.modLoop t p (fun l => { l with resets := rest })
      else s

/-- Every loop port of a tile settled. -/
def State.payLoops (s : State) (t : Nat) : State := (List.range 12).foldl (fun s p => s.payLoop t p) s

/-- What an abort leaves due at a loop port that no FIRE of the frame has named yet. -/
def LoopPort.aborted (l : LoopPort) (p fidx : Nat) : LoopPort :=
  if !l.on || l.fired then l
  else if p < 8 then { l with owed := l.owed + 1, fired := true }
  else { l with resets := l.resets ++ [fidx], fired := true }

/-- The frame that tile `t` holds aborted there (R41, R136): a waiting instruction is abandoned, copier jobs cancelled
(R179), the frame's input tokens and a partly written packet discarded, loop ports settled; the tile then discards until
the frame's end. -/
def State.abortHere (s : State) (t : Nat) : State :=
  match (s.tile t).ctl.frame with
  | some f =>
    if f.aborted then s
    else
      let s := s.dropWaits (.tile t)
      let s := s.modTile t (fun x => { x with
        st := if x.st = .halted then .halted else .draining
        back := if x.st = .halted then .draining else x.back
        core := { x.core with waiting := none, loops := [], loopDue := false }
        jobs := []
        ctl := { x.ctl with frame := some { f with aborted := true } } })
      let s := (List.range 8).foldl (fun s p => s.discardInput t p) s
      let s := [8, 9, 10, 11].foldl (fun s p => s.dropAsm t p) s
      let s := (List.range 12).foldl (fun s p => s.modLoop t p (fun l => l.aborted p f.fidx)) s
      s.payLoops t
  | none => s

/-! ## The scan of a faulting tile (R217) -/

/-- Whether an area of `n` bytes may be written by the management cores: wholly in HBM, and granted (R146). -/
def State.areaOk (s : State) (a n : Nat) : Bool :=
  decide (a + n ≤ 0x0400000000) && s.hbmReady a n && s.granted s.admCore a n rightW

/-- The record of Table 9-6. -/
def State.scanRecord (s : State) (t : Nat) : List Byte :=
  let x := s.tile t
  let ticket := (x.ctl.frame.map (·.ticket)).getD 0
  let fslot := ((s.flightOf ticket).bind (·.fslot)).getD 0
  let base := 0x0900000000 + 0x200000 * t + 0x1F0000
  leBytes 4 0x4E414353 ++ leBytes 1 (s.cfgSlot t) ++ leBytes 1 x.imp ++ leBytes 2 t ++ leBytes 8 s.now ++
  leBytes 2 fslot ++ leBytes 2 ticket ++ zeros 236 ++
  (List.range 128).flatMap (fun i => leBytes 4 (match regAt (base + 4 * i) with
    | some r => s.regValue s.admCore r (base + 4 * i)
    | none => 0)) ++
  (List.range 256).flatMap (fun i => leBytes 4 (tget (fun _ => 0) s.fab.sw (t * 256 + i)).toNat) ++
  zeros 256 ++ x.gsram.bytesAt 0 65536

/-- The scan taken on the first stage fault of the armed slot. -/
def State.faultScan (s : State) (t : Nat) : State :=
  if s.rd LOAD_IMP_CTRL_FAULT_SCAN = 1 ∧ s.tileSlot t = some (s.rd LOAD_IMP_CTRL_SCAN_SLOT) then
    let a := s.rd LOAD_IMP_SCAN_LO_ADDR * 64 + s.rd LOAD_IMP_SCAN_HI_ADDR * 2 ^ 32
    let ok := s.areaOk a 67584
    let s := if ok then (s.write .hbm a (s.scanRecord t) s.admCore).2 else s
    let s := s.wr LOAD_IMP_CTRL_FAULT_SCAN 0
    s.raise EV_IMPRESSION_SCAN_DONE s.admCore t 0 (if ok then a else 0)
  else s

/-! ## The stage fault (R69) -/

/-- Step 1: the first fault is recorded until software clears VALID, a later one sets OVERFLOW. Execution that passes word 4,095
(R85) shows PC 0, as 4,096 does not fit the 12-bit field: the model's choice (log entry 68). -/
def State.recordFault (s : State) (t pc code : Nat) (addr : Option Int) : State :=
  if s.rd (TILE_FAULT_VALID.tile t) = 1 then s.wr (TILE_FAULT_OVERFLOW.tile t) 1
  else
    let s := (s.wr (TILE_FAULT_VALID.tile t) 1).wr (TILE_FAULT_CODE.tile t) code
    let s := s.wr (TILE_FAULT_PC_PC.tile t) pc
    s.setReg 0 (TILE_FAULT_ADDR_OFFSET.tile t).addr (match addr with
      | some x => 2 ^ 31 + offsetBits x
      | none => 0)

/-- Step 2: the event. -/
def State.faultEvent (s : State) (t pc code : Nat) (addr : Option Int) : State :=
  s.raise (0x200 + code) (srcTile t) (s.frameArg t)
    (pc % 4096 + s.cfgSlot t % 8 * 2 ^ 16 + (s.tile t).logical % 128 * 2 ^ 24)
    (match addr with
    | some x => 2 ^ 31 + offsetBits x
    | none => 0)

/-- Step 3: ABORT for the frame that the tile holds, once, and the abort at the tile itself. -/
def State.faultAbort (s : State) (t code : Nat) : State :=
  match (s.tile t).ctl.frame with
  | some f =>
    let s := s.recordCause f.ticket (0x200 + code)
    if f.aborted then s else (s.sendX (ctlOut t) f.ticket).abortHere t
  | none => s

/-! ## Units that become unusable (R403) and tiles lost (R35) -/

/-- The impression state of a slot changed. -/
def State.modImp (s : State) (k : Nat) (f : ImpSt → ImpSt) : State := s.modSlot k (fun x => { x with imp := f x.imp })

/-- A resident slot stops, or drains for its re-lock where its AUTO_RELOCK is 1 (R35). -/
def State.stopOrRelock (s : State) (k : Nat) : State :=
  if (s.slot k).st = 2 then
    s.modSlot k (fun x => if x.autoRelock then { x with st := 3, relock := true } else { x with st := 4 })
  else s

/-- Every frame of a slot's round aborted; the array carries the round no further (09 R214, R215). A cause of 0 records none. -/
def State.loseRound (s : State) (k cause : Nat) : State :=
  let s := ((s.slot k).imp.round.map (·.1)).foldl (fun (s : State) n => s.recordCause n cause) s
  s.modImp k (fun i => { i with lost := true, round := i.round.map (fun e => (e.1, true)) })

/-- A tile of a slot has become unusable: its frame is aborted, in a forme of several impressions the whole round (09 R214);
FORME_TILE_LOST is raised, and a resident slot stops or drains for its re-lock. A slot that is still being loaded is left to the
loader (R30). -/
def State.tileLost (s : State) (t : Nat) : State :=
  match s.tileSlot t with
  | some k =>
    if (s.slot k).st < 2 then s
    else
      let s := match (s.tile t).ctl.frame with
        | some f => if f.aborted then s else (s.sendX (ctlOut t) f.ticket).abortHere t
        | none => s
      let s := if (s.slot k).multi then s.loseRound k 0 else s
      (s.raise EV_FORME_TILE_LOST s.admCore k t 0).stopOrRelock k
  | none => s

/-- The tiles counted in SYS_FUNC_READY.TILES: those that have joined and are not unusable (R357). -/
def State.usableTiles (s : State) : Nat := (s.pwr.joined.filter (fun t => !s.unusable t)).length

/-- A bit of SYS_FUNC_READY cleared as its function is lost, with FUNC_READY (R357). -/
def State.funcLost (s : State) (b : Nat) : State :=
  let w := s.reg 0 SYS_FUNC_READY_REGS.addr
  if bit w b then (s.setReg 0 SYS_FUNC_READY_REGS.addr (setBits w b 1 0)).raise EV_FUNC_READY (srcBlock 0) b 0 0 else s

/-- The functions that are lost with unit `u`: VDEC with the last decoder, commons and HBM with theirs. A network port whose SerDes
fails keeps its registers, as a nonzero MODE is refused there (Table 17-7). -/
def State.functionsLost (s : State) (u : Nat) : State :=
  if 107 ≤ u ∧ u < 123 then
    if (List.range 16).all (fun d => s.unusable (107 + d)) then s.funcLost 10 else s
  else if u = 123 then s.funcLost 5
  else if u = 124 then (s.funcLost 3).funcLost 4
  else s

/-- Unit `u` marked UNUSABLE for life, with what follows for a tile; other units' spares are handled where they fail. -/
def State.markUnusable (s : State) (u cause : Nat) : State :=
  if s.unusable u then s
  else
    let s := { s with health := { s.health with units := setAt s.health.units u (2, cause), mapDue := true } }
    let s := s.raise EV_UNIT_UNUSABLE s.heaCore u cause 0
    if u < 104 then
      let s := s.wr SYS_FUNC_READY_TILES s.usableTiles
      let s := if ((List.range 104).filter (fun t => !s.unusable t)).length < 96 then
          s.raise EV_HEALTH_BELOW_GUARANTEE s.heaCore 0 0 0
        else s
      s.tileLost u
    else if 107 ≤ u ∧ u < 123 then (s.raise EV_DEC_FAULT (0x40 + (u - 107)) 0 0 0).functionsLost u
    else s.functionsLost u

/-- A stage fault with code `code` of Table 2-6 at program counter `pc`, its offset where there is one. -/
def State.stageFaultAt (s : State) (t pc code : Nat) (addr : Option Int) : State :=
  let s := ((s.recordFault t pc code addr).faultEvent t pc code addr).faultScan t
  let s := s.faultAbort t code
  if code = 7 then
    (s.modTile t (fun x => { x with st := .halted, back := .waitFrame })).markUnusable t 3
  else s

/-- A stage fault at the tile's program counter. -/
def State.stageFault (s : State) (t code : Nat) (addr : Option Int := none) : State :=
  s.stageFaultAt t (s.tile t).core.pc code addr

/-- TILE_ILLEGAL. -/
def State.illegal (s : State) (t : Nat) : State := s.stageFault t 3

end Sys2Proof.Machine
end

