-- ==== Sys2Proof/Machine/EngAccess.lean ====
section
/-! DEFINITION. The accesses of stream engines: the region map's translation (11 R250, R251), the access tables' check (R254, 12
R275), pieces of up to 256 bytes, and the stop of an engine on an error (R279). -/
namespace Sys2Proof.Machine

/-- The physical address of a region address of HBM (R250); none where the translation is absent. -/
def State.translate (s : State) (a : Nat) : Option Nat :=
  let e := (tget (fun _ => (0 : Word)) s.prot.region (bits a 21 13)).toNat
  if !bit e 31 then none
  else if !bit e 29 then some (bits e 0 13 * 0x200000 + bits a 0 21)
  else
    let x := (tget (fun _ => (0 : Word)) s.prot.sub (bits e 0 10 * 32 + bits a 16 5)).toNat
    if bit x 31 then some (bits x 0 18 * 0x10000 + bits a 0 16) else none

/-- An absent translation recorded (R251, Table 11-6). -/
def State.regionMiss (s : State) (m a : Nat) : State :=
  if s.rd REGION_FAULT_INFO_VALID = 1 then s.wr REGION_FAULT_INFO_OVERFLOW 1
  else
    let s := (s.wr REGION_FAULT_LO_ADDR (a % 2 ^ 32)).wr REGION_FAULT_HI_ADDR (a / 2 ^ 32)
    (s.wr REGION_FAULT_INFO_MASTER m).wr REGION_FAULT_INFO_VALID 1

/-- Why an engine stops in the middle of a descriptor. -/
inductive Halt where
  | absent (a : Nat)
  | error (cause a : Nat)
deriving DecidableEq, Repr

/-- The memory that `n` bytes at `a` lie in for engine `e`, translated and granted (R275): a general engine's HBM addresses are
region addresses, a merge channel's are physical. -/
def State.engPlace (s : State) (e a n right : Nat) : Except Halt (MemId × Nat) × State :=
  let phys := if e < 32 ∧ a < 0x0400000000 then s.translate a else some a
  match phys with
  | none => (.error (.absent a), s)
  | some p =>
    let g := s.accessCheck (0x10 + e) p n right
    match g.1, place p n with
    | true, .mem i off => (.ok (i, off), g.2)
    | _, _ => (.error (.error 2 a), g.2)

/-- `n` bytes read by engine `e` at `a`. -/
def State.engRead (s : State) (e a n : Nat) : Except Halt (List Byte) × State :=
  let p := s.engPlace e a n rightR
  match p.1 with
  | .error h => (.error h, p.2)
  | .ok (i, off) =>
    let r := p.2.read i off n (0x10 + e)
    (match r.1 with
      | some bs => .ok bs
      | none => .error (.error 3 a), r.2)

/-- Bytes written by engine `e` at `a`, within a piece of `n` bytes from `lo` that one entry must grant. -/
def State.engWrite (s : State) (e lo n a : Nat) (bs : List Byte) : Except Halt Unit × State :=
  let p := s.engPlace e lo n rightW
  match p.1 with
  | .error h => (.error h, p.2)
  | .ok (i, off) =>
    let r := p.2.write i (off + (a - lo)) bs (0x10 + e)
    (if r.1 then .ok () else .error (.error 3 a), r.2)

/-- The piece of the stretch `[base, base + n)` that byte `a` lies in, as its first byte and the byte after its last. -/
def pieceOf (base n a : Nat) : Nat × Nat := (max base (a / 256 * 256), min (base + n) (a / 256 * 256 + 256))

/-- `n` bytes from `base` on read piece by piece by engine `e`, or the first halt met; `fuel` bounds the pieces. -/
def State.engPieces (s : State) (e base n k : Nat) : Nat → Except Halt (List Byte) × State
  | 0 => (.ok [], s)
  | fuel + 1 =>
    if n ≤ k then (.ok [], s)
    else
      let p := pieceOf base n (base + k)
      let r := s.engRead e p.1 (p.2 - p.1)
      match r.1 with
      | .error h => (.error h, r.2)
      | .ok bs =>
        let q := r.2.engPieces e base n (k + (p.2 - p.1)) fuel
        (q.1.map (fun l => bs ++ l), q.2)

/-- A run of `n` bytes read by engine `e`. -/
def State.engRun (s : State) (e base n : Nat) : Except Halt (List Byte) × State := s.engPieces e base n 0 (n / 256 + 2)

/-- Cause and address of a halt (Table 12-4); a held engine's absent translation, which R29 rules out, counts as an access outside
every map range. -/
def Halt.cause : Halt → Nat × Nat
  | .absent a => (2, a)
  | .error c a => (c, a)

/-- Engine `e` stops in ERROR (R279): STATUS.ERR and the event. -/
def State.engError (s : State) (e : Nat) (h : Halt) : State :=
  let s := s.modEng e (fun x => { x with st := 6, err := h.cause.1 })
  s.raise EV_STREAM_DESC_ERROR (0x10 + e) (if e < 32 then e else e - 32) h.cause.1 h.cause.2

end Sys2Proof.Machine
end

