-- ==== Sys2Proof/Machine/Issue.lean ====
section
/-! DEFINITION. How the spindle core executes one instruction (03 R73 to R75): what makes it ready, the word it fetches (02
R50), the end of a loop body (R84), completion and faults. A tile that is not ready leaves an instruction command without
effect (log entry 7). -/
namespace Sys2Proof.Machine

/-- The outcome of a meaning: every command of the block ends in a next state. -/
abbrev Out1 := Host.Outcome State Fault Refusal

/-- The core of tile `t`. -/
def State.core (s : State) (t : Nat) : SCore := (s.tile t).core

/-- The core of tile `t` changed. -/
def State.modCore (s : State) (t : Nat) (f : SCore → SCore) : State :=
  s.modTile t (fun x => { x with core := f x.core })

/-- The platen of tile `t`. -/
def State.plat (s : State) (t : Nat) : PlatenSt := (s.tile t).plat

/-- The platen of tile `t` changed. -/
def State.modPlat (s : State) (t : Nat) (f : PlatenSt → PlatenSt) : State :=
  s.modTile t (fun x => { x with plat := f x.plat })

/-- TILE_CFG.ISA_LEVEL of tile `t`. -/
def State.level2 (s : State) (t : Nat) : Bool := s.rd (TILE_CFG_ISA_LEVEL.tile t) == 2

/-- Whether a value halfway between two goes away from zero (R76, R112). -/
def State.away (s : State) (t : Nat) : Bool := !(s.level2 t) || s.rd (TILE_CFG_ROUND_L1.tile t) == 1

/-- Whether the core of tile `t` can execute an instruction: RUNNING, with none waiting. -/
def State.ready (s : State) (t : Nat) : Bool := (s.tile t).st == .running && (s.tile t).core.waiting.isNone

/-- The open loops after the word at `e` (R84), innermost first, and where execution continues if a body repeats. -/
def closeLoops (e : Nat) : List Loop → List Loop × Option Nat
  | [] => ([], none)
  | l :: ls =>
    if l.last = e then
      if l.index + 1 < l.count then ({ l with index := l.index + 1 } :: ls, some l.first) else closeLoops e ls
    else (l :: ls, none)

/-- The end of a loop body performed, where one is due. -/
def SCore.endBody (c : SCore) : SCore :=
  if c.loopDue then
    let r := closeLoops (c.pc - 1) c.loops
    { c with loops := r.1, pc := r.2.getD c.pc, loopDue := false }
  else c

/-- The word at the program counter fetched through its SECDED check, none where it is uncorrectable (R50). -/
def State.fetch (s : State) (t : Nat) : Option Nat × State := s.readWord (.prog t) (s.core t).pc (s.tileMaster t)

/-- One instruction executed by tile `t`: an end of a loop body that is due comes first; a word beyond 4,095 is illegal and
an uncorrectable word raises TILE_PROG_ECC (R50); then `act` is the instruction's effect. -/
def State.issue (s : State) (t : Nat) (act : State → State) : State :=
  if s.ready t then
    let s := if (s.core t).loopDue then s.modCore t SCore.endBody else s
    if 4096 ≤ (s.core t).pc then s.illegal t
    else
      let r := s.fetch t
      if r.1.isSome then act r.2 else r.2.stageFault t 7
  else s

/-- The instruction completes with effect `f` on the core. -/
def State.complete (s : State) (t : Nat) (f : SCore → SCore) : State := s.modCore t (fun c => (f c).finish)

/-- The instruction waits: STALLED until its condition holds (R75). -/
def State.stall (s : State) (t : Nat) (i : Instr) : State :=
  s.modTile t (fun x => { x with st := .stalled, core := { x.core with waiting := some i } })

/-- A waiting instruction that completes: the tile runs again. -/
def State.unstall (s : State) (t : Nat) : State :=
  s.modTile t (fun x => { x with
    st := if x.st = .stalled then .running else x.st
    back := if x.back = .stalled then .running else x.back
    core := { x.core with waiting := none } })

/-- `n` bytes of tile SRAM read by the core. -/
def State.sramRead (s : State) (t off n : Nat) : Option (List Byte) × State := s.read (.sram t) off n (s.tileMaster t)

/-- Bytes written to tile SRAM by the core. -/
def State.sramWrite (s : State) (t off : Nat) (bs : List Byte) : Bool × State :=
  s.write (.sram t) off bs (s.tileMaster t)

/-- The code of Table 2-6 for a refused access. -/
def DrawFault.code : DrawFault → Nat
  | .range => 1
  | .align => 2

end Sys2Proof.Machine
end

