-- ==== Sys2Proof/Machine/SpindleScalar.lean ====
section
/-! DEFINITION. The scalar instructions of level 1: Tables 3-3 and R78 to R82, NOP, and the specials (R81, R121). -/
namespace Sys2Proof.Machine

/-- ALU (R78): rd = rs1 op rs2. -/
def State.alu (s : State) (t : Nat) (rd a b : BitVec 4) (op : Word → Word → Word) : State :=
  s.issue t (fun s => s.complete t (fun c => c.setS rd (op (c.sreg a) (c.sreg b))))

/-- The immediate forms (R78): rd = rs1 op k. -/
def State.aluI (s : State) (t : Nat) (rd a : BitVec 4) (op : Word → Word) : State :=
  s.issue t (fun s => s.complete t (fun c => c.setS rd (op (c.sreg a))))

/-- ADD (R78). -/
def execAdd (t : Nat) (rd rs1 rs2 : BitVec 4) (s : State) : Out1 := .next (s.alu t rd rs1 rs2 (fun a b => a + b))
/-- SUB (R78). -/
def execSub (t : Nat) (rd rs1 rs2 : BitVec 4) (s : State) : Out1 := .next (s.alu t rd rs1 rs2 (fun a b => a - b))
/-- AND (R78). -/
def execAnd (t : Nat) (rd rs1 rs2 : BitVec 4) (s : State) : Out1 := .next (s.alu t rd rs1 rs2 (fun a b => a &&& b))
/-- OR (R78). -/
def execOr (t : Nat) (rd rs1 rs2 : BitVec 4) (s : State) : Out1 := .next (s.alu t rd rs1 rs2 (fun a b => a ||| b))
/-- XOR (R78). -/
def execXor (t : Nat) (rd rs1 rs2 : BitVec 4) (s : State) : Out1 := .next (s.alu t rd rs1 rs2 (fun a b => a ^^^ b))
/-- SLL (R78). -/
def execSll (t : Nat) (rd rs1 rs2 : BitVec 4) (s : State) : Out1 :=
  .next (s.alu t rd rs1 rs2 (fun a b => a <<< shamt b))
/-- SRL (R78). -/
def execSrl (t : Nat) (rd rs1 rs2 : BitVec 4) (s : State) : Out1 :=
  .next (s.alu t rd rs1 rs2 (fun a b => a >>> shamt b))
/-- SRA (R78). -/
def execSra (t : Nat) (rd rs1 rs2 : BitVec 4) (s : State) : Out1 :=
  .next (s.alu t rd rs1 rs2 (fun a b => a.sshiftRight (shamt b)))
/-- MUL (R78). -/
def execMul (t : Nat) (rd rs1 rs2 : BitVec 4) (s : State) : Out1 := .next (s.alu t rd rs1 rs2 (fun a b => a * b))
/-- MULHS (R78). -/
def execMulhs (t : Nat) (rd rs1 rs2 : BitVec 4) (s : State) : Out1 := .next (s.alu t rd rs1 rs2 mulhs)
/-- MULHU (R78). -/
def execMulhu (t : Nat) (rd rs1 rs2 : BitVec 4) (s : State) : Out1 := .next (s.alu t rd rs1 rs2 mulhu)
/-- MIN (R78). -/
def execMin (t : Nat) (rd rs1 rs2 : BitVec 4) (s : State) : Out1 := .next (s.alu t rd rs1 rs2 smin)
/-- MAX (R78). -/
def execMax (t : Nat) (rd rs1 rs2 : BitVec 4) (s : State) : Out1 := .next (s.alu t rd rs1 rs2 smax)
/-- MINU (R78). -/
def execMinu (t : Nat) (rd rs1 rs2 : BitVec 4) (s : State) : Out1 := .next (s.alu t rd rs1 rs2 umin)
/-- MAXU (R78). -/
def execMaxu (t : Nat) (rd rs1 rs2 : BitVec 4) (s : State) : Out1 := .next (s.alu t rd rs1 rs2 umax)
/-- SLT (R78). -/
def execSlt (t : Nat) (rd rs1 rs2 : BitVec 4) (s : State) : Out1 := .next (s.alu t rd rs1 rs2 sltW)
/-- SLTU (R78). -/
def execSltu (t : Nat) (rd rs1 rs2 : BitVec 4) (s : State) : Out1 := .next (s.alu t rd rs1 rs2 sltuW)
/-- ADDI (R78). -/
def execAddi (t : Nat) (rd rs1 : BitVec 4) (imm : BitVec 18) (s : State) : Out1 :=
  .next (s.aluI t rd rs1 (fun a => a + sext18 imm))
/-- ANDI (R78). -/
def execAndi (t : Nat) (rd rs1 : BitVec 4) (imm : BitVec 18) (s : State) : Out1 :=
  .next (s.aluI t rd rs1 (fun a => a &&& zext18 imm))
/-- ORI (R78). -/
def execOri (t : Nat) (rd rs1 : BitVec 4) (imm : BitVec 18) (s : State) : Out1 :=
  .next (s.aluI t rd rs1 (fun a => a ||| zext18 imm))
/-- XORI (R78). -/
def execXori (t : Nat) (rd rs1 : BitVec 4) (imm : BitVec 18) (s : State) : Out1 :=
  .next (s.aluI t rd rs1 (fun a => a ^^^ zext18 imm))
/-- SLLI (R78). -/
def execSlli (t : Nat) (rd rs1 : BitVec 4) (sh : BitVec 5) (s : State) : Out1 :=
  .next (s.aluI t rd rs1 (fun a => a <<< sh.toNat))
/-- SRLI (R78). -/
def execSrli (t : Nat) (rd rs1 : BitVec 4) (sh : BitVec 5) (s : State) : Out1 :=
  .next (s.aluI t rd rs1 (fun a => a >>> sh.toNat))
/-- SRAI (R78). -/
def execSrai (t : Nat) (rd rs1 : BitVec 4) (sh : BitVec 5) (s : State) : Out1 :=
  .next (s.aluI t rd rs1 (fun a => a.sshiftRight sh.toNat))
/-- LUI (R78): rd = imm22 × 1,024. -/
def execLui (t : Nat) (rd : BitVec 4) (imm : BitVec 22) (s : State) : Out1 :=
  .next (s.aluI t rd 0 (fun _ => BitVec.ofNat 32 (imm.toNat * 1024)))
/-- NOP (R73). -/
def execNop (t : Nat) (s : State) : Out1 := .next (s.issue t (fun s => s.complete t (fun c => c)))

/-! ## Loads and stores (R79, R80) -/

/-- The offset of LW and SW: rs1 plus sign-extended imm18, modulo 2^32. -/
def State.lwOffset (s : State) (t : Nat) (rs1 : BitVec 4) (imm : BitVec 18) : Nat :=
  ((s.core t).sreg rs1 + sext18 imm).toNat

/-- LW once issued. -/
def State.loadWord (s : State) (t : Nat) (rd rs1 : BitVec 4) (imm : BitVec 18) : State :=
  let off := s.lwOffset t rs1 imm
  match drawCheck 4 off with
  | some f => s.stageFault t f.code (some off)
  | none =>
    let r := s.sramRead t off 4
    match r.1 with
    | some b => r.2.complete t (fun c => c.setS rd (BitVec.ofNat 32 (leNat b)))
    | none => r.2.stageFault t 6 (some off)

/-- SW once issued. -/
def State.storeWord (s : State) (t : Nat) (rd rs1 : BitVec 4) (imm : BitVec 18) : State :=
  let off := s.lwOffset t rs1 imm
  match drawCheck 4 off with
  | some f => s.stageFault t f.code (some off)
  | none =>
    let r := s.sramWrite t off (leBytes 4 ((s.core t).sreg rd).toNat)
    if r.1 then r.2.complete t (fun c => c) else r.2.stageFault t 6 (some off)

/-- LW (R79). -/
def execLw (t : Nat) (rd rs1 : BitVec 4) (imm : BitVec 18) (s : State) : Out1 :=
  .next (s.issue t (fun s => s.loadWord t rd rs1 imm))
/-- SW (R79). -/
def execSw (t : Nat) (rd rs1 : BitVec 4) (imm : BitVec 18) (s : State) : Out1 :=
  .next (s.issue t (fun s => s.storeWord t rd rs1 imm))

/-- A constant of program memory; none where it is uncorrectable (R50). -/
def State.constant (s : State) (t : Nat) (a : BitVec 12) : Option Nat × State :=
  s.readWord (.prog t) a.toNat (s.tileMaster t)

/-- LC once issued. -/
def State.loadConst (s : State) (t : Nat) (rd : BitVec 4) (addr : BitVec 12) : State :=
  let r := s.constant t addr
  match r.1 with
  | some v => r.2.complete t (fun c => c.setS rd (BitVec.ofNat 32 v))
  | none => r.2.stageFault t 7

/-- LC (R80). -/
def execLc (t : Nat) (rd : BitVec 4) (addr : BitVec 12) (s : State) : Out1 :=
  .next (s.issue t (fun s => s.loadConst t rd addr))

/-! ## Specials (Tables 3-4 and 4-5) -/

/-- The index of loop Ln, 0 where it is not open; loops are listed innermost first. -/
def SCore.loopIndex (c : SCore) (n : Nat) : Nat := ((c.loops.reverse[n]?).map (·.index)).getD 0

/-- An offset of R47 as AGOFF reads it: held to 32 bits. -/
def agOff (x : Int) : Word := BitVec.ofInt 32 (clampInt (-(2 ^ 31 : Nat)) ((2 ^ 31 : Nat) - 1) x).1

/-- TAGS: STAG, STREAM, DP and the block tag of gDP. -/
def State.tagsWord (s : State) (t : Nat) : Nat :=
  let p := s.plat t
  p.stag % 16 + b2n p.stream * 16 + p.dp % 8 * 256 + (s.tile t).ports.inTag.getD p.dp 0 % 16 * 4096

/-- What MFS reads; none where the code names no special at the tile's level. -/
def State.special (s : State) (t sel : Nat) : Option Word :=
  let c := s.core t
  let fidx := ((s.tile t).ctl.frame.map (·.fidx)).getD 0
  match sel with
  | 0 => some c.flags.word
  | 1 => some (BitVec.ofNat 32 c.tbase)
  | 2 => some (BitVec.ofNat 32 c.leaky)
  | 3 => if s.level2 t then some (BitVec.ofInt 32 (s.plat t).zx) else none
  | 4 => some (BitVec.ofNat 32 (c.loopIndex 0))
  | 5 => some (BitVec.ofNat 32 (c.loopIndex 1))
  | 6 => some (BitVec.ofNat 32 (c.loopIndex 2))
  | 7 => some (BitVec.ofNat 32 (c.loopIndex 3))
  | 8 => some (BitVec.ofNat 32 fidx)
  | 9 => some (BitVec.ofNat 32 (s.rd (TILE_CFG_ISA_LEVEL.tile t)))
  | 10 => if s.level2 t then some (BitVec.ofNat 32 (s.tagsWord t)) else none
  | 12 => some (agOff (c.gen 0).offset)
  | 13 => some (agOff (c.gen 1).offset)
  | 14 => some (agOff (c.gen 2).offset)
  | 15 => some (agOff (c.gen 3).offset)
  | _ => none

/-- MFS (R81, R121). -/
def execMfs (t : Nat) (rd : BitVec 4) (sel : BitVec 5) (s : State) : Out1 :=
  .next (s.issue t (fun s =>
    match s.special t sel.toNat with
    | some v => s.complete t (fun c => c.setS rd v)
    | none => s.illegal t))

/-- MTS once issued (R81, R121): a value outside the special's range, or a special that is not writable, is illegal. -/
def State.writeSpecial (s : State) (t sel : Nat) (v : Word) : State :=
  let n := v.toNat
  match sel with
  | 0 => if n < 4 then s.complete t (fun c => { c with flags := ⟨bit n 0, bit n 1⟩ }) else s.illegal t
  | 1 => if n % 64 = 0 ∧ n ≤ 0x17FF00 then s.complete t (fun c => { c with tbase := n }) else s.illegal t
  | 2 => if (f32 n).isFin then s.complete t (fun c => { c with leaky := n }) else s.illegal t
  | 3 =>
    if s.level2 t ∧ -32768 ≤ v.toInt ∧ v.toInt ≤ 32767 then
      (s.modPlat t (fun p => { p with zx := v.toInt })).complete t (fun c => c)
    else s.illegal t
  | _ => s.illegal t

/-- MTS (R81, R121). -/
def execMts (t : Nat) (rs1 : BitVec 4) (sel : BitVec 5) (s : State) : Out1 :=
  .next (s.issue t (fun s => s.writeSpecial t sel.toNat ((s.core t).sreg rs1)))

/-! ## AGW (R82) -/

/-- The running configuration that a write of field `fld` leaves; none where the value is out of range. -/
def Ag.write (a : Ag) (fld : Nat) (v : Word) : Option Ag :=
  let n := v.toNat
  let i := v.toInt
  if fld = 0 then (if n ≤ 0x17FFFF then some { a with base := n } else none)
  else if fld ≤ 5 then
    (if 1 ≤ n ∧ n ≤ 65536 then some { a with n := setAt a.n (fld - 1) n, i := [0, 0, 0, 0, 0], wrap := false } else none)
  else if fld ≤ 10 then
    (if -2097152 ≤ i ∧ i ≤ 2097151 then some { a with s := setAt a.s (fld - 6) i } else none)
  else none

/-- AGW RESET once issued. -/
def State.agReset (s : State) (t k : Nat) : State := s.complete t (fun c => c.setGen k (c.gen k).rewind)

/-- AGW RESTORE once issued. -/
def State.agRestore (s : State) (t k : Nat) : State :=
  let a := s.agConfig t k
  s.complete t (fun c => c.setGen k a)

/-- AGW with a field 0 to 10; 11 and 12 are RESET and RESTORE, which require rs1 to be s0; 13 to 15 are reserved. -/
def State.agWrite (s : State) (t k : Nat) (rs1 : BitVec 4) (fld : Nat) : State :=
  if fld = 11 ∧ rs1 = 0 then s.agReset t k
  else if fld = 12 ∧ rs1 = 0 then s.agRestore t k
  else
    match ((s.core t).gen k).write fld ((s.core t).sreg rs1) with
    | some a => s.complete t (fun c => c.setGen k a)
    | none => s.illegal t

/-- AGW (R82). -/
def execAgwWrite (t : Nat) (ag : BitVec 2) (rs1 fld : BitVec 4) (s : State) : Out1 :=
  .next (s.issue t (fun s => s.agWrite t ag.toNat rs1 fld.toNat))
/-- AGW RESET (R82). -/
def execAgwReset (t : Nat) (ag : BitVec 2) (s : State) : Out1 := .next (s.issue t (fun s => s.agReset t ag.toNat))
/-- AGW RESTORE (R82). -/
def execAgwRestore (t : Nat) (ag : BitVec 2) (s : State) : Out1 := .next (s.issue t (fun s => s.agRestore t ag.toNat))

end Sys2Proof.Machine
end

