-- ==== Sys2Proof/Machine/SpindleLoop.lean ====
section
/-! DEFINITION. Loops, branches and the frame end of the spindle core (03 R83 to R86, 02 R46). -/
namespace Sys2Proof.Machine

/-- Whether the word at the program counter is the end word of an open loop, where no loop or branch may stand (R84). -/
def SCore.atEnd (c : SCore) : Bool := c.loops.any (fun l => l.last == c.pc)

/-- Whether a loop with end word `e` may open here (R83). -/
def SCore.loopEndOk (c : SCore) (e : Nat) : Bool :=
  decide (c.pc < e) && !c.atEnd && (match c.loops with
    | l :: _ => decide (e ≤ l.last)
    | [] => true)

/-- A loop opened with a count; a count of 0 skips to the word after the end word, where enclosing loops that end there are
due (R83). -/
def SCore.openLoop (c : SCore) (e count : Nat) : SCore :=
  if count = 0 then
    { c with pc := e + 1, loopDue := match c.loops with
      | l :: _ => l.last == e
      | [] => false }
  else { c with loops := ⟨c.pc + 1, e, 0, count⟩ :: c.loops, pc := c.pc + 1 }

/-- LOOPI once issued: the depth is checked first. -/
def State.loopImm (s : State) (t e count : Nat) : State :=
  if 4 ≤ (s.core t).loops.length then s.stageFault t 4
  else if (s.core t).loopEndOk e then s.modCore t (fun c => c.openLoop e count)
  else s.illegal t

/-- LOOPC once issued: the count is bits [23:0] of the constant, whose upper bits must be 0. -/
def State.loopConst (s : State) (t e : Nat) (addr : BitVec 12) : State :=
  if 4 ≤ (s.core t).loops.length then s.stageFault t 4
  else
    let r := s.constant t addr
    match r.1 with
    | none => r.2.stageFault t 7
    | some v =>
      if v < 2 ^ 24 ∧ (r.2.core t).loopEndOk e then r.2.modCore t (fun c => c.openLoop e v) else r.2.illegal t

/-- LOOPI (R83). -/
def execLoopi (t : Nat) (last : BitVec 12) (count : BitVec 14) (s : State) : Out1 :=
  .next (s.issue t (fun s => s.loopImm t last.toNat count.toNat))
/-- LOOPC (R83). -/
def execLoopc (t : Nat) (last addr : BitVec 12) (s : State) : Out1 :=
  .next (s.issue t (fun s => s.loopConst t last.toNat addr))
/-- The end of a loop body (R84); nothing where none is due. -/
def execLoopEnd (t : Nat) (s : State) : Out1 :=
  .next (if s.ready t && (s.core t).loopDue then s.modCore t SCore.endBody else s)

/-- Whether a taken branch may reach `target`: inside the body of the innermost open loop (R85). -/
def SCore.targetOk (c : SCore) (target : Nat) : Bool :=
  match c.loops with
  | l :: _ => decide (l.first ≤ target) && decide (target ≤ l.last)
  | [] => true

/-- A branch once its condition is known. -/
def State.branch (s : State) (t : Nat) (taken : Bool) (target : Nat) : State :=
  let c := s.core t
  if c.atEnd then s.illegal t
  else if !taken then s.modCore t (fun c => { c with pc := c.pc + 1 })
  else if c.targetOk target then s.modCore t (fun c => { c with pc := target })
  else s.illegal t

/-- The condition of BLC on an open loop (Table 3-5); none where imm10 must be 0 and is not. -/
def blcTaken (cond imm : Nat) (l : Loop) : Option Bool :=
  match cond with
  | 0 => some (l.index == imm)
  | 1 => some (l.index != imm)
  | 2 => if imm = 0 then some (l.index == 0) else none
  | _ => if imm = 0 then some (l.index + 1 == l.count) else none

/-- BR (R85). -/
def execBr (t : Nat) (target : BitVec 12) (s : State) : Out1 := .next (s.issue t (fun s => s.branch t true target.toNat))
/-- BLC (R85). -/
def execBlc (t : Nat) (loop cond : BitVec 2) (imm : BitVec 10) (target : BitVec 12) (s : State) : Out1 :=
  .next (s.issue t (fun s =>
    match ((s.core t).loops.reverse[loop.toNat]?).bind (blcTaken cond.toNat imm.toNat) with
    | some b => s.branch t b target.toNat
    | none => s.illegal t))
/-- BCK (R85). -/
def execBck (t : Nat) (cond : BitVec 2) (addr target : BitVec 12) (s : State) : Out1 :=
  .next (s.issue t (fun s =>
    if 2 ≤ cond.toNat ∨ (s.core t).atEnd then s.illegal t
    else
      let r := s.constant t addr
      match r.1 with
      | some v => r.2.branch t ((v == 0) == (cond.toNat == 0)) target.toNat
      | none => r.2.stageFault t 7))

/-! ## ENDF (R86) -/

/-- Whether the frame end has arrived on every enabled control input of tile `t` (R135). -/
def State.frameEnded (s : State) (t : Nat) : Bool :=
  (s.ctlInputs (.tile t)).all (fun k => (((s.tile t).ctl.inp.getD k {}).ended).isSome)

/-- A waiting ENDF completes once every copier job has and the frame end has arrived; every FIRE and REQ before it has. -/
def State.tryEndf (s : State) (t : Nat) : State :=
  if (s.core t).waiting = some (.endf t) ∧ (s.tile t).jobs = [] ∧ s.frameEnded t then
    s.modTile t (fun x => { x with
      core := { x.core with waiting := none }
      ctl := { x.ctl with frame := x.ctl.frame.map (fun f => { f with endf := true }) } })
  else s

/-- ENDF (R86): illegal with a loop open; otherwise it waits. -/
def execEndf (t : Nat) (s : State) : Out1 :=
  .next (s.issue t (fun s =>
    if (s.core t).loops = [] then (s.stall t (.endf t)).tryEndf t else s.illegal t))

end Sys2Proof.Machine
end

