-- ==== Sys2Proof/Machine/SpindleVector.lean ====
section
/-! DEFINITION. The vector instructions: VOP (03 R87 to R89, R91; 04 R117, R118), and VLD, VST, VBC (R90, R117). -/
namespace Sys2Proof.Machine

/-- A lane function of VOP: rounding, width, type, saturation, imm6, the old vd, va and vb. -/
abbrev LaneFn := Bool → Nat → Nat → Bool → Nat → Vec → Vec → Vec → List LaneOut

/-- Whether a VOP word is legal at the tile's level (R87, R117). -/
def State.vopOk (s : State) (t fn : Nat) (o : VecOp) : Bool :=
  vopLegal (if s.level2 t then 2 else 1) fn o.w.toNat o.ty.toNat o.sat o.imm.toNat

/-- The lanes that a VOP function computes. -/
def State.vopLanes (s : State) (t : Nat) (o : VecOp) (f : LaneFn) : List LaneOut :=
  let c := s.core t
  f (s.away t) (laneBits o.w.toNat) o.ty.toNat o.sat o.imm.toNat (c.vreg o.vd) (c.vreg o.va) (c.vreg o.vb)

/-- Lanes written to vd with the flags they set (R77). -/
def SCore.setLanes (c : SCore) (o : VecOp) (l : List LaneOut) : SCore :=
  { c.setV o.vd (ofLanes (laneBits o.w.toNat) (l.map (·.code))) with flags := c.flags.lanes l }

/-- VOP with function `fn` (R87). -/
def State.vop (s : State) (t fn : Nat) (o : VecOp) (f : LaneFn) : State :=
  s.issue t (fun s =>
    if s.vopOk t fn o then
      let l := s.vopLanes t o f
      s.complete t (fun c => c.setLanes o l)
    else s.illegal t)

/-- A bitwise function of two lanes. -/
def bitLane (op : Nat → Nat → Nat) (a b : Nat) : LaneOut := ⟨op a b, false, false⟩

/-- VADD (R88, R89). -/
def execVadd (t : Nat) (o : VecOp) (s : State) : Out1 :=
  .next (s.vop t 0 o (fun r n ty sat _ _ a b => map2 n (laneArith 0 r n ty sat) a b))
/-- VSUB (R88, R89). -/
def execVsub (t : Nat) (o : VecOp) (s : State) : Out1 :=
  .next (s.vop t 1 o (fun r n ty sat _ _ a b => map2 n (laneArith 1 r n ty sat) a b))
/-- VMUL (R88, R89). -/
def execVmul (t : Nat) (o : VecOp) (s : State) : Out1 :=
  .next (s.vop t 2 o (fun r n ty sat _ _ a b => map2 n (laneArith 2 r n ty sat) a b))
/-- VMIN (R88, R89). -/
def execVmin (t : Nat) (o : VecOp) (s : State) : Out1 :=
  .next (s.vop t 3 o (fun _ n ty _ _ _ a b => map2 n (lanePick true n ty) a b))
/-- VMAX (R88, R89). -/
def execVmax (t : Nat) (o : VecOp) (s : State) : Out1 :=
  .next (s.vop t 4 o (fun _ n ty _ _ _ a b => map2 n (lanePick false n ty) a b))
/-- VAND (R87). -/
def execVand (t : Nat) (o : VecOp) (s : State) : Out1 :=
  .next (s.vop t 5 o (fun _ n _ _ _ _ a b => map2 n (bitLane Nat.land) a b))
/-- VOR (R87). -/
def execVor (t : Nat) (o : VecOp) (s : State) : Out1 :=
  .next (s.vop t 6 o (fun _ n _ _ _ _ a b => map2 n (bitLane Nat.lor) a b))
/-- VXOR (R87). -/
def execVxor (t : Nat) (o : VecOp) (s : State) : Out1 :=
  .next (s.vop t 7 o (fun _ n _ _ _ _ a b => map2 n (bitLane Nat.xor) a b))
/-- VMOV (R89): bit for bit. -/
def execVmov (t : Nat) (o : VecOp) (s : State) : Out1 :=
  .next (s.vop t 8 o (fun _ n _ _ _ _ a _ => map1 n (fun x => ⟨x, false, false⟩) a))
/-- VMAC (R88, R89). -/
def execVmac (t : Nat) (o : VecOp) (s : State) : Out1 :=
  .next (s.vop t 9 o (fun r n ty sat _ d a b => map3 n (laneMac r n ty sat) d a b))
/-- VDUP (R87, R89). -/
def execVdup (t : Nat) (o : VecOp) (s : State) : Out1 :=
  .next (s.vop t 10 o (fun _ n _ _ imm _ a _ => dupLanes n imm a))
/-- VSHL (R88). -/
def execVshl (t : Nat) (o : VecOp) (s : State) : Out1 :=
  .next (s.vop t 16 o (fun _ n ty sat imm _ a _ => map1 n (fun x => laneShl n ty sat x imm) a))
/-- VSRL (R87). -/
def execVsrl (t : Nat) (o : VecOp) (s : State) : Out1 :=
  .next (s.vop t 17 o (fun _ n _ _ imm _ a _ => map1 n (fun x => laneSrl x imm) a))
/-- VSRA (R87). -/
def execVsra (t : Nat) (o : VecOp) (s : State) : Out1 :=
  .next (s.vop t 18 o (fun _ n ty _ imm _ a _ => map1 n (fun x => laneSra n ty x imm) a))
/-- VSRAR (R76, R87, R112). -/
def execVsrar (t : Nat) (o : VecOp) (s : State) : Out1 :=
  .next (s.vop t 19 o (fun r n _ _ imm _ a _ => map1 n (fun x => laneSrar r n x imm) a))
/-- VWIDEN (R87, R117). -/
def execVwiden (t : Nat) (o : VecOp) (s : State) : Out1 :=
  .next (s.vop t 20 o (fun _ n ty _ imm _ a _ => widenLanes n ty imm a))
/-- VNARROW (R88, R117). -/
def execVnarrow (t : Nat) (o : VecOp) (s : State) : Out1 :=
  .next (s.vop t 21 o (fun _ n ty sat _ _ a b => narrowLanes n ty sat a b))
/-- VCVTF (R87, R117). -/
def execVcvtf (t : Nat) (o : VecOp) (s : State) : Out1 :=
  .next (s.vop t 22 o (fun r n ty _ _ _ a _ => map1 n (laneCvtf r ty) a))
/-- VCVTI (R89, R117). -/
def execVcvti (t : Nat) (o : VecOp) (s : State) : Out1 :=
  .next (s.vop t 23 o (fun r n ty _ _ _ a _ => map1 n (laneCvti r (laneFmt ty)) a))
/-- VFCVT (R118). -/
def execVfcvt (t : Nat) (o : VecOp) (s : State) : Out1 :=
  .next (s.vop t 25 o (fun r n ty sat _ _ a _ => map1 n (laneFcvt r ty sat) a))

/-- VACT modes 0 to 2 (R91). -/
def actLanes (mode : Nat) (leaky : Nat) (r : Bool) (n ty : Nat) (a b : Vec) : List LaneOut :=
  match mode with
  | 0 => map1 n (laneRelu n ty) a
  | 1 => map2 n (laneClamp n ty) a b
  | _ => map1 n (laneLeaky r n ty leaky) a

/-- The bytes that the lanes of mode 3 name in the table at `base`, or the offset of the first that is uncorrectable. -/
def State.tableBytes (s : State) (t base : Nat) : List Nat → List LaneOut × Option Nat × State
  | [] => ([], none, s)
  | x :: xs =>
    let r := s.sramRead t (base + x) 1
    match r.1 with
    | none => ([], some (base + x), r.2)
    | some b =>
      let q := r.2.tableBytes t base xs
      (⟨leNat b, false, false⟩ :: q.1, q.2.1, q.2.2)

/-- VACT mode 3 once issued (R91). Where several lanes lie outside tile SRAM or are uncorrectable, the offset reported is that of
the first in lane order: the model's choice (log entry 68). -/
def State.tableAct (s : State) (t : Nat) (o : VecOp) : State :=
  let c := s.core t
  let codes := vlanes 8 (c.vreg o.va)
  match codes.find? (fun x => decide (0x17FFFF < c.tbase + x)) with
  | some x => s.stageFault t 1 (some ((c.tbase + x : Nat) : Int))
  | none =>
    let r := s.tableBytes t c.tbase codes
    match r.2.1 with
    | some off => r.2.2.stageFault t 6 (some (off : Int))
    | none => r.2.2.complete t (fun c => c.setLanes o r.1)

/-- VACT (R91). -/
def execVact (t : Nat) (o : VecOp) (s : State) : Out1 :=
  .next (s.issue t (fun s =>
    if !s.vopOk t 24 o then s.illegal t
    else if o.imm.toNat = 3 then s.tableAct t o
    else
      let l := s.vopLanes t o (fun r n ty _ imm _ a b => actLanes imm (s.core t).leaky r n ty a b)
      s.complete t (fun c => c.setLanes o l)))

/-! ## VLD, VST, VBC (R90) -/

/-- A generator drawn once. -/
def SCore.draw (c : SCore) (k : Nat) : SCore := c.setGen k (c.gen k).next

/-- VLD once issued. -/
def State.loadVec (s : State) (t : Nat) (vd : BitVec 3) (k : Nat) : State :=
  let off := ((s.core t).gen k).offset
  match drawCheck 64 off with
  | some f => s.stageFault t f.code (some off)
  | none =>
    let r := s.sramRead t off.toNat 64
    match r.1 with
    | some b => r.2.complete t (fun c => (c.setV vd (BitVec.ofNat 512 (leNat b))).draw k)
    | none => r.2.stageFault t 6 (some off)

/-- The bytes of a vector register that VST stores: all, the lower or the upper half. -/
def partBytes (part : Nat) (v : Vec) : List Byte :=
  let b := leBytes 64 v.toNat
  match part with
  | 0 => b
  | 1 => b.take 32
  | _ => b.drop 32

/-- VST once issued; PART 3 is reserved. -/
def State.storeVec (s : State) (t : Nat) (vs : BitVec 3) (k part : Nat) : State :=
  if part = 3 then s.illegal t
  else
    let off := ((s.core t).gen k).offset
    let bs := partBytes part ((s.core t).vreg vs)
    match drawCheck bs.length off with
    | some f => s.stageFault t f.code (some off)
    | none => (s.sramWrite t off.toNat bs).2.complete t (fun c => c.draw k)

/-- VLD (R90). -/
def execVld (t : Nat) (vd : BitVec 3) (ag : BitVec 2) (s : State) : Out1 :=
  .next (s.issue t (fun s => s.loadVec t vd ag.toNat))
/-- VST (R90). -/
def execVst (t : Nat) (vs : BitVec 3) (ag part : BitVec 2) (s : State) : Out1 :=
  .next (s.issue t (fun s => s.storeVec t vs ag.toNat part.toNat))

/-- Every lane of width `n` set to the low bits of a word. -/
def splat (n : Nat) (w : Word) : Vec := ofLanes n (List.replicate (512 / n) w.toNat)

/-- VBC (R90, R117): W = 3 is reserved at level 1. -/
def execVbc (t : Nat) (vd : BitVec 3) (rs1 : BitVec 4) (w : BitVec 2) (s : State) : Out1 :=
  .next (s.issue t (fun s =>
    if w = 3 ∧ !s.level2 t then s.illegal t
    else s.complete t (fun c => c.setV vd (splat (laneBits w.toNat) (c.sreg rs1)))))

end Sys2Proof.Machine
end

