-- ==== Sys2Proof/Machine/SpindlePlaten.lean ====
section
/-! DEFINITION. The platen instructions: PFMT, WLD, WSWP, PSCL, PBIAS, PSCS (03 R92 to R95, 04 R106, R107, R110, R114), FIRE
and its issue (02 R64 to R66, 03 R96, R97, 04 R108, R109, R111, R113). -/
namespace Sys2Proof.Machine

/-! ## Formats, pages, scales -/

/-- Whether PFMT may pair two format codes at the tile's level (R52, R92, R106). -/
def State.pfmtOk (s : State) (t wf xf : Nat) (sfmt : Bool) : Bool :=
  (s.level2 t || (decide (wf < 4) && decide (xf < 4) && !sfmt)) && (fmtRow wf).isSome && fmtRow wf == fmtRow xf

/-- PFMT once issued. -/
def State.setFormats (s : State) (t wf xf : Nat) (sfmt : Bool) : State :=
  if s.pfmtOk t wf xf sfmt then
    let l2 := s.level2 t
    (s.modPlat t (fun p => { p with wf := wf, xf := xf, sfmt := if l2 then sfmt else p.sfmt })).complete t (fun c => c)
  else s.illegal t

/-- PFMT (R92, R107). -/
def execPfmt (t : Nat) (wf xf : BitVec 4) (sfmt : Bool) (s : State) : Out1 :=
  .next (s.issue t (fun s => s.setFormats t wf.toNat xf.toNat sfmt))

/-- The first of several draws that fails the check of R48 for 64-byte accesses. -/
def drawsFault (offs : List Int) : Option (Nat × Int) :=
  match offs.find? (fun x => (drawCheck 64 x).isSome) with
  | some x => (drawCheck 64 x).map (fun f => (f.code, x))
  | none => none

/-- 64-byte draws read one after another: their data, or the offset of the first that is uncorrectable. -/
def State.readDraws (s : State) (t : Nat) : List Int → List Nat × Option Int × State
  | [] => ([], none, s)
  | x :: xs =>
    let r := s.sramRead t x.toNat 64
    match r.1 with
    | none => ([], some x, r.2)
    | some b =>
      let q := r.2.readDraws t xs
      (leNat b :: q.1, q.2.1, q.2.2)

/-- The page named by WLD replaced. -/
def PlatenSt.setPage (p : PlatenSt) (one : Bool) (g : Page) : PlatenSt :=
  if one then { p with page1 := g } else { p with page0 := g }

/-- The active page. -/
def PlatenSt.activePage (p : PlatenSt) : Page := if p.active1 then p.page1 else p.page0

/-- WLD once issued (R93): every draw is checked before the first read; an uncorrectable row leaves the page EMPTY. -/
def State.loadPage (s : State) (t k : Nat) (one : Bool) : State :=
  let p := s.plat t
  let n := pageRows p.wf
  let g := (s.core t).gen k
  let offs := g.draws n
  if one == p.active1 then s.illegal t
  else
    match drawsFault offs with
    | some (code, x) => s.stageFault t code (some x)
    | none =>
      let r := s.readDraws t offs
      match r.2.1 with
      | some x => (r.2.2.modPlat t (fun p => p.setPage one {})).stageFault t 6 (some x)
      | none =>
        (r.2.2.modPlat t (fun p => p.setPage one ⟨false, p.wf, r.1⟩)).complete t (fun c => c.setGen k (g.after n))

/-- WLD (R93). -/
def execWld (t : Nat) (ag : BitVec 2) (page : Bool) (s : State) : Out1 :=
  .next (s.issue t (fun s => s.loadPage t ag.toNat page))

/-- WSWP (R94). -/
def execWswp (t : Nat) (s : State) : Out1 :=
  .next (s.issue t (fun s => (s.modPlat t (fun p => { p with active1 := !p.active1 })).complete t (fun c => c)))

/-- 16 FP32 lanes of one 64-byte draw. -/
def lanes16 (x : Nat) : Lanes := (List.range 16).map (fun i => bits x (32 * i) 32)

/-- The weight zero points of the third draw of PSCL (R114). -/
def drawZw (x : Nat) : List Int := (List.range 32).map (fun i => signed 16 (bits x (16 * i) 16))

/-- PSCL and PBIAS once issued: `n` draws, all checked first, then `act` on their data (R95, R114). -/
def State.drawLanes (s : State) (t k n : Nat) (act : State → List Nat → State) : State :=
  let g := (s.core t).gen k
  let offs := g.draws n
  match drawsFault offs with
  | some (code, x) => s.stageFault t code (some x)
  | none =>
    let r := s.readDraws t offs
    match r.2.1 with
    | some x => r.2.2.stageFault t 6 (some x)
    | none => act r.2.2 r.1

/-- PSCL once issued. -/
def State.loadScales (s : State) (t k : Nat) (zl : Bool) : State :=
  if zl && !s.level2 t then s.illegal t
  else
    let n := if zl then 3 else 2
    s.drawLanes t k n (fun s d =>
      let zw := drawZw (d.getD 2 0)
      if zl && !(zw.all (zpOk (s.plat t).wf)) then s.illegal t
      else
        let l2 := s.level2 t
        (s.modPlat t (fun p => { p with
          k := lanes16 (d.getD 0 0) ++ lanes16 (d.getD 1 0)
          zw := if zl then zw else p.zw
          stream := if l2 then false else p.stream })).complete t (fun c => c.setGen k ((c.gen k).after n)))

/-- PSCL (R95, R114). -/
def execPscl (t : Nat) (ag : BitVec 2) (zl : Bool) (s : State) : Out1 :=
  .next (s.issue t (fun s => s.loadScales t ag.toNat zl))

/-- PBIAS once issued. -/
def State.loadBias (s : State) (t k : Nat) : State :=
  s.drawLanes t k 2 (fun s d =>
    (s.modPlat t (fun p => { p with bv := lanes16 (d.getD 0 0) ++ lanes16 (d.getD 1 0) })).complete t
      (fun c => c.setGen k ((c.gen k).after 2)))

/-- PBIAS (R95). -/
def execPbias (t : Nat) (ag : BitVec 2) (s : State) : Out1 := .next (s.issue t (fun s => s.loadBias t ag.toNat))

/-! ## PSCS (R110) -/

/-- Steps 2 to 5 of R110, with two tokens at the head of the scale port. -/
def State.takeScales (s : State) (t port dport : Nat) : State :=
  let g := (s.tile t).ports.gal port
  let tag := g.tags.getD 0 0
  if tag ≠ g.tags.getD 1 0 then s.stageFault t 0x11
  else
    let a := s.peekToken t port 0
    let b := a.2.peekToken t port 1
    match a.1, b.1 with
    | some x, some y =>
      let s := b.2
      let p := s.plat t
      let blk := scaleBlock p.wf p.sfmt x y
      if !scaleBlockOk p.wf p.xf blk then s.illegal t
      else
        let r := s.away t
        let s := s.popTokens t port 2
        let s := s.modPlat t (fun p => { p with
          k := scaleK r blk, zw := blk.zw, zx := blk.zx, stag := tag, dp := dport, stream := true })
        (s.complete t (fun c => c)).unstall t
    | _, _ => b.2.stageFault t 6

/-- PSCS once issued: its ports are checked, then it waits for two tokens. -/
def State.pscs (s : State) (t : Nat) (port dport : BitVec 3) : State :=
  let c := s.portCfg t port.toNat
  if !s.level2 t then s.illegal t
  else if !c.en || !(s.portCfg t dport.toNat).en then s.stageFault t 8
  else if c.net ≠ 0 ∨ c.count ≠ 2 ∨ port = dport then s.illegal t
  else if s.frameAvail t port.toNat < 2 then s.stall t (.pscs t port dport)
  else s.takeScales t port.toNat dport.toNat

/-- PSCS (R110). -/
def execPscs (t : Nat) (port dport : BitVec 3) (s : State) : Out1 := .next (s.issue t (fun s => s.pscs t port dport))

/-- A waiting PSCS goes on once its tokens are there. -/
def State.retryPscs (s : State) (t : Nat) : State :=
  match (s.core t).waiting with
  | some (.pscs _ port dport) =>
    if (s.tile t).st = .stalled ∧ 2 ≤ s.frameAvail t port.toNat then s.takeScales t port.toNat dport.toNat else s
  | _ => s

/-! ## FIRE -/

/-- Whether a format code is one of the floating formats. -/
def floatFmt (f : Nat) : Bool := (ffmtOf f).isSome

/-- A bank number with IX (Tables 3-8, 3-9). -/
def SCore.bankIx (c : SCore) (n : Nat) (ix : Bool) : Nat :=
  if ix then (n + ((c.loops.head?).map (·.index)).getD 0) % 16 else n

/-- The encoding checks of a FIRE (R96, R108, R109, Table 3-8). -/
def State.fireWordOk (s : State) (t : Nat) (f : FireOp) : Bool :=
  (s.level2 t || (!f.zf && !f.hx)) &&
  (f.p || (!f.xs && f.xr == 0 && f.acc == 0 && !f.ow && !f.ge && !f.ix && !f.zf && !f.hx && !(firePorts f).isEmpty)) &&
  !(f.ix && (s.core t).loops.isEmpty) && !(f.xs && f.xr.toNat.testBit 2)

/-- The checks of a FIRE's platen operation that make it illegal: its page (R94), and ZF and HX (R108, R109). -/
def PlatenSt.fireOk (p : PlatenSt) (f : FireOp) : Bool :=
  let g := p.activePage
  !g.empty && g.fmt == p.wf && !(f.hx && elemBits p.wf == 16) &&
  (!f.zf || (!floatFmt p.wf && !floatFmt p.xf && p.zw.all (zpOk p.wf) && zpOk p.xf p.zx))

/-- The fault that a FIRE raises before it issues, with its offset (R96). -/
def State.fireFault (s : State) (t : Nat) (f : FireOp) : Option (Nat × Option Int) :=
  let p := s.plat t
  let c := s.core t
  if !s.fireWordOk t f then some (3, none)
  else if (firePorts f).any (fun k => !(s.portCfg t k).en) then some (8, none)
  else if !f.p then none
  else if !p.fireOk f then some (3, none)
  else if !f.ow && (p.acc.getD (c.bankIx f.acc.toNat f.ix) {}).float != floatFmt p.wf then some (5, none)
  else if f.xs then
    let off := (c.gen (f.xr.toNat % 4)).offset
    (drawCheck 64 off).map (fun e => (e.code, some off))
  else none

/-- Whether the tags of a GE firing differ (R111): the block tag of gDP is taken as it will be after the FIRE's own
landings. -/
def State.tagDiffers (s : State) (t : Nat) (f : FireOp) : Bool :=
  let p := s.plat t
  let x := (s.tile t).ports
  let lands := f.inp.toNat.testBit p.dp && !(s.isLoopIn t p.dp)
  let tag := if lands then (x.gal p.dp).tags.getD ((s.portCfg t p.dp).count - 1) 0 else x.inTag.getD p.dp 0
  s.level2 t && f.ge && p.stream && tag != p.stag

/-- Whether every port that a FIRE names has its tokens or room (R64). -/
def State.fireable (s : State) (t : Nat) (f : FireOp) : Bool := !((firePorts f).any (s.lacks t))

/-- FIRE once issued as an instruction: it faults, or waits with nothing taken; a FIRE that lacks tokens or room is counted
(Table 2-13). -/
def State.fire (s : State) (t : Nat) (f : FireOp) : State :=
  match s.fireFault t f with
  | some (code, addr) => s.stageFault t code addr
  | none =>
    if s.fireable t f then
      if s.tagDiffers t f then s.stageFault t 0x11
      else s.modCore t (fun c => { c with waiting := some (.fire t f) })
    else
      let lack := fun (lo hi : Nat) => (firePorts f).any (fun p => decide (lo ≤ p) && decide (p < hi) && s.lacks t p)
      let li := lack 0 8
      let lo := lack 8 12
      let s := if li then s.inc (TILE_STALL_IN_COUNT.tile t) else s
      let s := if lo then s.inc (TILE_STALL_OUT_COUNT.tile t) else s
      s.stall t (.fire t f)

/-- FIRE (R64, R96). -/
def execFire (t : Nat) (f : FireOp) (s : State) : Out1 := .next (s.issue t (fun s => s.fire t f))

/-- Tokens moved at every named port, inputs first (R65), with the first uncorrectable error met. -/
def State.movePorts (s : State) (t : Nat) : List Nat → Option MoveErr × State
  | [] => (none, s)
  | p :: ps =>
    let r := if p < 8 then s.landPort t p else s.shipPort t p
    let q := r.2.movePorts t ps
    (firstErr r.1 q.1, q.2)

/-- The offset of an error for TILE_FAULT_ADDR. -/
def MoveErr.addr : MoveErr → Option Int
  | .slot => none
  | .sram off => some (off : Int)

/-- x of a firing: a vector register, or 64 bytes at the next draw, of which HX leaves the upper half unread (R109); none where
that row is uncorrectable. -/
def State.fireX (s : State) (t : Nat) (f : FireOp) : Option Nat × State :=
  let c := s.core t
  if f.xs then
    let r := s.sramRead t (c.gen (f.xr.toNat % 4)).offset.toNat (if f.hx then 32 else 64)
    (r.1.map leNat, r.2)
  else (some (c.vreg f.xr).toNat, s)

/-- The combine of a GE firing into bank `n` (R97, R113); integer mode clears the accumulator. -/
def PlatenSt.group (p : PlatenSt) (away : Bool) (n : Nat) : PlatenSt :=
  let a := p.acc.getD n {}
  { p with
    comb := setAt p.comb n (combine away a.float a.lanes p.k (p.comb.getD n zeroLanes))
    acc := setAt p.acc n (if a.float then a else { a with lanes := zeroLanes }) }

/-- The platen operation of an issued FIRE on `x`. -/
def State.platenOp (s : State) (t : Nat) (f : FireOp) (x : Nat) : State :=
  let p := s.plat t
  let r := s.away t
  let n := (s.core t).bankIx f.acc.toNat f.ix
  let o := firing r p.wf p.xf f.ow f.zf f.hx p.zw p.zx p.activePage.rows x (p.acc.getD n {}).lanes
  let p := { p with acc := setAt p.acc n ⟨o.float, o.lanes⟩ }
  let p := if f.ge then p.group r n else p
  let nan := o.nan || (f.ge && (p.comb.getD n zeroLanes).any nan32)
  let s := s.modPlat t (fun _ => p)
  s.modCore t (fun c =>
    let c := { c with flags := c.flags.join o.sat nan }
    if f.xs then c.draw (f.xr.toNat % 4) else c)

/-- The FIRE completes (Table 2-13). -/
def State.fireDone (s : State) (t : Nat) : State :=
  (((s.inc (TILE_FIRINGS_COUNT.tile t)).complete t (fun c => c)).unstall t).touch (s.cfgSlot t)

/-- An issued FIRE (R65): tokens move, then the platen operation sees them; an uncorrectable error is raised after issue
(R96). -/
def State.fireRun (s : State) (t : Nat) (f : FireOp) : State :=
  let m := s.movePorts t (firePorts f)
  match m.1 with
  | some e => m.2.stageFault t 6 e.addr
  | none =>
    if f.p then
      let off := ((m.2.core t).gen (f.xr.toNat % 4)).offset
      let x := m.2.fireX t f
      match x.1 with
      | some v => (x.2.platenOp t f v).fireDone t
      | none => x.2.stageFault t 6 (some off)
    else m.2.fireDone t

/-- The FIRE that waits at tile `t`, where its conditions hold and the tile runs. -/
def State.dueFire (s : State) (t : Nat) : Option FireOp :=
  match (s.core t).waiting with
  | some (.fire _ f) =>
    if ((s.tile t).st = .running ∨ (s.tile t).st = .stalled) ∧ s.fireable t f then some f else none
  | _ => none

/-- FIRE_ISSUE (R65, R111): nothing where no FIRE is due. -/
def execFireIssue (t : Nat) (s : State) : Out1 :=
  .next (match s.dueFire t with
    | some f => if s.tagDiffers t f then s.stageFault t 0x11 else s.fireRun t f
    | none => s)

end Sys2Proof.Machine
end

