-- ==== Sys2Proof/Machine/FrameStart.lean ====
section
/-! DEFINITION. What a tile's control unit does between frames: the start of a frame (02 R51, 05 R135, R136), END_OF_STREAM
(01 R40, 08 R190) and TAG_RESET (07 R167). -/
namespace Sys2Proof.Machine

/-- What control input `k` of tile `t` has delivered. -/
def State.ctlIn (s : State) (t k : Nat) : CtlIn := (s.tile t).ctl.inp.getD k {}

/-- Control input `k` of tile `t` changed. -/
def State.modIn (s : State) (t k : Nat) (f : CtlIn → CtlIn) : State :=
  s.modTile t (fun x => { x with ctl := { x.ctl with inp := modAt x.ctl.inp k f } })

/-- The lowest-numbered enabled control input of tile `t`. -/
def State.lowIn (s : State) (t : Nat) : Nat :=
  match s.ctlInputs (.tile t) with
  | k :: ks => listMin 0 (k :: ks)
  | [] => 0

/-- Whether every enabled control input of tile `t` satisfies `p`, and there is one. -/
def State.allIn (s : State) (t : Nat) (p : CtlIn → Bool) : Bool :=
  let ks := s.ctlInputs (.tile t)
  !ks.isEmpty && ks.all (fun k => p (s.ctlIn t k))

/-- Whether the control unit may act between frames: WAIT_FRAME with no frame held, or a tile halted for life, which aborts
what reaches it (R403, R35). -/
def State.between (s : State) (t : Nat) : Bool :=
  let x := s.tile t
  x.ctl.frame.isNone && (x.st == .waitFrame || (x.st == .halted && s.unusable t))

/-- The frame-start values of the core, FLAGS, the ring pointers, the watch groups and the loop ports (R51, R77, R171, R189). -/
def State.initFrame (s : State) (t fidx ticket : Nat) : State :=
  s.modTile t (fun x => { x with
    st := if x.st = .waitFrame then .running else x.st
    core := { x.core with
      pc := s.rd (TILE_CFG_ENTRY.tile t)
      ag := (List.range 4).map (s.agConfig t)
      flags := ⟨false, false⟩
      loops := []
      loopDue := false
      waiting := none }
    ports := { x.ports with
      ring := List.replicate 12 0
      loop := x.ports.loop.map (fun l => { l with fired := false }) }
    watch := List.replicate 13 {}
    ctl := { x.ctl with frame := some ⟨fidx, ticket, false, false⟩ } })

/-- The start, ticket and STEER tokens of a frame (R132). -/
def frameHead (fidx ticket : Nat) (steers : List (Nat × Nat)) : List CtlTok :=
  .start fidx :: .ticket ticket :: steers.map (fun u => .steer u.1 u.2)

/-- An abort that came before its frame, carried out as the frame starts (R136, R131), and a frame that an input ended as
aborted or that starts on an unusable tile. -/
def State.abortEarly (s : State) (t ticket : Nat) : State :=
  let c := (s.tile t).ctl
  if c.pending.contains ticket then
    (s.modTile t (fun x => { x with ctl := { x.ctl with pending := x.ctl.pending.filter (fun n => n != ticket) } })).abortHere t
  else if c.abortNext then
    let s := s.modTile t (fun x => { x with ctl := { x.ctl with abortNext := false } })
    ((s.recordCause ticket 0x20B).sendX (ctlOut t) ticket).abortHere t
  else if s.unusable t then (s.sendX (ctlOut t) ticket).abortHere t
  else if (s.ctlInputs (.tile t)).any (fun k => (s.ctlIn t k).ended == some true) then s.abortHere t
  else s

/-- A frame starts once FRAME_START and FRAME_TICKET are on every enabled control input (R135); different tickets are a
stage fault that aborts the frame named on control input 0. -/
def State.tryStart (s : State) (t : Nat) : State :=
  if s.between t && s.allIn t (fun i => i.start.isSome && i.ticket.isSome) then
    let low := s.ctlIn t (s.lowIn t)
    let fidx := low.start.getD 0
    let ticket := low.ticket.getD 0
    let s' := s.initFrame t fidx ticket
    let s' := s'.sendAll (ctlOut t) (frameHead fidx ticket low.steers)
    if s.allIn t (fun i => i.ticket == some ticket) then s'.abortEarly t ticket
    else (s'.stageFault t 10).abortEarly t ticket
  else s

/-- Bytes written to areas of tile SRAM by the control unit. -/
def State.writeAreas (s : State) (t : Nat) : List (Nat × List Byte) → State
  | [] => s
  | w :: ws => ((s.write (.sram t) w.1 w.2 (s.tileMaster t)).2).writeAreas t ws

/-- The initial values of a context's areas on tile `t` (R40): where they lie and their bytes. -/
def State.ctxAreas (s : State) (t fidx : Nat) : List (Nat × List Byte) :=
  let k := s.cfgSlot t
  match (s.slot k).placed.find? (fun p => p.phys == t && p.imp == (s.tile t).imp) with
  | some p => ((s.slot k).inits.filter (fun i => i.stage == p.stage && i.unit == p.unit)).map
      (fun i => (i.off + fidx * i.stride, i.bytes))
  | none => []

/-- END_OF_STREAM handled once it is on every enabled input and a loop input port's AVAIL is at least 1 (R40, R190). -/
def State.tryEos (s : State) (t : Nat) : State :=
  let loops := (List.range 8).filter (fun p => s.isLoopIn t p)
  if s.between t && s.allIn t (fun i => i.eos.isSome) && loops.all (fun p => decide (1 ≤ s.avail t p)) then
    let fidx := (s.ctlIn t (s.lowIn t)).eos.getD 0
    let s := s.writeAreas t (s.ctxAreas t fidx)
    let s := s.modTile t (fun x => { x with ctl := { x.ctl with inp := x.ctl.inp.map (fun i => { i with eos := none }) } })
    s.sendA (ctlOut t) (.eos fidx)
  else s

/-- TAG_RESET handled once it is on every enabled input (R167). -/
def State.tryTagReset (s : State) (t : Nat) : State :=
  if s.between t && s.allIn t (fun i => i.tagReset) then
    let s := s.modTile t (fun x => { x with
      plat := { x.plat with stream := false }
      ports := { x.ports with inTag := List.replicate 8 0, outTag := List.replicate 4 0 }
      ctl := { x.ctl with inp := x.ctl.inp.map (fun i => { i with tagReset := false }) } })
    s.sendA (ctlOut t) .tagReset
  else s

/-- What the control unit of tile `t` can do now, the core apart. -/
def State.ctlGo (s : State) (t : Nat) : State := ((s.tryTagReset t).tryEos t).tryStart t

end Sys2Proof.Machine
end

