-- ==== Sys2Proof/Machine/Refill.lean ====
section
/-! DEFINITION. Sources of an impression that are no tile: stream engines (05 R133, 07 R166, R167), and the refill streams of a
forme with several impressions (09 R208, R209), which send one frame slot after another as the input facing engine sends frames to
impression 0. -/
namespace Sys2Proof.Machine

/-! ## Sources -/

/-- The region address of byte `off` of a slot's HBM pages (01 R29). -/
def Slot.hbmAddr (x : Slot) (off : Nat) : Nat := x.region * 0x200000 + off

/-- The STEER tokens of the steering units that a slot has in an impression, for a steering word (R132). -/
def State.steerToks (s : State) (slot imp word : Nat) : List (Nat × Nat) :=
  ((s.fab.steers.filter (fun u => u.slot == slot && u.imp == imp)).map (·.unit)).eraseDups.map
    (fun u => (u, bits word (2 * u) 2))

/-- The steering word of a context (Table 15-11). -/
def State.steerWord (s : State) (ctx : Nat) : Nat := s.rdc (1 + ctx) CTX_STEER_WORD

/-- A route source's `todo` filled. -/
def State.fillTodo (s : State) (src : Src) (toks : List Nat) : State :=
  { s with fab := { s.fab with routes := s.fab.routes.map (fun r =>
      if r.src = src then { r with todo := r.todo ++ toks } else r) } }

/-- Whether a facing engine or stream engine source has nothing of a frame left to send: no token, no frame end (R133). -/
def State.srcIdle (s : State) (src : Src) : Bool :=
  !s.endPending src && s.fab.routes.all (fun r => r.src != src || r.todo.isEmpty)

/-- TAG_RESET sent by a source; its tag counters return to 0 (R166, R167). -/
def State.tagResetFrom (s : State) (src : Src) : State :=
  let s := s.sendA src .tagReset
  { s with fab := { s.fab with routes := s.fab.routes.map (fun r => if r.src = src then { r with tag := 0 } else r) } }

/-- The stream engines that feed an impression of a slot: those of its weight and scale streams. -/
def State.weightEngines (s : State) (k imp : Nat) : List Nat :=
  (s.fab.ctl.filterMap (fun (r : CtlRoute) => match r.src with
    | Src.eng e => if r.slot = k ∧ r.imp = imp then some e else none
    | _ => none)).eraseDups

/-- Whether every stream engine of an impression has sent all of its last frame. -/
def State.enginesIdle (s : State) (k imp : Nat) : Bool := (s.weightEngines k imp).all (fun e => s.srcIdle (.eng e))

/-- An engine that an error stopped started again for the next frame (R279). -/
def State.engRestart (s : State) (e : Nat) : State :=
  s.modEng e (fun x => if x.st = 6 then { x with st := 0, err := 0 } else x)

/-- What the stream engines of an impression send for a frame (R133, R166): TAG_RESET where it is due, the frame's head, the stream
unless the frame is aborted, its end (log entry 13). -/
def State.engineFrame (s : State) (k imp ticket : Nat) (head : List CtlTok) (reset aborted : Bool) : State :=
  (s.weightEngines k imp).foldl (fun (s : State) e =>
    let s := s.engRestart e
    let s := if reset then s.tagResetFrom (.eng e) else s
    let s := s.sendAll (.eng e) head
    let s := if aborted then s
      else s.fillTodo (.eng e) (((s.slot k).streams.find? (fun x => x.1 == e)).elim [] (·.2))
    s.sendA (.eng e) (.frameEnd ticket aborted)) s

/-! ## Refill streams -/

/-- Stream `i` of a slot's impression plan changed. -/
def State.modStream (s : State) (k i : Nat) (f : CutStream → CutStream) : State :=
  s.modSlot k (fun x => { x with imp := { x.imp with streams := modAt x.imp.streams i f } })

/-- Entry `f` of the round's frame table set to ABORTED. -/
def State.abortEntry (s : State) (k f : Nat) : State :=
  s.modSlot k (fun x => { x with imp := { x.imp with round := modAt x.imp.round f (fun e => (e.1, true)) } })

/-- The entry of the round that bears a ticket set to ABORTED. -/
def State.abortTicketEntry (s : State) (k ticket : Nat) : State :=
  s.modSlot k (fun x => { x with imp := { x.imp with
    round := x.imp.round.map (fun e => if e.1 = ticket then (e.1, true) else e) } })

/-- TAG_RESET due from the source of an impression, after an aborted end has reached its sink, or after a re-lock (R167, R208): from
the input engine ahead of its next frame, from the refill streams ahead of the first frame slot that none of them has begun, so
that it stands at one frame boundary on all of them. -/
def State.tagDue (s : State) (k imp : Nat) : State :=
  if imp = 0 then s.modSlot k (fun x => { x with tagReset := true })
  else
    s.modSlot k (fun x =>
      let n := listMax ((x.imp.streams.filter (fun c => c.imp == imp && !c.spill)).map (·.fslot))
      { x with imp := { x.imp with streams := x.imp.streams.map (fun c =>
          if c.imp = imp ∧ !c.spill ∧ !c.tagDue.contains n then { c with tagDue := c.tagDue ++ [n] } else c) } })

/-- The refill stream with which the stream engines of an impression keep step: its first. -/
def Slot.leadRefill (x : Slot) (imp : Nat) : Option Nat := indexOf? (fun c => c.imp == imp && !c.spill) x.imp.streams

/-- The refill stream with which engine `e` keeps step, as slot and stream, where it feeds an impression after the first. -/
def State.leadOf (s : State) (e : Nat) : Option (Nat × Nat) :=
  (s.fab.ctl.find? (fun r => r.src == .eng e && decide (0 < r.imp))).bind (fun r =>
    ((s.slot r.slot).leadRefill r.imp).map (fun i => (r.slot, i)))

/-- A descriptor error of a spill or refill stream (R215, R279): the engine's error, and frame slot `f` aborted. -/
def State.streamFault (s : State) (k e f : Nat) (h : Halt) : State :=
  let s := s.engError e h
  let s := match (s.slot k).imp.round[f]? with
    | some x => s.recordCause x.1 EV_STREAM_DESC_ERROR
    | none => s
  s.abortEntry k f

/-- Refill stream `i` of slot `k` sends its next frame slot, once nothing of the last one is left to send (R133, R208), the stream
engines of the impression with its first refill stream; a failed read of the cut buffer aborts the frame slot (R215). -/
def State.refillNext (s : State) (k i : Nat) : State :=
  let x := s.slot k
  match x.imp.streams[i]? with
  | none => s
  | some st =>
    let src := Src.refill k i
    let lead := x.leadRefill st.imp == some i
    let free := s.srcIdle src && (!lead || s.enginesIdle k st.imp)
    match x.imp.round[st.fslot]? with
    | none => if free ∧ st.started then s.modStream k i (fun c => { c with done := true }) else s
    | some e =>
      if !st.started || st.spill || !free then s
      else
        let f := s.flightOf e.1
        let fidx := (f.map (·.fidx)).getD 0
        let cut := x.imp.cuts.getD st.cut ⟨0, 0, 0, 0, 0, 0, 0⟩
        let head := frameHead fidx e.1 (s.steerToks k st.imp (s.steerWord ((f.map (·.ctx)).getD 0)))
        let reset := st.tagDue.contains st.fslot
        let s := if reset then (s.tagResetFrom src).modStream k i (fun c => { c with
          tagDue := c.tagDue.filter (fun n => n != st.fslot) }) else s
        let s := s.sendAll src head
        let s := s.engRestart st.engine
        let off := cut.buf + (st.fslot * cut.rows + st.row0) * cut.rowBytes
        let d := if e.2 then (.ok [], s) else s.engRun st.engine (x.hbmAddr off) (st.rows * cut.rowBytes)
        let s := match d.1 with
          | .ok bs => d.2.fillTodo src ((chunks 64 (bs.length + 1) bs).map leNat)
          | .error h => d.2.streamFault k st.engine st.fslot h
        let bad := e.2 || (match d.1 with
          | .ok _ => false
          | .error _ => true)
        let s := if lead then s.engineFrame k st.imp e.1 head reset bad else s
        let s := s.sendA src (.frameEnd e.1 bad)
        s.modStream k i (fun c => { c with fslot := c.fslot + 1 })

end Sys2Proof.Machine
end

