-- ==== Sys2Proof/Machine/SpindleReq.lean ====
section
/-! DEFINITION. REQ and CCLR (03 R99, 04 R115, 06 R160 to R163) with the scale watch (04 R116, 07 R171), the quoin
instructions (03 R101, R102, 04 R120), and GDROP (04 R119). -/
namespace Sys2Proof.Machine

/-! ## REQ -/

/-- A REQ with its operands read: bank, activation, output format, destination, 1/s_out, zero point, clamp codes, and the
watch group it reports to (R99, R115). -/
structure ReqArgs where
  bank : Nat
  act : Nat
  ofmt : Nat
  dst : Bool
  dreg : Nat
  invS : Nat
  zp : Int
  lo : Int
  hi : Int
  watch : Option Nat
deriving DecidableEq, Repr

/-- The clamp codes that a word holds, or the full range of the format (R99). -/
def clampCodes (full : Bool) (ofmt : Nat) (w : Word) : Int × Int :=
  if full then fmtRange ofmt else (signed 16 (bits w.toNat 0 16), signed 16 (bits w.toNat 16 16))

/-- The operands of a REQ; none where its word is illegal at the tile's level (Tables 3-9 and 4-4). -/
def State.reqArgs (s : State) (t : Nat) : ReqOp → Option ReqArgs
  | .l1 c act ofmt dst dreg rsc rzp rcl ix =>
    let k := s.core t
    let o := ofmt.toNat
    if s.level2 t || decide (4 ≤ o) || (dst && dreg.toNat.testBit 2) || (ix && k.loops.isEmpty) ||
        (o == 3 && (rzp != 0 || rcl != 0)) then none
    else
      let r := clampCodes (rcl == 0) o (k.sreg rcl)
      some ⟨k.bankIx c.toNat ix, act.toNat, o, dst, dreg.toNat, (k.sreg rsc).toNat,
        signed 16 (bits (k.sreg rzp).toNat 0 16), r.1, r.2, none⟩
  | .l2 c act ofmt dst dreg rq fr sw ix =>
    let k := s.core t
    let o := ofmt.toNat
    let zp := signed 16 (bits (k.sreg (rq + 1)).toNat 0 16)
    if !s.level2 t || rq == 0 || rq == 14 || rq == 15 || decide (9 ≤ o) || (dst && dreg.toNat.testBit 2) ||
        (ix && k.loops.isEmpty) || (floatFmt o && (!fr || zp != 0)) then none
    else
      let r := clampCodes fr o (k.sreg (rq + 2))
      some ⟨k.bankIx c.toNat ix, act.toNat, o, dst, dreg.toNat, (k.sreg rq).toNat, zp, r.1, r.2,
        if sw then some rq.toNat else none⟩

/-- The conditions of R99 on the operands' values. -/
def ReqArgs.ok (a : ReqArgs) : Bool :=
  (f32 a.invS).finPos && zpOk a.ofmt a.zp && zpOk a.ofmt a.lo && zpOk a.ofmt a.hi && decide (a.lo ≤ a.hi)

/-- Entries of the activation table read one after another into the bytes of a table whose other entries stay 0, with the offset
of the first that is uncorrectable. -/
def State.tableEntries (s : State) (t b : Nat) (bs : List Byte) : List Nat → List Byte × Option Nat × State
  | [] => (bs, none, s)
  | i :: is =>
    let r := s.sramRead t (b + 64 + 8 * i) 8
    match r.1 with
    | none => (bs, some (b + 64 + 8 * i), r.2)
    | some e => r.2.tableEntries t b (bs.take (64 + 8 * i) ++ e ++ bs.drop (72 + 8 * i)) is

/-- The activation table of R162 for lanes of the values `vs`: its header and the entry that each lane needs, or the fault that
the reads raise. TILE_FAULT_ADDR is the model's choice (log entry 68): the table's last byte where the table passes the end of
tile SRAM, and the offset of the header or of the entry that is uncorrectable. -/
def State.reqTable (s : State) (t : Nat) (vs : List Nat) : Option ActTable × Option (Nat × Option Int) × State :=
  let b := (s.core t).tbase
  if 0x17FFFF < b + 2111 then (none, some (1, some ((b + 2111 : Nat) : Int)), s)
  else
    let r := s.sramRead t b 64
    match r.1 with
    | none => (none, some (6, some (b : Int)), r.2)
    | some h =>
      let bs := h ++ zeros 2048
      if !actTableOk bs then (none, some (3, none), r.2)
      else
        let q := r.2.tableEntries t b bs (vs.filterMap (tableSeg (s.away t) (actTableOf bs)))
        match q.2.1 with
        | some off => (none, some (6, some (off : Int)), q.2.2)
        | none => (some (actTableOf q.1), none, q.2.2)

/-- The values of a REQ's lanes after the bias, which its activation takes (R160). -/
def State.reqValues (s : State) (t : Nat) (a : ReqArgs) : List Nat :=
  let p := s.plat t
  (List.range 32).map (fun i => add32 (s.away t) ((p.comb.getD a.bank zeroLanes).getD i 0) (p.bv.getD i 0))

/-- The table that a REQ uses: none is read unless ACT is 3. -/
def State.reqTableFor (s : State) (t : Nat) (a : ReqArgs) : Option ActTable × Option (Nat × Option Int) × State :=
  if a.act = 3 then s.reqTable t (s.reqValues t a) else (some ⟨0, 0, 0, 0, []⟩, none, s)

/-- The watch values after one lane is reported (R171). -/
def Watch.lane (w : Watch) (l : ReqLane) : Watch :=
  let up := fun (n : Nat) (b : Bool) => if b then min (n + 1) 0xFFFFFFFF else n
  { lanes := up w.lanes true
    sat := up w.sat l.sat
    coll := up w.coll l.coll
    peak := if nan32 l.v then w.peak else max w.peak (l.v % 2 ^ 31) }

/-- The lanes of a REQ reported to watch group `m` (R116). -/
def State.report (s : State) (t : Nat) (m : Option Nat) (l : List ReqLane) : State :=
  match m with
  | some g => s.modTile t (fun x => { x with watch := modAt x.watch (g - 1) (fun w => l.foldl Watch.lane w) })
  | none => s

/-- The 32 lanes of a REQ. -/
def State.reqLanes (s : State) (t : Nat) (a : ReqArgs) (tab : ActTable) : List ReqLane :=
  let p := s.plat t
  let r := s.away t
  (List.range 32).map (fun i =>
    reqLane r a.act (s.core t).leaky tab a.ofmt a.invS a.zp a.lo a.hi ((p.comb.getD a.bank zeroLanes).getD i 0)
      (p.bv.getD i 0))

/-- The result of a REQ written and the REQ completed: the watch reported, the flags set, the bank cleared. -/
def State.reqDone (s : State) (t : Nat) (a : ReqArgs) (l : List ReqLane) : State :=
  let s := s.report t a.watch l
  let s := s.modPlat t (fun p => { p with comb := setAt p.comb a.bank zeroLanes })
  s.complete t (fun c => { c with flags := c.flags.join (l.any (·.sat)) (l.any (·.nan)) })

/-- Packed codes in the low bytes of a vector register, the rest unchanged. -/
def lowBytes (n : Nat) (v : Vec) (x : Nat) : Vec := BitVec.ofNat 512 (setBits v.toNat 0 (8 * n) x)

/-- A REQ whose table has been read. -/
def State.reqStore (s : State) (t : Nat) (a : ReqArgs) (tab : ActTable) : State :=
  let l := s.reqLanes t a tab
  let n := reqBytes a.ofmt
  let x := packCodes a.ofmt (l.map (·.code))
  if a.dst then
    let k := a.dreg % 4
    let off := ((s.core t).gen k).offset
    match drawCheck n off with
    | some f => s.stageFault t f.code (some off)
    | none => ((s.sramWrite t off.toNat (leBytes n x)).2.modCore t (fun c => c.draw k)).reqDone t a l
  else
    let vd := BitVec.ofNat 3 a.dreg
    (s.modCore t (fun c => c.setV vd (lowBytes n (c.vreg vd) x))).reqDone t a l

/-- REQ once issued. -/
def State.req (s : State) (t : Nat) (r : ReqOp) : State :=
  match s.reqArgs t r with
  | none => s.illegal t
  | some a =>
    if !a.ok then s.illegal t
    else
      let q := s.reqTableFor t a
      match q.1, q.2.1 with
      | some tab, _ => q.2.2.reqStore t a tab
      | none, some (code, addr) => q.2.2.stageFault t code addr
      | none, none => q.2.2

/-- REQ (R99, R115). -/
def execReq (t : Nat) (r : ReqOp) (s : State) : Out1 := .next (s.issue t (fun s => s.req t r))

/-- CCLR (R100). -/
def execCclr (t : Nat) (c : BitVec 4) (s : State) : Out1 :=
  .next (s.issue t (fun s =>
    (s.modPlat t (fun p => { p with comb := setAt p.comb c.toNat zeroLanes })).complete t (fun c => c)))

/-! ## QOP -/

/-- The quoin that a QOP names: rs1 plus imm12, modulo 2^32. -/
def State.qopIndex (s : State) (t : Nat) (rs1 : BitVec 4) (imm : BitVec 12) : Nat :=
  ((s.core t).sreg rs1 + imm.zeroExtend 32).toNat

/-- The quoin array's address of quoin `i`, at offset `off` of its layout (R346). -/
def quoinAddr (i off : Nat) : Nat := 0x0A10000000 + 16 * i + off

/-- A QOP: the index and the access tables are checked, a refusal being TILE_QUOIN_DENIED (R101); then `act`. -/
def State.qop (s : State) (t : Nat) (rs1 : BitVec 4) (imm : BitVec 12) (off right : Nat) (act : State → Nat → State) :
    State :=
  let i := s.qopIndex t rs1 imm
  if 2 ^ 17 ≤ i then s.stageFault t 9
  else
    let g := s.accessCheck (s.tileMaster t) (quoinAddr i off) 4 right
    if g.1 then act g.2 i else g.2.stageFault t 9

/-- QOP SIGNAL (R101). -/
def execQopSignal (t : Nat) (rs1 rs2 : BitVec 4) (imm : BitVec 12) (s : State) : Out1 :=
  .next (s.issue t (fun s => s.qop t rs1 imm 4 rightW (fun s i =>
    (s.qsignal (s.tileMaster t) i ((s.core t).sreg rs2).toNat).complete t (fun c => c))))

/-- QOP WAIT (R101): completes at once, or waits. -/
def execQopWait (t : Nat) (rs1 rs2 : BitVec 4) (imm : BitVec 12) (s : State) : Out1 :=
  .next (s.issue t (fun s => s.qop t rs1 imm 0 rightW (fun s i =>
    let r := s.qwait i ((s.core t).sreg rs2).toNat (.tile t)
    if r.1 then r.2.complete t (fun c => c) else r.2.stall t (.qopWait t rs1 rs2 imm))))

/-- QOP TEST (R101). -/
def execQopTest (t : Nat) (rd rs1 : BitVec 4) (imm : BitVec 12) (s : State) : Out1 :=
  .next (s.issue t (fun s => s.qop t rs1 imm 0 rightR (fun s i =>
    let r := s.qtest i
    r.2.complete t (fun c => c.setS rd (BitVec.ofNat 32 r.1)))))

/-- QOP RESET (R101); reserved at level 2 (R120). -/
def execQopReset (t : Nat) (rs1 rs2 : BitVec 4) (imm : BitVec 12) (s : State) : Out1 :=
  .next (s.issue t (fun s =>
    if s.level2 t then s.illegal t
    else s.qop t rs1 imm 0 rightW (fun s i =>
      (s.qreset i ((s.core t).sreg rs2).toNat).complete t (fun c => c))))

/-! ## GDROP -/

/-- GDROP (R119): reserved at level 1 (R105). -/
def execGdrop (t : Nat) (port : BitVec 3) (s : State) : Out1 :=
  .next (s.issue t (fun s =>
    if !s.level2 t then s.illegal t
    else if !(s.portCfg t port.toNat).en then s.stageFault t 8
    else (s.dropPacket t port.toNat).2.complete t (fun c => c)))

end Sys2Proof.Machine
end

