-- ==== Sys2Proof/Machine/Copier.lean ====
section
/-! DEFINITION. The forme copier: CPY and CPYW (03 R100), the descriptor and its checks (08 R174, R176), and a job that runs
(R175, R177 to R179). The descriptor is checked when the CPY issues (log entry 8). -/
namespace Sys2Proof.Machine

/-- A copier descriptor (Table 8-1); `raw` is its 64 bytes. -/
structure CopyDesc where
  mode : Nat
  elem : Nat
  fill : Nat
  src : Nat
  rowStride : Nat
  pix : Nat
  ring : Nat
  first : Nat
  slot : Nat
  inW : Nat
  inH : Nat
  cin : Nat
  kh : Nat
  kw : Nat
  sh : Nat
  sw : Nat
  dh : Nat
  dw : Nat
  padT : Nat
  padB : Nat
  padL : Nat
  padR : Nat
  uph : Nat
  upw : Nat
  row0 : Nat
  rows : Nat
  col0 : Nat
  cols : Nat
  dst : Nat
  dstStride : Nat
  dstRing : Nat
  raw : List Byte
deriving DecidableEq, Repr

/-- The descriptor that 64 bytes spell. -/
def copyDesc (b : List Byte) : CopyDesc :=
  let u := fun off n => fieldAt b off n
  { mode := u 0 1, elem := u 1 1, fill := u 2 2, src := u 4 4, rowStride := u 8 4, pix := u 0xC 2, ring := u 0xE 2
    first := u 0x10 2, slot := u 0x12 2, inW := u 0x14 2, inH := u 0x16 2, cin := u 0x18 2
    kh := u 0x1A 1, kw := u 0x1B 1, sh := u 0x1C 1, sw := u 0x1D 1, dh := u 0x1E 1, dw := u 0x1F 1
    padT := u 0x20 1, padB := u 0x21 1, padL := u 0x22 1, padR := u 0x23 1, uph := u 0x24 1, upw := u 0x25 1
    row0 := u 0x28 2, rows := u 0x2A 2, col0 := u 0x2C 2, cols := u 0x2E 2
    dst := u 0x30 4, dstStride := u 0x34 4, dstRing := u 0x38 4, raw := b }

/-- Element width b in bits. -/
def CopyDesc.bits (d : CopyDesc) : Nat := 4 * 2 ^ d.elem

/-- Bytes of one source pixel. -/
def CopyDesc.pixBytes (d : CopyDesc) : Nat := ceilDiv (d.cin * d.bits) 8

/-- Elements of an entry (MODE 0) or of a destination row (MODE 1). -/
def CopyDesc.elems (d : CopyDesc) : Nat := if d.mode = 0 then d.cin * d.kh * d.kw else d.inH

/-- Bytes E of an entry or a destination row, whole 64-byte rows. -/
def CopyDesc.bytes (d : CopyDesc) : Nat := ceilDiv (d.elems * d.bits) 512 * 64

/-- Height of the output map (R175). -/
def CopyDesc.outH (d : CopyDesc) : Int :=
  ((d.inH * d.uph + d.padT + d.padB : Nat) - (d.dh * (d.kh - 1) : Nat) - 1 : Int) / (d.sh : Int) + 1

/-- Width of the output map (R175). -/
def CopyDesc.outW (d : CopyDesc) : Int :=
  ((d.inW * d.upw + d.padL + d.padR : Nat) - (d.dw * (d.kw - 1) : Nat) - 1 : Int) / (d.sw : Int) + 1

/-- The input row that tap `ky` of output row `oy` reads, none where it is padded. -/
def CopyDesc.tapRow (d : CopyDesc) (oy ky : Nat) : Option Nat :=
  let v : Int := (oy * d.sh + ky * d.dh : Nat) - (d.padT : Int)
  if 0 ≤ v ∧ v < (d.inH * d.uph : Nat) then some (v.toNat / d.uph) else none

/-- The input column that tap `kx` of output column `ox` reads, none where it is padded. -/
def CopyDesc.tapCol (d : CopyDesc) (ox kx : Nat) : Option Nat :=
  let v : Int := (ox * d.sw + kx * d.dw : Nat) - (d.padL : Int)
  if 0 ≤ v ∧ v < (d.inW * d.upw : Nat) then some (v.toNat / d.upw) else none

/-- The offset of input pixel (iy, ix). -/
def CopyDesc.pixel (d : CopyDesc) (iy ix : Nat) : Nat :=
  d.src + ((d.slot + d.ring + iy - d.first) % d.ring) * d.rowStride + ix * d.pix

/-- Entries or destination rows of the job. -/
def CopyDesc.count (d : CopyDesc) : Nat := if d.mode = 0 then d.rows * d.cols else d.cin

/-- The offset of entry or destination row `j`. -/
def CopyDesc.entry (d : CopyDesc) (j : Nat) : Nat :=
  d.dst + (if d.mode = 0 ∧ d.dstRing ≠ 0 then j * d.dstStride % d.dstRing else j * d.dstStride)

/-- The byte and half of element `e` of entry `j` in the source, none where it takes FILL (R175, R177). -/
def CopyDesc.source (d : CopyDesc) (j e : Nat) : Option Nat :=
  if d.elems ≤ e then none
  else if d.mode = 0 then
    let tap := e / d.cin
    match d.tapRow (d.row0 + j / d.cols) (tap / d.kw), d.tapCol (d.col0 + j % d.cols) (tap % d.kw) with
    | some iy, some ix => some (d.pixel iy ix + e % d.cin * d.bits / 8)
    | _, _ => none
  else some (d.src + e * d.rowStride + j * d.bits / 8)

/-- Whether element `e` of entry `j` lies in the upper half of its byte (b = 4). -/
def CopyDesc.upper (d : CopyDesc) (j e : Nat) : Bool :=
  d.elem == 0 && (if d.mode = 0 then e % d.cin else j) % 2 == 1

/-- A range of Table 8-1. -/
def inRange (lo hi x : Nat) : Bool := decide (lo ≤ x) && decide (x ≤ hi)

/-- The fields' ranges that both modes share. -/
def CopyDesc.commonOk (d : CopyDesc) : Bool :=
  inRange 0 1 d.mode && inRange 0 2 d.elem && d.rowStride % 64 == 0 && inRange 1 8192 d.inH && inRange 1 4096 d.cin &&
  (d.elem != 0 || d.cin % 2 == 0) && d.dst % 64 == 0 && d.dstStride % 64 == 0 && fieldAt d.raw 0x3C 4 == 0

/-- The fields' ranges in MODE 0. -/
def CopyDesc.rangesOk (d : CopyDesc) : Bool :=
  inRange 1 8192 d.pix && (d.elem != 2 || d.pix % 2 == 0) && inRange 1 4096 d.ring && decide (d.first < d.inH) &&
  decide (d.slot < d.ring) && inRange 1 8192 d.inW && inRange 1 11 d.kh && inRange 1 11 d.kw && inRange 1 8 d.sh &&
  inRange 1 8 d.sw && inRange 1 32 d.dh && inRange 1 32 d.dw && inRange 0 15 d.padT && inRange 0 15 d.padB &&
  inRange 0 15 d.padL && inRange 0 15 d.padR && inRange 1 8 d.uph && inRange 1 8 d.upw && fieldAt d.raw 0x26 2 == 0 &&
  decide (1 ≤ d.rows) && decide (1 ≤ d.cols) &&
  (d.dstRing == 0 || (d.dstStride != 0 && d.dstRing % d.dstStride == 0))

/-- Input rows that the taps of the job read. -/
def CopyDesc.rowsRead (d : CopyDesc) : List Nat :=
  if (List.range d.cols).any (fun c => (List.range d.kw).any (fun k => (d.tapCol (d.col0 + c) k).isSome)) then
    (List.range d.rows).flatMap (fun r => (List.range d.kh).filterMap (fun k => d.tapRow (d.row0 + r) k))
  else []

/-- The conditions of R176 in MODE 0 beyond the ranges. -/
def CopyDesc.expandOk (d : CopyDesc) : Bool :=
  decide (1 ≤ d.outH) && decide (1 ≤ d.outW) && decide ((d.row0 + d.rows : Nat) ≤ d.outH) &&
  decide ((d.col0 + d.cols : Nat) ≤ d.outW) && decide (d.bytes ≤ d.dstStride) && decide (d.pixBytes ≤ d.pix) &&
  decide ((d.inW - 1) * d.pix + d.pixBytes ≤ d.rowStride) &&
  d.rowsRead.all (fun y => inRange d.first (d.first + d.ring - 1) y) &&
  (List.range d.count).all (fun j =>
    decide (d.entry j + d.bytes ≤ d.src) || decide (d.src + d.ring * d.rowStride ≤ d.entry j))

/-- The fields that MODE 1 requires to be zero (R177). -/
def CopyDesc.transposeOk (d : CopyDesc) : Bool :=
  fieldAt d.raw 0x0C 10 == 0 && fieldAt d.raw 0x1A 22 == 0 && d.dstRing == 0

/-- Whether the descriptor is legal (R176). -/
def CopyDesc.ok (d : CopyDesc) : Bool :=
  d.commonOk && (if d.mode = 0 then d.rangesOk && d.expandOk else d.transposeOk)

/-- The highest offset that the job reads or writes. -/
def CopyDesc.top (d : CopyDesc) : Nat :=
  let wr := (List.range d.count).map (fun j => d.entry j + d.bytes - 1)
  let rd := (List.range d.count).flatMap (fun j => (List.range d.elems).filterMap (fun e =>
    (d.source j e).map (fun a => a + (if d.elem = 2 then 1 else 0))))
  listMax (wr ++ rd)

/-! ## CPY and CPYW -/

/-- CPY with room for its job: the descriptor is read and checked, and the job held. The offset that TILE_ADDR_RANGE reports for a
job that passes the end of tile SRAM is the highest one it reaches: the model's choice (log entry 68). -/
def State.copyStart (s : State) (t off : Nat) : State :=
  let r := s.sramRead t off 64
  match r.1 with
  | none => r.2.stageFault t 6 (some (off : Int))
  | some b =>
    let d := copyDesc b
    if !d.ok then r.2.illegal t
    else if 0x17FFFF < d.top then r.2.stageFault t 1 (some (d.top : Int))
    else
      let pc := (r.2.core t).pc
      ((r.2.modTile t (fun x => { x with jobs := x.jobs ++ [⟨b, pc, 0, []⟩] })).complete t (fun c => c)).unstall t

/-- CPY once issued: it waits while two jobs are held. -/
def State.copy (s : State) (t : Nat) (rs1 : BitVec 4) : State :=
  let off := ((s.core t).sreg rs1).toNat
  match drawCheck 64 off with
  | some f => s.stageFault t f.code (some (off : Int))
  | none => if 2 ≤ (s.tile t).jobs.length then s.stall t (.cpy t rs1) else s.copyStart t off

/-- CPY (R100). -/
def execCpy (t : Nat) (rs1 : BitVec 4) (s : State) : Out1 := .next (s.issue t (fun s => s.copy t rs1))

/-- CPYW (R100). -/
def execCpyw (t : Nat) (s : State) : Out1 :=
  .next (s.issue t (fun s => if (s.tile t).jobs = [] then s.complete t (fun c => c) else s.stall t (.cpyw t)))

/-- A waiting CPY, CPYW or ENDF goes on once the copier lets it. -/
def State.retryCopy (s : State) (t : Nat) : State :=
  match (s.core t).waiting with
  | some (.cpy _ rs1) =>
    if (s.tile t).st = .stalled ∧ (s.tile t).jobs.length < 2 then s.copyStart t ((s.core t).sreg rs1).toNat else s
  | some (.cpyw _) =>
    if (s.tile t).st = .stalled ∧ (s.tile t).jobs = [] then (s.complete t (fun c => c)).unstall t else s
  | _ => s.tryEndf t

/-! ## A job that runs

A job goes on row by row: one unit of it is a 64-byte destination row in MODE 0, and in MODE 1 the part of a destination row that
one block of 64 source rows fills (R178). What other masters and the core do between two units is seen by the next one (R179). -/

/-- The columns of a source row whose elements lie in its 64-byte column segment `g` (R178). -/
def CopyDesc.segCols (d : CopyDesc) (g : Nat) : List Nat :=
  (List.range d.cin).filter (fun c => decide ((d.src % 64 + c * d.bits / 8) / 64 = g))

/-- Column segments of a source row. -/
def CopyDesc.segs (d : CopyDesc) : Nat := (d.src % 64 + (d.cin - 1) * d.bits / 8) / 64 + 1

/-- Blocks of 64 source rows. -/
def CopyDesc.blocks (d : CopyDesc) : Nat := ceilDiv d.inH 64

/-- The units of a job in order: entry and 64-byte row in it (MODE 0), or block of source rows, column segment and column
(MODE 1). -/
def CopyDesc.units (d : CopyDesc) : List (Nat × Nat × Nat) :=
  if d.mode = 0 then (List.range d.count).flatMap (fun j => (List.range (d.bytes / 64)).map (fun i => (j, i, 0)))
  else (List.range d.blocks).flatMap (fun b => (List.range d.segs).flatMap (fun g => (d.segCols g).map (fun c => (b, g, c))))

/-- Elements of one entry or column read one after another, or the offset of the first that is uncorrectable. -/
def State.copyElems (s : State) (t : Nat) (d : CopyDesc) (j : Nat) : List Nat → List Nat × Option Nat × State
  | [] => ([], none, s)
  | e :: es =>
    match d.source j e with
    | none =>
      let q := s.copyElems t d j es
      (d.fill % 2 ^ d.bits :: q.1, q.2)
    | some a =>
      let r := s.sramRead t a (if d.elem = 2 then 2 else 1)
      match r.1 with
      | none => ([], some a, r.2)
      | some b =>
        let v := leNat b
        let v := if d.elem = 0 then (if d.upper j e then v / 16 else v % 16) else v
        let q := r.2.copyElems t d j es
        (v :: q.1, q.2)

/-- The elements that block `b` of source rows gives a destination row: its 64 rows, and FILL after the last one. -/
def CopyDesc.blockElems (d : CopyDesc) (b : Nat) : List Nat :=
  let n := if b + 1 = d.blocks then d.bytes * 8 / d.bits - 64 * b else 64
  (List.range n).map (fun i => 64 * b + i)

/-- The columns of a segment read for block `b`, source row by source row. -/
def State.copyBlock (s : State) (t : Nat) (d : CopyDesc) (b : Nat) (cols : List Nat) : List Nat →
    List (List Nat) × Option Nat × State
  | [] => ([], none, s)
  | e :: es =>
    let r := cols.foldl (fun (acc : List Nat × Option Nat × State) c =>
      match acc.2.1 with
      | some _ => acc
      | none =>
        let q := acc.2.2.copyElems t d c [e]
        (acc.1 ++ q.1, q.2)) ([], none, s)
    match r.2.1 with
    | some a => ([], some a, r.2.2)
    | none =>
      let q := r.2.2.copyBlock t d b cols es
      (r.1 :: q.1, q.2)

/-- Elements written from element `e` of entry or destination row `j` on. -/
def State.copyWrite (s : State) (t : Nat) (d : CopyDesc) (j e : Nat) (vs : List Nat) : State :=
  (s.sramWrite t (d.entry j + e * d.bits / 8) (leBytes (vs.length * d.bits / 8) (lanesNat d.bits vs))).2

/-- One unit of the job at work, with what it has read ahead: the offset of an uncorrectable read, or the rows held. -/
def State.copyUnit (s : State) (t : Nat) (d : CopyDesc) (held : List (List Nat)) (u : Nat × Nat × Nat) :
    Except Nat (List (List Nat)) × State :=
  if d.mode = 0 then
    let per := 512 / d.bits
    let r := s.copyElems t d u.1 ((List.range per).map (fun k => u.2.1 * per + k))
    match r.2.1 with
    | some a => (.error a, r.2.2)
    | none => (.ok [], r.2.2.copyWrite t d u.1 (u.2.1 * per) r.1)
  else
    let cols := d.segCols u.2.1
    let first := cols.headD 0
    let r := if u.2.2 = first then s.copyBlock t d u.1 cols (d.blockElems u.1) else (held, none, s)
    match r.2.1 with
    | some a => (.error a, r.2.2)
    | none => (.ok r.1, r.2.2.copyWrite t d u.2.2 (64 * u.1) (r.1.map (fun row => row.getD (u.2.2 - first) 0)))

/-- Units of the job at work one after another, and the rows it holds after them, or the offset of an uncorrectable read. -/
def State.copyUnits (s : State) (t : Nat) (d : CopyDesc) (held : List (List Nat)) :
    List (Nat × Nat × Nat) → Except Nat (List (List Nat)) × State
  | [] => (.ok held, s)
  | u :: us =>
    let r := s.copyUnit t d held u
    match r.1 with
    | .error a => (.error a, r.2)
    | .ok h => r.2.copyUnits t d h us

/-- The oldest held job of tile `t` goes on by at most `n` units; it ends after its last, or at an uncorrectable read (R179). -/
def State.copierJob (s : State) (t n : Nat) : State :=
  match (s.tile t).jobs with
  | [] => s
  | j :: rest =>
    let d := copyDesc j.desc
    let left := d.units.drop j.done
    let r := s.copyUnits t d j.held (left.take n)
    match r.1 with
    | .error a => (r.2.modTile t (fun x => { x with jobs := [] })).stageFaultAt t j.pc 6 (some (a : Int))
    | .ok h =>
      if left.length ≤ n then (r.2.modTile t (fun x => { x with jobs := rest })).retryCopy t
      else r.2.modTile t (fun x => { x with jobs := { j with done := j.done + n, held := h } :: rest })

/-- COPIER_JOB (R175, R177 to R179): `turn.units` units of the job at work. -/
def execCopierJob (turn : CopyTurn) (s : State) : Out1 := .next (s.copierJob turn.t turn.units)

end Sys2Proof.Machine
end

