-- ==== Sys2Proof/Machine/SpindleDecode.lean ====
section
/-! DEFINITION. The words of the spindle core (03 R72, R73, Tables 3-1 to 3-10; 04 R106 to R120, Tables 4-3, 4-4, 4-6) and
the debug control of a tile: TILE_CTRL (02 R71, Table 2-8). A spindle command carries its operands; TILE_STEP executes the
word at the program counter (log entry 9). -/
namespace Sys2Proof.Machine

/-- A field of an instruction word as a bit vector. -/
def wf (w lo n : Nat) : BitVec n := BitVec.ofNat n (bits w lo n)

/-- Whether a field is zero, as Table 3-1 marks it. -/
def zf (w lo n : Nat) : Bool := bits w lo n == 0

/-- A word accepted where a condition holds. -/
def takeIf (b : Bool) (i : Instr) : Option Instr := if b then some i else none

/-- ALU (Table 3-3). -/
def decodeAlu (t w : Nat) : Option Instr :=
  let rd := wf w 22 4
  let a := wf w 18 4
  let b := wf w 14 4
  if !zf w 6 8 then none
  else
    match bits w 0 6 with
    | 0 => some (.add t rd a b)
    | 1 => some (.sub t rd a b)
    | 2 => some (.and t rd a b)
    | 3 => some (.or t rd a b)
    | 4 => some (.xor t rd a b)
    | 5 => some (.sll t rd a b)
    | 6 => some (.srl t rd a b)
    | 7 => some (.sra t rd a b)
    | 8 => some (.mul t rd a b)
    | 9 => some (.mulhs t rd a b)
    | 10 => some (.mulhu t rd a b)
    | 11 => some (.min t rd a b)
    | 12 => some (.max t rd a b)
    | 13 => some (.minu t rd a b)
    | 14 => some (.maxu t rd a b)
    | 15 => some (.slt t rd a b)
    | 16 => some (.sltu t rd a b)
    | _ => none

/-- SHI (R78). -/
def decodeShi (t w : Nat) : Option Instr :=
  let rd := wf w 22 4
  let a := wf w 18 4
  let k := wf w 0 5
  if !zf w 5 11 then none
  else
    match bits w 16 2 with
    | 0 => some (.slli t rd a k)
    | 1 => some (.srli t rd a k)
    | 2 => some (.srai t rd a k)
    | _ => none

/-- AGW (R82): RESET and RESTORE require the rs1 field to be zero. -/
def decodeAgw (t w : Nat) : Option Instr :=
  let ag := wf w 24 2
  let f := bits w 0 4
  if !zf w 22 2 || !zf w 4 14 then none
  else if f ≤ 10 then some (.agwWrite t ag (wf w 18 4) (wf w 0 4))
  else if f = 11 then takeIf (zf w 18 4) (.agwReset t ag)
  else if f = 12 then takeIf (zf w 18 4) (.agwRestore t ag)
  else none

/-- The fields of a VOP word. -/
def vecFields (w : Nat) : VecOp :=
  ⟨wf w 23 3, wf w 20 3, wf w 17 3, wf w 15 2, wf w 13 2, bit w 12, wf w 6 6⟩

/-- VOP (Table 3-6; VFCVT at level 2). -/
def decodeVop (l2 : Bool) (t w : Nat) : Option Instr :=
  let o := vecFields w
  match bits w 0 6 with
  | 0 => some (.vadd t o)
  | 1 => some (.vsub t o)
  | 2 => some (.vmul t o)
  | 3 => some (.vmin t o)
  | 4 => some (.vmax t o)
  | 5 => some (.vand t o)
  | 6 => some (.vor t o)
  | 7 => some (.vxor t o)
  | 8 => some (.vmov t o)
  | 9 => some (.vmac t o)
  | 10 => some (.vdup t o)
  | 16 => some (.vshl t o)
  | 17 => some (.vsrl t o)
  | 18 => some (.vsra t o)
  | 19 => some (.vsrar t o)
  | 20 => some (.vwiden t o)
  | 21 => some (.vnarrow t o)
  | 22 => some (.vcvtf t o)
  | 23 => some (.vcvti t o)
  | 24 => some (.vact t o)
  | 25 => takeIf l2 (.vfcvt t o)
  | _ => none

/-- The fields of a FIRE word (Tables 3-8 and 4-3). -/
def fireFields (w : Nat) : FireOp :=
  ⟨wf w 18 8, wf w 14 4, bit w 13, bit w 12, wf w 9 3, wf w 5 4, bit w 4, bit w 3, bit w 2, bit w 1, bit w 0⟩

/-- The fields of a REQ word at the tile's level (Tables 3-9 and 4-4). -/
def reqFields (l2 : Bool) (w : Nat) : ReqOp :=
  if l2 then .l2 (wf w 22 4) (wf w 20 2) (wf w 16 4) (bit w 15) (wf w 12 3) (wf w 8 4) (bit w 7) (bit w 6) (bit w 0)
  else .l1 (wf w 22 4) (wf w 20 2) (wf w 17 3) (bit w 16) (wf w 13 3) (wf w 9 4) (wf w 5 4) (wf w 1 4) (bit w 0)

/-- QOP (Table 3-10). -/
def decodeQop (l2 : Bool) (t w : Nat) : Option Instr :=
  let rd := wf w 22 4
  let a := wf w 18 4
  let b := wf w 14 4
  let k := wf w 0 12
  match bits w 12 2 with
  | 0 => takeIf (rd == 0) (.qopSignal t a b k)
  | 1 => takeIf (rd == 0) (.qopWait t a b k)
  | 2 => takeIf (b == 0) (.qopTest t rd a k)
  | _ => takeIf (rd == 0 && !l2) (.qopReset t a b k)

/-- A word of the spindle core, none where it is illegal at the tile's level (R73, R105). -/
def decodeSpindle (l2 : Bool) (t w : Nat) : Option Instr :=
  let rd := wf w 22 4
  let a := wf w 18 4
  match bits w 26 6 with
  | 0x01 => decodeAlu t w
  | 0x02 => some (.addi t rd a (wf w 0 18))
  | 0x03 => some (.andi t rd a (wf w 0 18))
  | 0x04 => some (.ori t rd a (wf w 0 18))
  | 0x05 => some (.xori t rd a (wf w 0 18))
  | 0x06 => decodeShi t w
  | 0x07 => some (.lui t rd (wf w 0 22))
  | 0x08 => some (.lw t rd a (wf w 0 18))
  | 0x09 => some (.sw t rd a (wf w 0 18))
  | 0x0A => takeIf (zf w 12 10) (.lc t rd (wf w 0 12))
  | 0x0B => takeIf (zf w 5 17) (.mfs t rd (wf w 0 5))
  | 0x0C => takeIf (zf w 22 4 && zf w 5 13) (.mts t a (wf w 0 5))
  | 0x0D => decodeAgw t w
  | 0x10 => some (.loopi t (wf w 14 12) (wf w 0 14))
  | 0x11 => takeIf (zf w 12 2) (.loopc t (wf w 14 12) (wf w 0 12))
  | 0x12 => takeIf (zf w 12 14) (.br t (wf w 0 12))
  | 0x13 => some (.blc t (wf w 24 2) (wf w 22 2) (wf w 12 10) (wf w 0 12))
  | 0x14 => some (.bck t (wf w 24 2) (wf w 12 12) (wf w 0 12))
  | 0x15 => takeIf (zf w 0 26) (.endf t)
  | 0x18 => decodeVop l2 t w
  | 0x19 => takeIf (zf w 0 21) (.vld t (wf w 23 3) (wf w 21 2))
  | 0x1A => takeIf (zf w 0 19) (.vst t (wf w 23 3) (wf w 21 2) (wf w 19 2))
  | 0x1B => takeIf (zf w 0 15 && zf w 17 2) (.vbc t (wf w 23 3) (wf w 19 4) (wf w 15 2))
  | 0x20 => takeIf (l2 || zf w 0 2) (.fire t (fireFields w))
  | 0x21 =>
    if l2 then takeIf (zf w 0 17) (.pfmt t (wf w 22 4) (wf w 18 4) (bit w 17))
    else takeIf (zf w 0 20) (.pfmt t (BitVec.ofNat 4 (bits w 23 3)) (BitVec.ofNat 4 (bits w 20 3)) false)
  | 0x22 => takeIf (zf w 0 23) (.wld t (wf w 24 2) (bit w 23))
  | 0x23 => takeIf (zf w 0 26) (.wswp t)
  | 0x24 => takeIf (zf w 0 23 && (l2 || !bit w 23)) (.pscl t (wf w 24 2) (bit w 23))
  | 0x25 => takeIf (zf w 0 24) (.pbias t (wf w 24 2))
  | 0x26 => takeIf (!l2 || zf w 1 5) (.req t (reqFields l2 w))
  | 0x27 => takeIf (zf w 0 22) (.cclr t (wf w 22 4))
  | 0x28 => takeIf (zf w 0 22) (.cpy t (wf w 22 4))
  | 0x29 => takeIf (zf w 0 26) (.cpyw t)
  | 0x2A => takeIf (l2 && zf w 0 23) (.gdrop t (wf w 23 3))
  | 0x2B => takeIf (l2 && zf w 0 20) (.pscs t (wf w 23 3) (wf w 20 3))
  | 0x2C => decodeQop l2 t w
  | 0x3F => takeIf (zf w 0 26) (.nop t)
  | _ => none

/-! ## The words of the instructions -/

/-- A word: its major opcode, and fields, each with the place of its lowest bit. -/
def wordOf (op : Nat) (l : List (Nat × Nat)) : Nat := op * 2 ^ 26 + listSum (l.map (fun p => p.1 * 2 ^ p.2))

/-- An ALU word (Tables 3-1 and 3-3). -/
def aluWord (fn : Nat) (rd a b : BitVec 4) : Nat := wordOf 0x01 [(rd.toNat, 22), (a.toNat, 18), (b.toNat, 14), (fn, 0)]

/-- A word of format I. -/
def immWord (op : Nat) (rd a : BitVec 4) (k : Nat) : Nat := wordOf op [(rd.toNat, 22), (a.toNat, 18), (k, 0)]

/-- A VOP word (Tables 3-1 and 3-6). -/
def vopWord (fn : Nat) (o : VecOp) : Nat :=
  wordOf 0x18 [(o.vd.toNat, 23), (o.va.toNat, 20), (o.vb.toNat, 17), (o.w.toNat, 15), (o.ty.toNat, 13), (b2n o.sat, 12),
    (o.imm.toNat, 6), (fn, 0)]

/-- A FIRE word (Tables 3-8 and 4-3). -/
def fireWord (f : FireOp) : Nat :=
  wordOf 0x20 [(f.inp.toNat, 18), (f.out.toNat, 14), (b2n f.p, 13), (b2n f.xs, 12), (f.xr.toNat, 9), (f.acc.toNat, 5),
    (b2n f.ow, 4), (b2n f.ge, 3), (b2n f.ix, 2), (b2n f.zf, 1), (b2n f.hx, 0)]

/-- A REQ word (Tables 3-9 and 4-4). -/
def reqWord : ReqOp → Nat
  | .l1 c act ofmt dst dreg rsc rzp rcl ix =>
    wordOf 0x26 [(c.toNat, 22), (act.toNat, 20), (ofmt.toNat, 17), (b2n dst, 16), (dreg.toNat, 13), (rsc.toNat, 9),
      (rzp.toNat, 5), (rcl.toNat, 1), (b2n ix, 0)]
  | .l2 c act ofmt dst dreg rq fr sw ix =>
    wordOf 0x26 [(c.toNat, 22), (act.toNat, 20), (ofmt.toNat, 16), (b2n dst, 15), (dreg.toNat, 12), (rq.toNat, 8),
      (b2n fr, 7), (b2n sw, 6), (b2n ix, 0)]

/-- A QOP word (Table 3-10). -/
def qopWord (op : Nat) (rd a b : BitVec 4) (k : BitVec 12) : Nat :=
  wordOf 0x2C [(rd.toNat, 22), (a.toNat, 18), (b.toNat, 14), (op, 12), (k.toNat, 0)]

/-- The word of an instruction at a level, from Tables 3-1 to 3-10, 4-3 and 4-4 and the descriptions of R78 to R101; 0 for a
command that is no instruction. -/
def encodeSpindle (l2 : Bool) (i : Instr) : Nat :=
  match i with
  | .add _ rd a b => aluWord 0 rd a b
  | .sub _ rd a b => aluWord 1 rd a b
  | .and _ rd a b => aluWord 2 rd a b
  | .or _ rd a b => aluWord 3 rd a b
  | .xor _ rd a b => aluWord 4 rd a b
  | .sll _ rd a b => aluWord 5 rd a b
  | .srl _ rd a b => aluWord 6 rd a b
  | .sra _ rd a b => aluWord 7 rd a b
  | .mul _ rd a b => aluWord 8 rd a b
  | .mulhs _ rd a b => aluWord 9 rd a b
  | .mulhu _ rd a b => aluWord 10 rd a b
  | .min _ rd a b => aluWord 11 rd a b
  | .max _ rd a b => aluWord 12 rd a b
  | .minu _ rd a b => aluWord 13 rd a b
  | .maxu _ rd a b => aluWord 14 rd a b
  | .slt _ rd a b => aluWord 15 rd a b
  | .sltu _ rd a b => aluWord 16 rd a b
  | .addi _ rd a k => immWord 0x02 rd a k.toNat
  | .andi _ rd a k => immWord 0x03 rd a k.toNat
  | .ori _ rd a k => immWord 0x04 rd a k.toNat
  | .xori _ rd a k => immWord 0x05 rd a k.toNat
  | .slli _ rd a k => immWord 0x06 rd a (0 * 2 ^ 16 + k.toNat)
  | .srli _ rd a k => immWord 0x06 rd a (1 * 2 ^ 16 + k.toNat)
  | .srai _ rd a k => immWord 0x06 rd a (2 * 2 ^ 16 + k.toNat)
  | .lui _ rd k => wordOf 0x07 [(rd.toNat, 22), (k.toNat, 0)]
  | .lw _ rd a k => immWord 0x08 rd a k.toNat
  | .sw _ rd a k => immWord 0x09 rd a k.toNat
  | .lc _ rd k => wordOf 0x0A [(rd.toNat, 22), (k.toNat, 0)]
  | .mfs _ rd k => wordOf 0x0B [(rd.toNat, 22), (k.toNat, 0)]
  | .mts _ a k => immWord 0x0C 0 a k.toNat
  | .agwWrite _ g a k => wordOf 0x0D [(g.toNat, 24), (a.toNat, 18), (k.toNat, 0)]
  | .agwReset _ g => wordOf 0x0D [(g.toNat, 24), (11, 0)]
  | .agwRestore _ g => wordOf 0x0D [(g.toNat, 24), (12, 0)]
  | .loopi _ e n => wordOf 0x10 [(e.toNat, 14), (n.toNat, 0)]
  | .loopc _ e k => wordOf 0x11 [(e.toNat, 14), (k.toNat, 0)]
  | .br _ g => wordOf 0x12 [(g.toNat, 0)]
  | .blc _ l c k g => wordOf 0x13 [(l.toNat, 24), (c.toNat, 22), (k.toNat, 12), (g.toNat, 0)]
  | .bck _ c k g => wordOf 0x14 [(c.toNat, 24), (k.toNat, 12), (g.toNat, 0)]
  | .endf _ => wordOf 0x15 []
  | .vadd _ o => vopWord 0 o
  | .vsub _ o => vopWord 1 o
  | .vmul _ o => vopWord 2 o
  | .vmin _ o => vopWord 3 o
  | .vmax _ o => vopWord 4 o
  | .vand _ o => vopWord 5 o
  | .vor _ o => vopWord 6 o
  | .vxor _ o => vopWord 7 o
  | .vmov _ o => vopWord 8 o
  | .vmac _ o => vopWord 9 o
  | .vdup _ o => vopWord 10 o
  | .vshl _ o => vopWord 16 o
  | .vsrl _ o => vopWord 17 o
  | .vsra _ o => vopWord 18 o
  | .vsrar _ o => vopWord 19 o
  | .vwiden _ o => vopWord 20 o
  | .vnarrow _ o => vopWord 21 o
  | .vcvtf _ o => vopWord 22 o
  | .vcvti _ o => vopWord 23 o
  | .vact _ o => vopWord 24 o
  | .vfcvt _ o => vopWord 25 o
  | .vld _ v g => wordOf 0x19 [(v.toNat, 23), (g.toNat, 21)]
  | .vst _ v g p => wordOf 0x1A [(v.toNat, 23), (g.toNat, 21), (p.toNat, 19)]
  | .vbc _ v a w => wordOf 0x1B [(v.toNat, 23), (a.toNat, 19), (w.toNat, 15)]
  | .fire _ f => fireWord f
  | .pfmt _ wf xf sf =>
    if l2 then wordOf 0x21 [(wf.toNat, 22), (xf.toNat, 18), (b2n sf, 17)] else wordOf 0x21 [(wf.toNat, 23), (xf.toNat, 20)]
  | .wld _ g p => wordOf 0x22 [(g.toNat, 24), (b2n p, 23)]
  | .wswp _ => wordOf 0x23 []
  | .pscl _ g z => wordOf 0x24 [(g.toNat, 24), (b2n z, 23)]
  | .pbias _ g => wordOf 0x25 [(g.toNat, 24)]
  | .req _ r => reqWord r
  | .cclr _ c => wordOf 0x27 [(c.toNat, 22)]
  | .cpy _ a => wordOf 0x28 [(a.toNat, 22)]
  | .cpyw _ => wordOf 0x29 []
  | .gdrop _ p => wordOf 0x2A [(p.toNat, 23)]
  | .pscs _ p d => wordOf 0x2B [(p.toNat, 23), (d.toNat, 20)]
  | .qopSignal _ a b k => qopWord 0 0 a b k
  | .qopWait _ a b k => qopWord 1 0 a b k
  | .qopTest _ rd a k => qopWord 2 rd a 0 k
  | .qopReset _ a b k => qopWord 3 0 a b k
  | .nop _ => wordOf 0x3F []
  | _ => 0

/-- Whether an instruction command of tile `t` has a word at a level: operands that only one level can encode, fields that
the tables leave reserved, and commands that are no instruction are excluded. -/
def spindleWf (l2 : Bool) (t : Nat) (i : Instr) : Bool :=
  match i with
  | .add u _ _ _ => u == t
  | .sub u _ _ _ => u == t
  | .and u _ _ _ => u == t
  | .or u _ _ _ => u == t
  | .xor u _ _ _ => u == t
  | .sll u _ _ _ => u == t
  | .srl u _ _ _ => u == t
  | .sra u _ _ _ => u == t
  | .mul u _ _ _ => u == t
  | .mulhs u _ _ _ => u == t
  | .mulhu u _ _ _ => u == t
  | .min u _ _ _ => u == t
  | .max u _ _ _ => u == t
  | .minu u _ _ _ => u == t
  | .maxu u _ _ _ => u == t
  | .slt u _ _ _ => u == t
  | .sltu u _ _ _ => u == t
  | .addi u _ _ _ => u == t
  | .andi u _ _ _ => u == t
  | .ori u _ _ _ => u == t
  | .xori u _ _ _ => u == t
  | .slli u _ _ _ => u == t
  | .srli u _ _ _ => u == t
  | .srai u _ _ _ => u == t
  | .lui u _ _ => u == t
  | .lw u _ _ _ => u == t
  | .sw u _ _ _ => u == t
  | .lc u _ _ => u == t
  | .mfs u _ _ => u == t
  | .mts u _ _ => u == t
  | .agwReset u _ => u == t
  | .agwRestore u _ => u == t
  | .loopi u _ _ => u == t
  | .loopc u _ _ => u == t
  | .br u _ => u == t
  | .blc u _ _ _ _ => u == t
  | .bck u _ _ _ => u == t
  | .endf u => u == t
  | .vadd u _ => u == t
  | .vsub u _ => u == t
  | .vmul u _ => u == t
  | .vmin u _ => u == t
  | .vmax u _ => u == t
  | .vand u _ => u == t
  | .vor u _ => u == t
  | .vxor u _ => u == t
  | .vmov u _ => u == t
  | .vmac u _ => u == t
  | .vdup u _ => u == t
  | .vshl u _ => u == t
  | .vsrl u _ => u == t
  | .vsra u _ => u == t
  | .vsrar u _ => u == t
  | .vwiden u _ => u == t
  | .vnarrow u _ => u == t
  | .vcvtf u _ => u == t
  | .vcvti u _ => u == t
  | .vact u _ => u == t
  | .vld u _ _ => u == t
  | .vst u _ _ _ => u == t
  | .vbc u _ _ _ => u == t
  | .wld u _ _ => u == t
  | .wswp u => u == t
  | .pbias u _ => u == t
  | .cclr u _ => u == t
  | .cpy u _ => u == t
  | .cpyw u => u == t
  | .qopSignal u _ _ _ => u == t
  | .qopWait u _ _ _ => u == t
  | .qopTest u _ _ _ => u == t
  | .nop u => u == t
  | .agwWrite u _ _ k => u == t && decide (k.toNat ≤ 10)
  | .vfcvt u _ => u == t && l2
  | .fire u f => u == t && (l2 || (!f.zf && !f.hx))
  | .pfmt u wf xf sf => u == t && (l2 || (decide (wf.toNat < 8) && decide (xf.toNat < 8) && !sf))
  | .pscl u _ z => u == t && (l2 || !z)
  | .req u (.l1 ..) => u == t && !l2
  | .req u (.l2 ..) => u == t && l2
  | .gdrop u _ => u == t && l2
  | .pscs u _ _ => u == t && l2
  | .qopReset u _ _ _ => u == t && !l2
  | _ => false

/-- The meaning of a decoded word; other commands are no words of the core. -/
def runWord (i : Instr) (s : State) : Option Out1 :=
  match i with
  | .add t rd a b => some (execAdd t rd a b s)
  | .sub t rd a b => some (execSub t rd a b s)
  | .and t rd a b => some (execAnd t rd a b s)
  | .or t rd a b => some (execOr t rd a b s)
  | .xor t rd a b => some (execXor t rd a b s)
  | .sll t rd a b => some (execSll t rd a b s)
  | .srl t rd a b => some (execSrl t rd a b s)
  | .sra t rd a b => some (execSra t rd a b s)
  | .mul t rd a b => some (execMul t rd a b s)
  | .mulhs t rd a b => some (execMulhs t rd a b s)
  | .mulhu t rd a b => some (execMulhu t rd a b s)
  | .min t rd a b => some (execMin t rd a b s)
  | .max t rd a b => some (execMax t rd a b s)
  | .minu t rd a b => some (execMinu t rd a b s)
  | .maxu t rd a b => some (execMaxu t rd a b s)
  | .slt t rd a b => some (execSlt t rd a b s)
  | .sltu t rd a b => some (execSltu t rd a b s)
  | .addi t rd a k => some (execAddi t rd a k s)
  | .andi t rd a k => some (execAndi t rd a k s)
  | .ori t rd a k => some (execOri t rd a k s)
  | .xori t rd a k => some (execXori t rd a k s)
  | .slli t rd a k => some (execSlli t rd a k s)
  | .srli t rd a k => some (execSrli t rd a k s)
  | .srai t rd a k => some (execSrai t rd a k s)
  | .lui t rd k => some (execLui t rd k s)
  | .lw t rd a k => some (execLw t rd a k s)
  | .sw t rd a k => some (execSw t rd a k s)
  | .lc t rd k => some (execLc t rd k s)
  | .mfs t rd k => some (execMfs t rd k s)
  | .mts t a k => some (execMts t a k s)
  | .agwWrite t g a k => some (execAgwWrite t g a k s)
  | .agwReset t g => some (execAgwReset t g s)
  | .agwRestore t g => some (execAgwRestore t g s)
  | .loopi t e k => some (execLoopi t e k s)
  | .loopc t e k => some (execLoopc t e k s)
  | .br t k => some (execBr t k s)
  | .blc t l c k g => some (execBlc t l c k g s)
  | .bck t c k g => some (execBck t c k g s)
  | .endf t => some (execEndf t s)
  | .vadd t o => some (execVadd t o s)
  | .vsub t o => some (execVsub t o s)
  | .vmul t o => some (execVmul t o s)
  | .vmin t o => some (execVmin t o s)
  | .vmax t o => some (execVmax t o s)
  | .vand t o => some (execVand t o s)
  | .vor t o => some (execVor t o s)
  | .vxor t o => some (execVxor t o s)
  | .vmov t o => some (execVmov t o s)
  | .vmac t o => some (execVmac t o s)
  | .vdup t o => some (execVdup t o s)
  | .vshl t o => some (execVshl t o s)
  | .vsrl t o => some (execVsrl t o s)
  | .vsra t o => some (execVsra t o s)
  | .vsrar t o => some (execVsrar t o s)
  | .vwiden t o => some (execVwiden t o s)
  | .vnarrow t o => some (execVnarrow t o s)
  | .vcvtf t o => some (execVcvtf t o s)
  | .vcvti t o => some (execVcvti t o s)
  | .vact t o => some (execVact t o s)
  | .vfcvt t o => some (execVfcvt t o s)
  | .vld t v g => some (execVld t v g s)
  | .vst t v g p => some (execVst t v g p s)
  | .vbc t v a w => some (execVbc t v a w s)
  | .fire t f => some (execFire t f s)
  | .pfmt t a b c => some (execPfmt t a b c s)
  | .wld t g p => some (execWld t g p s)
  | .wswp t => some (execWswp t s)
  | .pscl t g z => some (execPscl t g z s)
  | .pbias t g => some (execPbias t g s)
  | .pscs t p d => some (execPscs t p d s)
  | .req t r => some (execReq t r s)
  | .cclr t c => some (execCclr t c s)
  | .cpy t a => some (execCpy t a s)
  | .cpyw t => some (execCpyw t s)
  | .qopSignal t a b k => some (execQopSignal t a b k s)
  | .qopWait t a b k => some (execQopWait t a b k s)
  | .qopTest t rd a k => some (execQopTest t rd a k s)
  | .qopReset t a b k => some (execQopReset t a b k s)
  | .gdrop t p => some (execGdrop t p s)
  | .nop t => some (execNop t s)
  | _ => none

/-- The state of an outcome. -/
def outState (s : State) : Option Out1 → State
  | some (.next s') => s'
  | _ => s

/-- The word at the program counter executed (R50, R73). -/
def State.runPc (s : State) (t : Nat) : State :=
  let s := if (s.core t).loopDue then s.modCore t SCore.endBody else s
  let w := leNat ((s.tile t).prog.bytesAt (4 * (s.core t).pc) 4)
  let v := match (s.tile t).prog.look (.prog t) (s.core t).pc with
    | .good v => v
    | .corr v => v
    | .bad => w
  match decodeSpindle (s.level2 t) t v with
  | some i => outState s (runWord i s)
  | none => s.issue t (fun s => s.illegal t)

/-! ## TILE_CTRL -/

/-- Whether a slot serves a contract context: one that is bound to it (R71, R222). -/
def State.servesContract (s : State) (k : Nat) : Bool :=
  s.ctxs.any (fun e => e.2.st != 0 && e.2.slot == k && s.rdc (1 + e.1) CTX_BIND0_CONTRACT == 1)

/-- Whether the halt controls are accepted for tile `t`: debug mode with CORE_DEBUG in scope, and no contract context (R71,
R385). -/
def State.haltOk (s : State) (t : Nat) : Bool :=
  s.rd SEC_DEBUG_STATUS_ACTIVE == 1 && bit (s.rd SEC_DEBUG_STATUS_SCOPE) 1 && (match s.tileSlot t with
    | some k => !s.servesContract k
    | none => true)

/-- HALT: at an instruction boundary, with a waiting FIRE left unissued. -/
def State.halt (s : State) (t : Nat) : State :=
  s.modTile t (fun x => if x.st = .halted then x else { x with st := .halted, back := x.st })

/-- RESUME: the state held before the halt; a waiting PSCS, CPY, CPYW or ENDF whose condition has come true meanwhile goes on
(R75), and control tokens that wait may start a frame. -/
def State.resume (s : State) (t : Nat) : State :=
  if (s.tile t).st = .halted then (((s.modTile t (fun x => { x with st := x.back })).retryPscs t).retryCopy t).ctlGo t else s

/-- STEP: one instruction from HALTED, be it the one that waits; a FIRE is issued only if R64 is met. -/
def State.stepOne (s : State) (t : Nat) : State :=
  if (s.tile t).st = .halted then
    let waited := (s.core t).waiting.isSome
    let s := s.resume t
    let s := if !waited ∧ (s.core t).waiting.isNone ∧ (s.tile t).st = TileSt.running then s.runPc t else s
    (outState s (some (execFireIssue t s))).halt t
  else s

/-- A write of TILE_CTRL: refused whole where one of its commands is; CLEAR needs IDLE. -/
def State.tileCtrl (s : State) (t v : Nat) : Bool × State :=
  if bits v 0 3 ≠ 0 ∧ !s.haltOk t then (false, s)
  else if bit v 3 ∧ (s.tile t).st ≠ .idle then (false, s)
  else
    let s := if bit v 0 then s.halt t else s
    let s := if bit v 1 then s.resume t else s
    let s := if bit v 2 then s.stepOne t else s
    (true, if bit v 3 then s.clearAll (.sram t) else s)

/-- The address of TILE_CTRL of tile `t`. -/
def tileCtrlAddr (t : Nat) : Nat := 0x09001F0004 + 0x200000 * t

/-- TILE_HALT (R71). -/
def execTileHalt (m t : Nat) (s : State) : Out1 := .next (s.writeCmd m (tileCtrlAddr t) 1 (fun s => s.tileCtrl t 1))
/-- TILE_RESUME (R71). -/
def execTileResume (m t : Nat) (s : State) : Out1 := .next (s.writeCmd m (tileCtrlAddr t) 2 (fun s => s.tileCtrl t 2))
/-- TILE_STEP (R71). -/
def execTileStep (m t : Nat) (s : State) : Out1 := .next (s.writeCmd m (tileCtrlAddr t) 4 (fun s => s.tileCtrl t 4))
/-- TILE_CLEAR (R259). -/
def execTileClear (m t : Nat) (s : State) : Out1 := .next (s.writeCmd m (tileCtrlAddr t) 8 (fun s => s.tileCtrl t 8))

end Sys2Proof.Machine
end

