-- ==== Sys2Proof/Machine/Fabric.lean ====
section
/-! DEFINITION. Data tokens on the chase fabric (05 R122 to R131, R138 to R141; 08 R189): leaving a source under credits,
arriving at a galley through the feed window, landing at a loop port, and the steering units. -/
namespace Sys2Proof.Machine

/-! ## Credits (R129, R130) -/

/-- Credits on their way to the sender have arrived; they do before its next decision (R130). -/
def Recv.settled (v : Recv) : Recv := { v with credits := v.credits + v.coming, coming := 0 }

/-- `n` credits returned by a receiver. -/
def Recv.back (v : Recv) (n : Nat) : Recv := { v with coming := v.coming + n }

/-- CREDIT_RETURN (R130): one credit on its way reaches the sender's counter. -/
def execCreditReturn (route recv : Nat) (s : State) : Out1 :=
  .next (s.modRoute route (fun r => { r with recvs := modAt r.recvs recv (fun v =>
    if v.coming = 0 then v else { v with credits := v.credits + 1, coming := v.coming - 1 }) }))

/-! ## Delivery to a receiver -/

/-- The slot whose frame the output engine works on. -/
def State.feSlot (s : State) : Option Nat := s.face.out.order.head?

/-- The output engine changed. -/
def State.modOut (s : State) (f : FeOut → FeOut) : State := { s with face := { s.face with out := f s.face.out } }

/-- Input `k` of the output engine. -/
def State.feIn (s : State) (k : Nat) : CtlIn := tget (fun _ => {}) s.face.out.inp k

/-- Input `k` of the output engine changed. -/
def State.modFeIn (s : State) (k : Nat) (f : CtlIn → CtlIn) : State :=
  s.modOut (fun o => { o with inp := tput (fun _ => {}) o.inp k (f (tget (fun _ => {}) o.inp k)) })

/-- The unit that a source belongs to, for its control routes: every output port of a tile shares one control output. -/
def Src.unit : Src → Src
  | .port t _ => ctlOut t
  | x => x

/-- Whether tokens of a source belong to the frame at work in the output engine: its slot is at work, and the source's
control input there is within a frame (R193). -/
def State.feTakes (s : State) (slot : Nat) (src : Src) : Bool :=
  s.feSlot == some slot && s.fab.ctl.any (fun r => r.dst == .fe && r.src == src.unit && r.slot == slot &&
    (s.feIn r.k).start.isSome && (s.feIn r.k).ended.isNone)

/-- Tokens taken by a head stage. -/
def takeHead (stage : Nat) (src : Src) (d : List Nat) : List HeadIn → List HeadIn
  | [] => [⟨stage, src, d⟩]
  | h :: hs => if h.stage = stage ∧ h.src = src then { h with toks := h.toks ++ d } :: hs else h :: takeHead stage src d hs

/-- The band and unit that a head stage's source comes from: first row and unit (R17); 0 where it is no placed tile. -/
def State.headKey (s : State) (k : Nat) (src : Src) : Nat × Nat :=
  match src with
  | .port t _ => match (s.slot k).placed.find? (fun p => p.phys == t && p.imp == (s.tile t).imp) with
    | some p => (p.row0, p.unit)
    | none => (0, 0)
  | .refill _ i => match (s.slot k).imp.streams[i]? with
    | some st => (st.row0, 0)
    | none => (0, 0)
  | _ => (0, 0)

/-- The windows of a head stage: route, receiver, source, and the receiver's state. -/
def State.windowsOf (s : State) (k stage : Nat) : List (Nat × Nat × Src × Recv) :=
  (List.range s.fab.routes.length).flatMap (fun r =>
    match s.fab.routes[r]? with
    | some x => (List.range x.recvs.length).filterMap (fun j =>
        (x.recvs[j]?).bind (fun v => if v.dst = .feOut k stage then some (r, j, x.src, v) else none))
    | none => [])

/-- Tokens of a source that a head stage has taken of the frame at work. -/
def State.headTaken (s : State) (stage : Nat) (src : Src) : Nat :=
  (s.face.out.heads.find? (fun h => h.stage == stage && h.src == src)).elim 0 (fun h => h.toks.length)

/-- Whether a source brings the output engine no more of the frame at work: its end has been taken, or waits with all data sent. -/
def State.feEnded (s : State) (slot : Nat) (src : Src) : Bool :=
  s.fab.ctl.any (fun r => r.dst == .fe && r.src == src.unit && r.slot == slot && ((s.feIn r.k).ended.isSome ||
    (s.delivered r.src && (match r.a with
      | .frameEnd _ _ :: _ => true
      | _ => false))))

/-- `n` tokens of a window taken into a firing, with their credits (R424). -/
def State.windowTake (s : State) (stage : Nat) (w : Nat × Nat × Src × Recv) (n : Nat) : State :=
  let d := w.2.2.2.lane.take n
  let s := s.modRecv w.1 w.2.1 (fun v => { (v.back d.length) with lane := v.lane.drop n })
  s.modOut (fun o => { o with heads := takeHead stage w.2.2.1 (d.map (·.data)) o.heads })

/-- The head stages' firings for the frame at work (R193, R424): the bands in order, and within one a pixel's operands of every unit at
once, so that nothing is taken before all of them are there. A route's `take` is its tokens of a frame and `skip` those of a
pixel; what comes beyond the count, or beside a source that has ended short, belongs to a frame in error and is taken as it
is. -/
def State.headTake (s : State) (k stage : Nat) : Nat → State
  | 0 => s
  | fuel + 1 =>
    let ws := (s.windowsOf k stage).filter (fun w => s.feTakes k w.2.2.1)
    let past := ws.filter (fun w => decide (w.2.2.2.take ≤ s.headTaken stage w.2.2.1) && !w.2.2.2.lane.isEmpty)
    match past with
    | w :: _ => (s.windowTake stage w w.2.2.2.lane.length).headTake k stage fuel
    | [] =>
      let need := fun (w : Nat × Nat × Src × Recv) =>
        max 1 (min w.2.2.2.skip (w.2.2.2.take - s.headTaken stage w.2.2.1))
      let left := (s.windowsOf k stage).filter (fun w => decide (s.headTaken stage w.2.2.1 < w.2.2.2.take) &&
        !(w.2.2.2.lane.isEmpty && s.feEnded k w.2.2.1))
      let rows := left.map (fun w => (s.headKey k w.2.2.1).1)
      let band := left.filter (fun w => (s.headKey k w.2.2.1).1 == listMin (rows.headD 0) rows)
      let short := (s.windowsOf k stage).any (fun w => (s.headKey k w.2.2.1).1 == listMin (rows.headD 0) rows &&
        decide (s.headTaken stage w.2.2.1 < w.2.2.2.take) && decide (w.2.2.2.lane.length < need w) && s.feEnded k w.2.2.1)
      let go := if short then band.filter (fun w => s.feTakes k w.2.2.1 && !w.2.2.2.lane.isEmpty)
        else if band.all (fun w => s.feTakes k w.2.2.1 && decide (need w ≤ w.2.2.2.lane.length)) then band else []
      if go.isEmpty then s
      else (go.foldl (fun (s : State) w => s.windowTake stage w (need w)) s).headTake k stage fuel

/-- Tokens that lie in a head stage's windows. -/
def State.inWindows (s : State) (k stage : Nat) : Nat := listSum ((s.windowsOf k stage).map (fun w => w.2.2.2.lane.length))

/-- Every head stage of the frame at work fires as far as its windows allow. -/
def State.absorbAll (s : State) : State :=
  match s.feSlot with
  | none => s
  | some k => (s.slot k).heads.foldl (fun (s : State) h => s.headTake k h.1 (s.inWindows k h.1 + 1)) s

/-- One token of a spill stream written to its cut buffer (09 R209); a slot of status ABORTED takes nothing more, and a write that
fails is a descriptor error that aborts the slot (12 R279, R215). -/
def State.spill (s : State) (k i data : Nat) : State :=
  let x := s.slot k
  match x.imp.streams[i]? with
  | none => s
  | some st =>
    let cut := x.imp.cuts.getD st.cut ⟨0, 0, 0, 0, 0, 0, 0⟩
    let off := cut.buf + (st.fslot * cut.rows + st.row0) * cut.rowBytes + 64 * st.taken
    let ok := (x.imp.round[st.fslot]?).any (fun e => !e.2) && decide (64 * st.taken < st.rows * cut.rowBytes)
    let s := if ok then
        let w := (s.engRestart st.engine).engWrite st.engine (x.hbmAddr off) 64 (x.hbmAddr off) (leBytes 64 data)
        match w.1 with
        | .ok _ => w.2
        | .error h => w.2.streamFault k st.engine st.fslot h
      else s
    s.modStream k i (fun c => { c with taken := c.taken + 1 })

/-- Whether a steering unit stands at a place, in the impression that stands there. -/
def State.steerHere (s : State) (sw k : Nat) (u : Steerer) : Bool := u.sw == sw && u.k == k && u.imp == s.swImp u.slot sw

/-- The steering unit at a place. -/
def State.steerer (s : State) (sw k : Nat) : Option Steerer := s.fab.steers.find? (s.steerHere sw k)

/-- The steering unit at a place changed. -/
def State.modSteer (s : State) (sw k : Nat) (f : Steerer → Steerer) : State :=
  { s with fab := { s.fab with steers := s.fab.steers.map (fun u => if s.steerHere sw k u then f u else u) } }

/-- Whether a token that reaches input `j` of a steering unit is discarded there: its frame is aborted and not yet ended on that
input, or the unit has ended it already (R140). -/
def Steerer.discards (u : Steerer) (j : Nat) (v : Recv) : Bool :=
  if j = 0 then u.aborted else decide (0 < v.late) || (u.aborted && v.marks.isEmpty)

/-- A token delivered to receiver `j` of route `r`: on its lane to a galley, to a steering unit, which discards those of an aborted
frame (R140), or into a window of the output engine, or written by a spill stream. -/
def State.deliver (s : State) (r j : Nat) (tok : Token) : State :=
  match (s.fab.routes[r]?).bind (fun x => x.recvs[j]?) with
  | none => s
  | some v =>
    let push := s.modRecv r j (fun v => { v with lane := v.lane ++ [tok] })
    match v.dst with
    | .port _ _ _ => push
    | .steer sw k i => if (s.steerer sw k).any (fun u => u.discards i v) then s.modRecv r j (fun v => v.back 1) else push
    | .feOut k stage => push.headTake k stage (push.inWindows k stage + 1)
    | .spill k i => (s.spill k i tok.data).modRecv r j (fun v => v.back 1)

/-- A token delivered to every receiver of route `r`. -/
def State.deliverAll (s : State) (tok : Token) (r : Nat) : State :=
  match s.fab.routes[r]? with
  | none => s
  | some x => (List.range x.recvs.length).foldl (fun s j => s.deliver r j tok) s

/-! ## The end of a frame at its source (R133) -/

/-- The end of a frame at input 1 to 3 of a steering unit: it settles one that the unit has ended, or marks the lane. -/
def Recv.endMark (v : Recv) : Recv :=
  if 0 < v.late then { v with late := v.late - 1 } else { v with marks := v.marks ++ [v.lane.length] }

/-- Whether route `r` starts at a unit, in the impression that stands there. -/
def State.routeFrom (s : State) (src : Src) (r : Route) : Bool :=
  r.src.unit == src && (match src with
    | .port t _ => r.imp == (s.tile t).imp
    | .steer sw _ => r.imp == s.swImp r.slot sw
    | _ => true)

/-- What follows once a source has sent the whole of a frame: lag is watched anew (R141), and the inputs of steering units that
no control route reaches mark the frame's end. -/
def State.frameSent (s : State) (src : Src) : State :=
  { s with fab := { s.fab with routes := s.fab.routes.map (fun r =>
      if s.routeFrom src r && !r.back then { r with
        lagged := false
        recvs := r.recvs.map (fun v => match v.dst with
          | .steer _ _ j => if 0 < j then v.endMark else v
          | _ => v) }
      else r) } }

/-- What a source does once its frame end has completed its handshake at every receiver: the input engine is free for the
next frame, and a refill stream sends its next frame slot. -/
def State.endSent (s : State) (src : Src) : State :=
  match src with
  | .port _ _ => if s.endPending src then s else s.frameSent src
  | .steer _ _ => if s.endPending src then s else s.frameSent src
  | .eng e =>
    if s.srcIdle src then
      let s := s.frameSent src
      match s.leadOf e with
      | some l => s.refillNext l.1 l.2
      | none => s
    else s
  | .feIn _ =>
    if s.srcIdle src then
      let s := s.frameSent src
      { s with face := { s.face with sending := none } }
    else s
  | .refill k i => if s.srcIdle src then (s.frameSent src).refillNext k i else s

/-- The routes that carry a token of route `i`'s source: every route of one output port or steering unit shares its galley;
a facing engine or stream engine feeds each route of its own (R166). -/
def State.group (s : State) (i : Nat) : List Nat :=
  match s.fab.routes[i]? with
  | none => []
  | some x =>
    let shared := match x.src with
      | .port _ _ => true
      | .steer _ _ => true
      | _ => false
    if shared then
      (List.range s.fab.routes.length).filter (fun j => (s.fab.routes[j]?).any (fun y => y.src == x.src && y.imp == x.imp))
    else [i]

/-- Whether every credit counter of the routes is at least `n` (R130). -/
def State.credited (s : State) (n : Nat) (rs : List Nat) : Bool :=
  rs.all (fun r => (s.fab.routes[r]?).any (fun x => x.recvs.all (fun v => decide (n ≤ v.settled.credits))))

/-- Every counter of the routes lowered by `n`. -/
def State.spend (s : State) (n : Nat) (rs : List Nat) : State :=
  rs.foldl (fun s r => s.modRoute r (fun x => { x with
    recvs := x.recvs.map (fun v => { v.settled with credits := v.settled.credits - n }) })) s

/-- A token sent on the routes under their credits. -/
def State.send (s : State) (rs : List Nat) (tok : Token) : State :=
  rs.foldl (fun s r => s.deliverAll tok r) (s.spend 1 rs)

/-! ## Leaving a source (R130, R133, R166) -/

/-- The tag of the next token of a source that is no tile, and its counter after it (R166): a stream engine tags both tokens of
a scale block alike, a facing engine every token by itself. R166 gives a refill stream's tokens no tag: that they are tagged as a
facing engine's is the model's choice (log entry 72). -/
def Route.nextTag (x : Route) : Nat × Nat :=
  match x.src with
  | .eng _ => (x.tag / 2 % 16, (x.tag + 1) % 32)
  | _ => (x.tag % 16, (x.tag + 1) % 16)

/-- Port `p` of tile `t` sends its oldest token that may be read; an uncorrectable slot is freed and is a stage fault (R262,
R289). -/
def State.egressPort (s : State) (t p : Nat) (rs : List Nat) : State :=
  let g := (s.tile t).ports.gal p
  let d := s.peekToken t p 0
  let s := d.2.popTokens t p 1
  match d.1 with
  | some v => (s.send rs ⟨v, g.tags.headD 0⟩).payLoop t p
  | none => (s.stageFault t 6).payLoop t p

/-- One token leaves the source of route `i`, where it has one and holds every credit. A tile sends none while a frame end of it
is on its way; a facing engine or stream engine is given a frame's tokens only after the last frame's end, and sends its end
behind them (R133). -/
def State.egress (s : State) (i : Nat) : State :=
  match s.fab.routes[i]? with
  | none => s
  | some x =>
    let rs := s.group i
    if !s.credited 1 rs then s
    else
      match x.src with
      | .port t p =>
        if x.imp = (s.tile t).imp ∧ 0 < s.readable t p ∧ !s.endPending x.src.unit then (s.touch x.slot).egressPort t p rs else s
      | .steer _ _ => s
      | src =>
        match x.todo with
        | [] => s
        | d :: ds =>
          let s := (s.touch x.slot).modRoute i (fun x => { x with todo := ds, tag := x.nextTag.2 })
          let s := s.send rs ⟨d, x.nextTag.1⟩
          if ds.isEmpty then s.endSent src else s

/-! ## Arriving at a galley (R127, R130, R131) -/

/-- The control input of tile `t` that shares the source of route `r`. -/
def State.routeInput (s : State) (t r : Nat) : Option Nat :=
  match s.fab.routes[r]? with
  | none => none
  | some x => (s.fab.ctl.find? (fun c => c.dst == .tile t && c.src == x.src.unit && c.imp == x.imp)).map (·.k)

/-- Whether tokens arriving over route `r` belong to the aborted frame that tile `t` holds: that input has not ended it. -/
def State.discarding (s : State) (t r : Nat) : Bool :=
  (s.tile t).ctl.frame.any (fun f => f.aborted) && (match s.routeInput t r with
    | some k => (s.ctlIn t k).start.isSome && (s.ctlIn t k).ended.isNone
    | none => false)

/-- Whether the feed window passes a token: the unit it belongs to lies after SKIP and within TAKE (R127). -/
def Recv.passes (v : Recv) (count : Nat) : Bool :=
  v.all || (decide (v.skip ≤ v.seen / count) && decide (v.seen / count < v.skip + v.take))

/-- Whether a token that arrives over receiver `v` of route `r` is written to the galley of port `p`: not one of an aborted frame, one
outside the feed window, or one of a dropped packet. -/
def State.keeps (s : State) (t p r : Nat) (v : Recv) : Bool :=
  !s.discarding t r && v.passes (s.portCfg t p).count && ((s.tile t).ports.gal p).dropLeft == 0

/-- A token of the active feed written to its galley, or discarded with its credit returned by the window, by a dropped
packet or for an aborted frame. -/
def State.arrive (s : State) (t p r j : Nat) (v : Recv) (tok : Token) (parityBad : Bool) : State :=
  let keep := s.keeps t p r v
  let pass := !s.discarding t r && v.passes (s.portCfg t p).count
  let s := s.modRecv r j (fun v => { v with lane := v.lane.drop 1, seen := v.seen + 1 })
  let gone := s.modRecv r j (fun v => v.back 1)
  let s :=
    if keep then ((s.pushToken t p tok.data tok.tag).retryPscs t).lagAt t p
    else if pass then gone.modGal t p (fun g => { g with dropLeft := g.dropLeft - 1 })
    else gone
  if parityBad then (s.inc LOAD_FAB_PARITY_COUNT).stageFault t 11 else s

/-- A loop token landed at its context's ring offset; one whose CONTEXT is not less than RING_TOKENS is discarded (R189). -/
def State.landLoop (s : State) (t p : Nat) (tok : Token) : State :=
  let c := s.portCfg t p
  let ctx := bits tok.data 0 16
  let s := if ctx < c.ringTok then
      ((s.write (.sram t) (c.ringBase + ctx * 64) (leBytes 64 tok.data) (s.tileMaster t)).2).modTile t (fun x =>
        { x with ports := { x.ports with inTag := setAt x.ports.inTag p tok.tag } })
    else s
  let s := s.modLoop t p (fun l => { l with avail := l.avail + 1 })
  (s.payLoop t p).tryEos t

/-- LOOP_TOKEN_LANDING (R189); a parity error is handled as at any port (R131). -/
def execLoopTokenLanding (t : Nat) (op : LoopOp) (s : State) : Out1 :=
  .next (if s.isLoopIn t op.port then
      match s.feedRecv t op.port ((s.tile t).ports.gal op.port).feed with
      | none => s
      | some (r, j) =>
        match ((s.fab.routes[r]?).bind (fun x => x.recvs[j]?)).bind (fun v => v.lane.head?) with
        | none => s
        | some tok =>
          let s := (s.modRecv r j (fun v => { (v.back 1) with lane := v.lane.drop 1 })).landLoop t op.port tok
          if op.parityBad then (s.inc LOAD_FAB_PARITY_COUNT).stageFault t 11 else s
    else s)

/-! ## Steering units (R138 to R140) -/

/-- The routes that end at a steering unit, as route and receiver index, by input. -/
def State.steerInputs (s : State) (sw k n : Nat) : List (Option (Nat × Nat)) :=
  (List.range n).map (fun j => recvAt (fun r v => v.dst == .steer sw k j && r.imp == s.swImp r.slot sw) s.fab.routes)

/-- The tokens on the lane of a receiver. -/
def State.laneAt (s : State) (rj : Nat × Nat) : List Token :=
  ((s.fab.routes[rj.1]?).bind (fun x => x.recvs[rj.2]?)).elim [] (·.lane)

/-- `n` tokens of a receiver's lane gone, their credits returned. -/
def State.dropLane (s : State) (n : Nat) (rj : Nat × Nat) : State :=
  s.modRecv rj.1 rj.2 (fun v => { (v.back (min n v.lane.length)) with
    lane := v.lane.drop n, marks := v.marks.map (fun m => m - n) })

/-- The routes whose source is a steering unit. -/
def State.steerOut (s : State) (sw k : Nat) : List Nat :=
  (List.range s.fab.routes.length).filter (fun i => (s.fab.routes[i]?).any (s.routeFrom (.steer sw k)))

/-- The tokens of the frame at hand on the lane of a steering unit's input: none beyond the frame's end there. -/
def State.frameLane (s : State) (rj : Nat × Nat) : List Token :=
  match (s.fab.routes[rj.1]?).bind (fun x => x.recvs[rj.2]?) with
  | some v => v.lane.take (v.marks.headD v.lane.length)
  | none => []

/-- One block position of a steering unit: the selected input's block forwarded, the others discarded. -/
def State.steerFire (s : State) (u : Steerer) : State :=
  let ins := (s.steerInputs u.sw u.k u.inputs).filterMap id
  let out := s.steerOut u.sw u.k
  match u.sel with
  | none => s
  | some sel =>
    match ins[sel]? with
    | none => s
    | some rj =>
      if u.frame.isSome && !u.aborted && ins.length == u.inputs && !s.endPending (.steer u.sw u.k) &&
          ins.all (fun e => decide (u.block ≤ (s.frameLane e).length)) && s.credited u.block out then
        let blk := (s.frameLane rj).take u.block
        let s := (s.touch u.slot).modSteer u.sw u.k (fun x => { x with done := x.done + 1 })
        let s := ins.foldl (fun s e => s.dropLane u.block e) s
        blk.foldl (fun s tok => out.foldl (fun s r => s.deliverAll tok r) s) (s.spend u.block out)
      else s

/-- STEERING_FIRE (R139). -/
def execSteeringFire (sw k : Nat) (s : State) : Out1 :=
  .next (match s.steerer sw k with
    | some u => s.steerFire u
    | none => s)

/-- What a steering unit holds of its frame discarded, with the credits returned (R140). -/
def State.steerDrain (s : State) (u : Steerer) : State :=
  (s.steerInputs u.sw u.k u.inputs).foldl (fun s e => match e with
    | some rj => s.dropLane (s.frameLane rj).length rj
    | none => s) s

/-- The unit's frame has ended (R140): what is left of it on inputs 1 to 3 is discarded, now or as it arrives. -/
def State.steerEnd (s : State) (u : Steerer) : State :=
  ((s.steerInputs u.sw u.k u.inputs).drop 1).foldl (fun s e => match e with
    | some rj => (s.dropLane (s.frameLane rj).length rj).modRecv rj.1 rj.2 (fun v =>
        if v.marks.isEmpty then { v with late := v.late + 1 } else { v with marks := v.marks.drop 1 })
    | none => s) s

/-- The frame that a steering unit holds aborted there. -/
def State.steerAbort (s : State) (u : Steerer) : State :=
  (s.modSteer u.sw u.k (fun x => { x with aborted := true })).steerDrain u

end Sys2Proof.Machine
end

