-- ==== Sys2Proof/Machine/Control.lean ====
section
/-! DEFINITION. Control tokens (05 R131 to R137, 01 R38 to R42): what a tile, a steering unit, a spill stream and the output
facing engine do with the token at the head of sub-channel A or X of an input. A token that may not be handled yet stays
where it is. -/
namespace Sys2Proof.Machine

/-! ## A tile -/

/-- A token out of the order of R132 (R131): discarded; a stage fault that aborts the frame held, or the next one. -/
def State.disorder (s : State) (t : Nat) : State :=
  let s := if (s.tile t).ctl.frame.isNone then
      s.modTile t (fun x => { x with ctl := { x.ctl with abortNext := true } })
    else s
  s.stageFault t 11

/-- Whether feed `f` of port `p` of tile `t` has yet to deliver the end of the frame. -/
def State.feedOpen (s : State) (t p f : Nat) : Bool :=
  match (s.feedRecv t p f).bind (fun e => s.routeInput t e.1) with
  | some k => (s.ctlIn t k).ended.isNone
  | none => true

/-- The feed of port `p` that is due (R129): the first that has yet to deliver the frame's end, or feed 0 for the next frame. -/
def State.dueFeed (s : State) (t p : Nat) : Option Nat := (List.range (s.feeds t p)).find? (s.feedOpen t p)

/-- A frame mark on a port, and the feed that is due after it made active (R129, R134). -/
def State.markPort (s : State) (t ticket p : Nat) : State :=
  let s := s.modGal t p (fun g => { g with marks := g.marks ++ [⟨ticket, g.tags.length⟩] })
  match s.dueFeed t p with
  | none => s.activate t p 0
  | some f => if f = ((s.tile t).ports.gal p).feed then s else s.activate t p f

/-- FRAME_END or FRAME_END_ABORTED taken at control input `k` (R134): one that is aborted aborts the frame at the tile (R41).
-/
def State.tileEnd (s : State) (t k ticket : Nat) (aborted : Bool) (r : CtlRoute) : State :=
  let s := s.modIn t k (fun i => { i with ended := some aborted })
  let s := ((List.range 8).filter (fun p => r.mask.testBit p)).foldl (fun s p => s.markPort t ticket p) s
  let s := if aborted ∧ (s.tile t).ctl.frame.isSome then s.abortHere t else s
  s.tryEndf t

/-- A token of sub-channel A taken by tile `t` at input `k`. -/
def State.tileTake (s : State) (t k : Nat) (r : CtlRoute) (tok : CtlTok) : State :=
  let i := s.ctlIn t k
  match tok with
  | .start f => if i.start.isNone then (s.modIn t k (fun i => { i with start := some f })).ctlGo t else s.disorder t
  | .ticket n =>
    if i.start.isSome ∧ i.ticket.isNone then (s.modIn t k (fun i => { i with ticket := some n })).ctlGo t
    else s.disorder t
  | .steer u v =>
    if i.start.isNone then s.disorder t
    else if (s.tile t).ctl.frame.isSome then (if k = s.lowIn t then s.sendA (ctlOut t) (.steer u v) else s)
    else s.modIn t k (fun i => { i with steers := i.steers ++ [(u, v)] })
  | .frameEnd n a => if i.start.isSome then s.tileEnd t k n a r else s.disorder t
  | .eos f => if i.start.isNone then (s.modIn t k (fun i => { i with eos := some f })).ctlGo t else s.disorder t
  | .tagReset => if i.start.isNone then (s.modIn t k (fun i => { i with tagReset := true })).ctlGo t else s.disorder t

/-- Whether input `k` of tile `t` has delivered what it may before the tile goes on. -/
def State.tileFull (s : State) (t k : Nat) : Bool :=
  let i := s.ctlIn t k
  i.ended.isSome || i.eos.isSome || i.tagReset

/-- ABORT at a tile's control unit (R136). -/
def State.tileAbort (s : State) (t ticket : Nat) : State :=
  let c := (s.tile t).ctl
  let held := c.frame.any (fun f => f.ticket == ticket)
  if held then
    if c.frame.any (fun f => f.aborted) then s else (s.sendX (ctlOut t) ticket).abortHere t
  else if c.past.contains ticket then s.sendX (ctlOut t) ticket
  else if c.pending.contains ticket then s
  else (s.modTile t (fun x => { x with ctl := { x.ctl with pending := (x.ctl.pending ++ [ticket]).take 64 } })).sendX (ctlOut t)
    ticket

/-! ## A steering unit (R138 to R140) -/

/-- A token of sub-channel A taken by a steering unit: all are forwarded but the STEER that bears its own index. -/
def State.steerTake (s : State) (u : Steerer) (tok : CtlTok) : State :=
  let src := Src.steer u.sw u.k
  match tok with
  | .start f => (s.modSteer u.sw u.k (fun x => { x with fidx := f })).sendA src tok
  | .ticket n =>
    let s := (s.modSteer u.sw u.k (fun x => { x with
      frame := some n, done := 0, pend := x.pend.filter (fun m => m != n), abortNext := false })).sendA src tok
    if u.pend.contains n then s.steerAbort { u with frame := some n }
    else if u.abortNext then (s.sendX src n).steerAbort { u with frame := some n }
    else s
  | .steer i v =>
    if i ≠ u.unit then s.sendA src tok
    else if v < u.inputs then s.modSteer u.sw u.k (fun x => { x with sel := some v })
    else
      let ticket := u.frame.getD 0
      let s := (s.modSteer u.sw u.k (fun x => { x with sel := none })).recordCause ticket EV_STEER_STARVED
      let s := s.raise EV_STEER_STARVED (srcTile u.sw) (tickCtx ticket ((s.ctxOf u.slot u.fidx).getD 0)) 1 u.unit
      if u.aborted then s else (s.sendX src ticket).steerAbort u
  | .frameEnd n a =>
    let s := (s.sendA src (.frameEnd n (a || u.aborted))).endSent src
    (s.modSteer u.sw u.k (fun x => { x with
      sel := none, frame := none, aborted := false, past := (n :: x.past).take 64 })).steerEnd u
  | _ => s.sendA src tok

/-- ABORT at a steering unit: the frame it holds, or one still to come; one that it has ended is forwarded without effect. -/
def State.steerX (s : State) (u : Steerer) (ticket : Nat) : State :=
  let src := Src.steer u.sw u.k
  if u.frame = some ticket then
    if u.aborted then s else (s.sendX src ticket).steerAbort u
  else if u.past.contains ticket then s.sendX src ticket
  else if u.pend.contains ticket then s
  else (s.modSteer u.sw u.k (fun x => { x with pend := (x.pend ++ [ticket]).take 64 })).sendX src ticket

/-! ## A spill stream (09 R208, R209) -/

/-- A token of sub-channel A taken by spill stream `i` of slot `k`: an end moves it to the next frame slot, an aborted one marks
the slot and calls for TAG_RESET from the source of its impression (R167). -/
def State.spillTake (s : State) (k i : Nat) (tok : CtlTok) : State :=
  match tok, (s.slot k).imp.streams[i]? with
  | .frameEnd _ a, some st =>
    let s := if a then (s.abortEntry k st.fslot).tagDue k st.imp else s
    s.modStream k i (fun c => { c with fslot := c.fslot + 1, taken := 0 })
  | _, _ => s

/-! ## The output facing engine (R193, 01 R40, R42, 07 R167) -/

/-- A token of sub-channel A taken by the output engine at input `k`, which belongs to slot `sl`. -/
def State.feTake (s : State) (k sl : Nat) (tok : CtlTok) : State :=
  match tok with
  | .start f =>
    let s := s.modFeIn k (fun i => { i with start := some f })
    let s := s.modOut (fun o => if o.order.contains sl then o else { o with order := o.order ++ [sl] })
    s.absorbAll
  | .ticket n =>
    let s := if (s.feIn k).bad then s.modOut (fun o => { o with x := if o.x.contains n then o.x else o.x ++ [n] }) else s
    let s := s.modFeIn k (fun i => { i with ticket := some n, bad := false })
    if s.feSlot = some sl then s.modFlight n (fun x => { x with taken := true }) else s
  | .steer _ _ => s
  | .frameEnd _ a =>
    let s := s.modFeIn k (fun i => { i with ended := some a })
    if a then s.tagDue sl ((s.slot sl).imp.count - 1) else s
  | .eos f =>
    let s := s.modFeIn k (fun i => { i with eos := some f })
    let ks := (s.fab.ctl.filter (fun r => r.dst == .fe && r.slot == sl)).map (·.k)
    if ks.all (fun j => (s.feIn j).eos.isSome) then
      let s := ks.foldl (fun s j => s.modFeIn j (fun i => { i with eos := none })) s
      match s.ctxOf sl f with
      | some c => s.modCtx c (fun x => { x with eosDone := true })
      | none => s
    else s
  | .tagReset => s

/-- Whether input `k` of the output engine must wait for the records of the frame at hand. -/
def State.feFull (s : State) (k : Nat) : Bool := (s.feIn k).ended.isSome || (s.feIn k).eos.isSome

/-- ABORT at the output engine: the frame's records give way to an error record, or, where they have left, ABORT_LATE (R42).
-/
def State.feX (s : State) (ticket : Nat) : State :=
  if (s.flightOf ticket).isSome then s.modOut (fun o => if o.x.contains ticket then o else { o with x := o.x ++ [ticket] })
  else
    match s.face.done.find? (fun e => e.1 == ticket) with
    | some e =>
      let s := { s with face := { s.face with done := s.face.done.filter (fun x => x.1 != ticket) } }
      s.raise EV_ABORT_LATE (0x58 + s.rd LOAD_FE_ROLE_OUTPUT) (tickCtx ticket e.2) 0 0
    | none => s

/-! ## The head of a sub-channel -/

/-- Whether the frame end at the head of the route into input `k` of a node may complete its handshake (R133): every data token
of its source has, the output engine works on that slot and has taken them all, and a steering unit has forwarded its
blocks. -/
def State.endGate (s : State) (d : Node) (r : CtlRoute) : Bool :=
  s.delivered r.src && (match d with
    | .tile _ => true
    | .spill _ _ => true
    | .fe => s.feSlot == some r.slot && s.fab.routes.all (fun x => x.src.unit != r.src || x.recvs.all (fun v =>
        match v.dst with
        | .feOut _ _ => v.lane.isEmpty
        | _ => true))
    | .steer sw k => s.delivered (.steer sw k) && s.fab.routes.all (fun x => x.recvs.all (fun v =>
        v.dst != .steer sw k 0 || v.lane.isEmpty)))

/-- Whether a node may take the token now. -/
def State.mayTake (s : State) (d : Node) (k : Nat) (r : CtlRoute) (tok : CtlTok) : Bool :=
  (match d with
    | .tile t => !s.tileFull t k
    | .fe => !s.feFull k
    | _ => true) && (match tok with
    | .frameEnd _ _ => s.endGate d r
    | _ => true)

/-- The token taken by its node. -/
def State.nodeTake (s : State) (d : Node) (k : Nat) (r : CtlRoute) (tok : CtlTok) : State :=
  match d with
  | .tile t => s.tileTake t k r tok
  | .steer sw n =>
    match s.steerer sw n with
    | some u => s.steerTake u tok
    | none => s
  | .spill sl i => s.spillTake sl i tok
  | .fe => s.feTake k r.slot tok

/-- A control token lost to a parity error or a reserved type (R131): a parity error is counted; a tile treats it as it treats one
out of order, any other unit as an ABORT of the frame at that input, or of the next one there (log entry 67). -/
def State.ctlLost (s : State) (d : Node) (k flip : Nat) : State :=
  let s := if parityBroken flip then s.inc LOAD_FAB_PARITY_COUNT else s
  match d with
  | .tile t => s.disorder t
  | .steer sw n =>
    match s.steerer sw n with
    | some u => match u.frame with
      | some m => s.steerX u m
      | none => s.modSteer sw n (fun x => { x with abortNext := true })
    | none => s
  | .spill sl i => s.abortEntry sl (((s.slot sl).imp.streams[i]?).elim 0 (·.fslot))
  | .fe =>
    match (s.feIn k).ticket with
    | some m => s.feX m
    | none => s.modFeIn k (fun i => { i with bad := true })

/-- The token at the head of sub-channel A of input `k`, if `want` names its type and the node may take it; `flip` are the bits of
it that changed on the way (R131). -/
def State.takeA (s : State) (d : Node) (k flip : Nat) (want : CtlTok → Bool) : State :=
  match s.ctlInto d k with
  | none => s
  | some i =>
    match s.fab.ctl[i]? with
    | none => s
    | some r =>
      match r.a with
      | [] => s
      | tok :: rest =>
        if want tok && s.mayTake d k r tok then
          let s := (s.touch r.slot).modCtl i (fun r => { r with a := rest })
          let s := match tok.received flip with
            | some tok => s.nodeTake d k r tok
            | none => s.ctlLost d k flip
          match tok with
          | .frameEnd _ _ => s.endSent r.src
          | _ => s
        else s

/-- FRAME_START (R135, R51). -/
def execFrameStart (d : Node) (c : CtlOp) (s : State) : Out1 :=
  .next (s.takeA d c.k c.flip (fun tok => match tok with
    | .start _ => true
    | _ => false))

/-- FRAME_TICKET (R132, R135). -/
def execFrameTicket (d : Node) (c : CtlOp) (s : State) : Out1 :=
  .next (s.takeA d c.k c.flip (fun tok => match tok with
    | .ticket _ => true
    | _ => false))

/-- STEER (R132, R139). -/
def execSteer (d : Node) (c : CtlOp) (s : State) : Out1 :=
  .next (s.takeA d c.k c.flip (fun tok => match tok with
    | .steer _ _ => true
    | _ => false))

/-- What lies in the output engine's windows taken as far as it goes, before an end there is looked at. -/
def State.beforeEnd (s : State) (d : Node) : State := if d = .fe then s.absorbAll else s

/-- FRAME_END (R134). -/
def execFrameEnd (d : Node) (c : CtlOp) (s : State) : Out1 :=
  .next ((s.beforeEnd d).takeA d c.k c.flip (fun tok => match tok with
    | .frameEnd _ a => !a
    | _ => false))

/-- FRAME_END_ABORTED (R134). -/
def execFrameEndAborted (d : Node) (c : CtlOp) (s : State) : Out1 :=
  .next ((s.beforeEnd d).takeA d c.k c.flip (fun tok => match tok with
    | .frameEnd _ a => a
    | _ => false))

/-- END_OF_STREAM (R40). -/
def execEndOfStream (d : Node) (c : CtlOp) (s : State) : Out1 :=
  .next (s.takeA d c.k c.flip (fun tok => match tok with
    | .eos _ => true
    | _ => false))

/-- TAG_RESET (R167). -/
def execTagReset (d : Node) (c : CtlOp) (s : State) : Out1 :=
  .next (s.takeA d c.k c.flip (fun tok => match tok with
    | .tagReset => true
    | _ => false))

/-- ABORT (R136): the oldest token of sub-channel X, which waits for nothing. -/
def execAbort (d : Node) (c : CtlOp) (s : State) : Out1 :=
  .next (match s.ctlInto d c.k with
    | none => s
    | some i =>
      match (s.fab.ctl[i]?).bind (fun r => r.x.head?) with
      | none => s
      | some n =>
        let s := (s.touch ((s.fab.ctl[i]?).elim 8 (·.slot))).modCtl i (fun r => { r with x := r.x.drop 1 })
        match abortReceived n c.flip with
        | none => s.ctlLost d c.k c.flip
        | some n =>
          match d with
          | .tile t => s.tileAbort t n
          | .steer sw u =>
            match s.steerer sw u with
            | some u => s.steerX u n
            | none => s
          | .spill sl _ => s.abortTicketEntry sl n
          | .fe => s.feX n)

/-! ## The end of a frame at a tile (R39, R135, R172) -/

/-- Whether a watch group is saturated, and whether it is collapsed, by the limits of the governor (R172). -/
def State.watchTests (s : State) (w : Watch) : Bool × Bool :=
  (decide (s.rd GOV_SCALE_SAT_LIMIT_LIMIT * w.lanes < w.sat * 65536),
    decide (s.rd GOV_SCALE_COLLAPSE_LIMIT_LIMIT * w.lanes < w.coll * 65536))

/-- A watch report posted to MC2, dropped and counted where its queue is full. -/
def State.post (s : State) (r : Report) : State :=
  if s.adm.reports.length < 4096 then { s with adm := { s.adm with reports := s.adm.reports ++ [r] } }
  else
    let s := { s with adm := { s.adm with dropped := ((r.ticket, r.accepted) :: s.adm.dropped).take 4096 } }
    s.inc GOV_SCALE_REPORT_DROP_COUNT

/-- The watch groups of tile `t` that are evaluated at a frame's end, as group number and values; group m is entry m - 1. -/
def State.watchGroups (s : State) (t : Nat) : List (Nat × Watch) :=
  ((List.range 13).map (fun m => (m + 1, (s.tile t).watch.getD m {}))).filter
    (fun g => decide (s.rd GOV_SCALE_MIN_LANES_LANES ≤ g.2.lanes))

/-- The mask of the groups that satisfy `p`, bit m - 1 for group m. -/
def groupMask (l : List (Nat × Watch)) (p : Watch → Bool) : Nat :=
  l.foldl (fun v g => if p g.2 then v + 2 ^ (g.1 - 1) else v) 0

/-- The evaluation of R172: DEGRADED mark, SCALE_ALERT, GOV_SCALE_ALERTS, and the reports. -/
def State.scaleWatch (s : State) (t : Nat) (f : TFrame) : State :=
  let l := s.watchGroups t
  let sat := groupMask l (fun w => (s.watchTests w).1)
  let coll := groupMask l (fun w => (s.watchTests w).2)
  let k := s.cfgSlot t
  let ctx := (s.ctxOf k f.fidx).getD 0
  let s := if sat ≠ 0 ∨ coll ≠ 0 then
      let s := s.modFlight f.ticket (fun x => { x with degraded := true })
      let s := s.raise EV_SCALE_ALERT (srcTile t) (tickCtx f.ticket ctx) (s.tile t).logical (sat + coll * 2 ^ 32)
      s.inc GOV_SCALE_ALERTS_COUNT
    else s
  let acc := (s.flightOf f.ticket).elim 0 (·.accepted)
  l.foldl (fun s g => s.post ⟨f.ticket, ctx, k, f.fidx, t, g.1, g.2, (s.tile t).imp, acc⟩) s

/-- The frame's tokens that no FIRE has taken discarded, and its marks removed (R39 step 1): an input that has ended the frame
delivers nothing of the next one before this, so every mark is the frame's. -/
def State.dropMargin (s : State) (t p : Nat) : State :=
  if s.isLoopIn t p then s
  else
    let s := s.popTokens t p ((s.frameTokens t p).getD 0)
    s.modGal t p (fun g => { g with marks := [], dropLeft := 0, pktLeft := 0 })

/-- Whether every token that the tile has shipped for the frame has reached its receivers (R133). -/
def State.shipped (s : State) (t : Nat) : Bool :=
  s.delivered (ctlOut t) && [8, 9, 10, 11].all (fun p =>
    ((s.tile t).ports.loopAt p).on || !(s.portCfg t p).en || s.readable t p == 0)

/-- The tile ends the frame it holds (R39, R135). -/
def State.endFrame (s : State) (t : Nat) (f : TFrame) : State :=
  let aborted := f.aborted || (s.ctlInputs (.tile t)).any (fun k => (s.ctlIn t k).ended == some true)
  let s := if f.aborted then s else s.scaleWatch t f
  let s := (List.range 8).foldl (fun s p => s.dropMargin t p) s
  let s := s.modTile t (fun x => { x with
    st := if x.st = .halted then .halted else .waitFrame
    back := if x.st = .halted then .waitFrame else x.back
    core := { x.core with
      ag := (List.range 4).map (s.agConfig t)
      loops := []
      loopDue := false
      waiting := none }
    ctl := { x.ctl with
      frame := none
      inp := x.ctl.inp.map (fun i => { i with start := none, ticket := none, steers := [], ended := none })
      past := (f.ticket :: x.ctl.past).take 64 } })
  (s.sendA (ctlOut t) (.frameEnd f.ticket aborted)).endSent (ctlOut t)

/-- TILE_FRAME_END (R39, R86, R135): once ENDF has completed or the frame is aborted, the end is on every input, and all that
was shipped has been delivered. -/
def execTileFrameEnd (t : Nat) (s : State) : Out1 :=
  .next (match (s.tile t).ctl.frame with
    | some f =>
      if (f.aborted || f.endf) && s.frameEnded t && s.shipped t then (s.endFrame t f).ctlGo t else s
    | none => s)

end Sys2Proof.Machine
end

