-- ==== Sys2Proof/Machine/CGal.lean ====
section
/-! DEFINITION. Ingress and result galleys (12 R282 to R290): rings of 4-byte slots in commons, packets and their length words,
watermarks, and what a result galley does with a record (13 R313, R314, 15 R352). -/
namespace Sys2Proof.Machine

/-- What an ingress (kind 1) or result (kind 2) galley is configured to be (Table 12-10); `cap` in bytes. -/
structure CGalCfg where
  en : Bool
  pkt : Bool
  pad : Nat
  cap : Nat
  base : Nat
  max : Nat
  hi : Nat
  lo : Nat
deriving DecidableEq, Repr

/-- The configuration of galley `n` of a kind. -/
def State.cgalCfg (s : State) (kind n : Nat) : CGalCfg :=
  let c := 1 + galKey kind 0 n
  { en := s.rdc c STREAM_GCFG_EN == 1
    pkt := s.rdc c STREAM_GCFG_PKT == 1
    pad := s.rdc c STREAM_GCFG_PAD_M1 + 1
    cap := s.rdc c STREAM_GSIZE_CAP_KIB * 1024
    base := s.rdc c STREAM_GSIZE_BASE_KIB * 1024
    max := s.rdc c STREAM_GLIMIT_MAX_BYTES
    hi := s.rdc c STREAM_GWM_HI * 64
    lo := s.rdc c STREAM_GWM_LO * 64 }

/-- The master ID of the output facing engine. -/
def State.outMaster (s : State) : Nat := 0x58 + s.rd LOAD_FE_ROLE_OUTPUT

/-- Bytes free in a galley. -/
def State.cgalFree (s : State) (kind n : Nat) : Nat := (s.cgalCfg kind n).cap - (s.cgal kind n).level

/-- What becomes of a write into a galley (R283, R286, 11 R260): done, waiting for room, discarded, or done but for words whose
read-modify-write met an uncorrectable error. -/
inductive PutEnd where
  | done
  | waits
  | dropped
  | failed
deriving DecidableEq, Repr

/-- Bytes written into the ring of a galley from byte `pos` on, wrapping; false where a part met an uncorrectable error (11 R260). -/
def State.ringWrite (s : State) (kind n pos : Nat) (bs : List Byte) (m : Nat) : Bool × State :=
  let c := s.cgalCfg kind n
  let off := if c.cap = 0 then 0 else pos % c.cap
  let a := s.write .commons (c.base + off) (bs.take (c.cap - off)) m
  let b := a.2.write .commons c.base (bs.drop (c.cap - off)) m
  (a.1 && b.1, b.2)

/-- `len` bytes of the ring from byte `pos` on, none where a word is uncorrectable (R262). -/
def State.ringRead (s : State) (kind n pos len m : Nat) : Option (List Byte) × State :=
  let c := s.cgalCfg kind n
  let off := if c.cap = 0 then 0 else pos % c.cap
  let k := min len (c.cap - off)
  let a := s.read .commons (c.base + off) k m
  let b := a.2.read .commons c.base (len - k) m
  (a.1.bind (fun x => b.1.map (fun y => x ++ y)), b.2)

/-- The XOFF state of an ingress galley after its fill has changed (R288). -/
def State.watermark (s : State) (kind n : Nat) : State :=
  if kind = 1 then
    let c := s.cgalCfg 1 n
    let l := (s.cgal 1 n).level
    s.modCgal 1 n (fun g => { g with xoff := if c.hi ≠ 0 ∧ c.hi ≤ l then true else if l ≤ c.lo then false else g.xoff })
  else s

/-- A whole packet appended to a galley that has room for it: its bytes, whose first four are its length word, then zero to the
end of its slots (R284); false where a word of it could not be written. -/
def State.putPacket (s : State) (kind n : Nat) (bs : List Byte) (cont : Bool) (m : Nat) : Bool × State :=
  let c := s.cgalCfg kind n
  let k := packetSlots 4 c.pad bs.length
  let w := s.ringWrite kind n (4 * (s.cgal kind n).wptr) (bs ++ zeros (4 * k - bs.length)) m
  let s := w.2.modCgal kind n (fun g => { g with
    wptr := if c.cap = 0 then 0 else (g.wptr + k) % (c.cap / 4)
    pkts := g.pkts ++ [⟨k, bs.length, 0, cont⟩] })
  (w.1, s.watermark kind n)

/-- The oldest packet of a galley removed. -/
def State.popPacket (s : State) (kind n : Nat) : State :=
  match (s.cgal kind n).pkts with
  | [] => s
  | p :: ps =>
    let c := s.cgalCfg kind n
    let s := s.modCgal kind n (fun g => { g with
      rptr := if c.cap = 0 then 0 else (g.rptr + p.slots) % (c.cap / 4)
      pkts := ps })
    s.watermark kind n

/-- The bytes of the oldest packet. -/
def State.headPacket (s : State) (kind n m : Nat) : Option (List Byte) × State :=
  match (s.cgal kind n).pkts with
  | [] => (none, s)
  | p :: _ => s.ringRead kind n (4 * (s.cgal kind n).rptr) p.len m

/-- Bytes of the oldest packet of a result galley that a drain has taken set to `k`. -/
def State.setDrained (s : State) (g k : Nat) : State :=
  s.modCgal 2 g (fun x => { x with pkts := modAt x.pkts 0 (fun (p : Pkt) => { p with drained := k }) })

/-- The oldest record, all its parts. -/
def recordLen : List Pkt → Nat
  | [] => 0
  | _ :: ps => 1 + (ps.takeWhile (·.cont)).length

/-- Whether a drain has begun the oldest record (R423): bytes of it are out, or its first part is gone. -/
def recordBegun : List Pkt → Bool
  | [] => false
  | p :: _ => p.cont || decide (0 < p.drained)

/-- The oldest packets removed, `k` of them. -/
def State.popPackets (s : State) (kind n : Nat) : Nat → State
  | 0 => s
  | k + 1 => (s.popPacket kind n).popPackets kind n k

/-- A record of result galley `g` discarded: counted, and RESULT_DROPPED at most once per galley per second (R352). -/
def State.countDrop (s : State) (g : Nat) : State :=
  let s := s.incc (1 + g) CTX_RES_DROPPED_COUNT
  let s := s.modCgal 2 g (fun x => { x with dropped := x.dropped + 1 })
  let x := s.cgal 2 g
  let due := match x.lastDrop with
    | none => true
    | some t => decide (1000000000 ≤ s.base - t)
  if due then
    let s := s.raise EV_RESULT_DROPPED (srcBlock 20) g x.dropped 0
    s.modCgal 2 g (fun x => { x with lastDrop := some s.base, dropped := 0 })
  else s

/-- Slots of packets. -/
def slotSum (l : List Pkt) : Nat := listSum (l.map (·.slots))

/-- The record that begins at packet `i` of a galley removed; the packets behind it move up in the ring (log entry 10). -/
def State.removeRecord (s : State) (kind g i m : Nat) : State :=
  let x := s.cgal kind g
  let c := s.cgalCfg kind g
  let k := recordLen (x.pkts.drop i)
  let here := x.rptr + slotSum (x.pkts.take i)
  let gone := slotSum ((x.pkts.drop i).take k)
  let rest := x.pkts.drop (i + k)
  let r := s.ringRead kind g (4 * (here + gone)) (4 * slotSum rest) m
  let s := (r.2.ringWrite kind g (4 * here) (r.1.getD []) m).2
  (s.modCgal kind g (fun x => { x with
    pkts := x.pkts.take i ++ rest
    wptr := if c.cap = 0 then 0 else (here + slotSum rest) % (c.cap / 4) })).watermark kind g

/-- Oldest whole records discarded until `need` bytes are free; one that a drain has begun stays (R352). `fuel` bounds them. -/
def State.makeRoom (s : State) (g need : Nat) : Nat → State
  | 0 => s
  | fuel + 1 =>
    let x := s.cgal 2 g
    let i := if recordBegun x.pkts then max 1 (recordLen x.pkts) else 0
    if need ≤ s.cgalFree 2 g ∨ x.pkts.length ≤ i then s
    else
      let s := if i = 0 then s.popPackets 2 g (recordLen x.pkts) else s.removeRecord 2 g i s.outMaster
      (s.countDrop g).makeRoom g need fuel

/-- The packets of a record written one after another; `cont` says that the first of them continues a record. False where a word of
them could not be written. -/
def State.putParts (s : State) (g m : Nat) (cont : Bool) : List (List Byte) → Bool × State
  | [] => (true, s)
  | p :: ps =>
    let w := s.putPacket 2 g p cont m
    let r := w.2.putParts g m true ps
    (w.1 && r.1, r.2)

/-- A record of one or several parts written to result galley `g` by its drop policy (R352). -/
def State.putRecord (s : State) (g : Nat) (parts : List (List Byte)) (m : Nat) : PutEnd × State :=
  let c := s.cgalCfg 2 g
  let need := listSum (parts.map (fun p => 4 * packetSlots 4 c.pad p.length))
  let s := if s.rdc (1 + g) CTX_RES_CFG_POLICY = 1 ∧ c.en ∧ need ≤ c.cap then
      s.makeRoom g need ((s.cgal 2 g).pkts.length + 1)
    else s
  if c.en ∧ need ≤ s.cgalFree 2 g then
    let w := s.putParts g m false parts
    (if w.1 then .done else .failed, w.2)
  else (.dropped, s.countDrop g)

/-- What a record's header takes from the frame and the record (Table 13-3). -/
structure RecHead where
  ctx : Nat
  ticket : Nat := 0
  flags : Nat := 0
  reason : Nat := 0
  seq : Nat := 0
  arrival : Nat := 0
  decided : Nat := 0
  rtp : Nat := 0
  stage : Nat := 0
  group : Nat := 0
  mode : Nat := 0xFF
  warn : Nat := 0
  part : Nat := 0
  parts : Nat := 1
  cand : Nat := 0
  offset : Nat := 0
  count : Nat := 0
  forme : Nat := 0
deriving DecidableEq, Repr

/-- A record with its length word: 80 bytes of header (Table 13-3), then the body. -/
def recordBytes (h : RecHead) (ty written : Nat) (cut : Bool) (body : List Byte) : List Byte :=
  leBytes 4 (lengthWord false cut ty (80 + body.length)) ++ leBytes 2 h.ctx ++ leBytes 2 h.ticket ++ leBytes 2 h.flags ++
  leBytes 2 h.reason ++ leBytes 4 h.seq ++ leBytes 8 h.arrival ++ leBytes 8 h.decided ++ leBytes 8 written ++
  leBytes 4 h.rtp ++ leBytes 2 h.stage ++ leBytes 1 h.group ++ leBytes 1 h.mode ++ leBytes 1 h.warn ++ leBytes 1 h.part ++
  leBytes 1 h.parts ++ [0] ++ leBytes 4 h.cand ++ leBytes 4 h.offset ++ leBytes 4 h.count ++ leBytes 16 h.forme ++ body

/-- The result galley of a context (Table 15-11). -/
def State.resultGalley (s : State) (ctx : Nat) : Nat := s.rdc (1 + ctx) CTX_BIND0_RESULT

/-- A record that is a header alone: refusal, error or end of stream (R313). -/
def State.plainRecord (s : State) (h : RecHead) (ty : Nat) : State :=
  (s.putRecord (s.resultGalley h.ctx) [recordBytes { h with flags := h.flags ||| 4 } ty s.now false []] s.outMaster).2

/-- The header of a frame's records. -/
def State.flightHead (s : State) (f : Flight) : RecHead :=
  { ctx := f.ctx, ticket := f.ticket, flags := b2n f.degraded + 2 * b2n f.broken, seq := f.seq, arrival := f.arrival
    decided := f.decided, rtp := f.rtp, forme := (s.slot f.slot).formeId }

/-- The error record of a frame (R313, R41). -/
def State.errorRecord (s : State) (f : Flight) : State :=
  s.plainRecord { s.flightHead f with reason := f.cause } 0x22

end Sys2Proof.Machine
end

