-- ==== Sys2Proof/Machine/Abort.lean ====
section
/-! DEFINITION. The abort of a frame from outside the array, through the input facing engine (05 R136, R145, 09 R214, 10 R236),
and the release of picture buffers (13 R309, 15 R351). -/
namespace Sys2Proof.Machine

/-- Picture buffer `b` of context `c` freed; a memory source is told through its FREE quoin, in frame order (R309, R351). -/
def State.freeBuf (s : State) (c b : Nat) : State :=
  let s := s.modCtx c (fun x => { x with bufs := setAt x.bufs b .free })
  if s.rdc (1 + c) CTX_BIND0_SOURCE = 2 then s.memFree c (s.ctx c).bufs.length else s

/-- What a source that is sending a frame has left of it given up: its tokens still to ship, and the frame end that waits
behind them becomes FRAME_END_ABORTED. -/
def State.cutSource (s : State) (src : Src) (ticket : Nat) : State :=
  { s with fab := { s.fab with
      routes := s.fab.routes.map (fun r => if r.src = src then { r with todo := [] } else r)
      ctl := s.fab.ctl.map (fun r => if r.src = src then { r with a := r.a.map (fun k => match k with
        | .frameEnd n a => .frameEnd n (a || n == ticket)
        | k => k) } else r) } }

/-- The place of a ticket in a round. -/
def roundPlace (round : List (Nat × Bool)) (ticket : Nat) : Option Nat := indexOf? (fun e => e.1 == ticket) round

/-- The impression that frame slot `p` of the round is in (R214): the last one whose refill streams have begun it, impression 0 before
that; none while its data waits between two of them, all spill streams of the one having ended it. -/
def ImpSt.frameIn (x : ImpSt) (p : Nat) : Option Nat :=
  let begun := fun (i : Nat) => x.streams.any (fun c => c.imp == i && !c.spill && c.started && decide (p < c.fslot))
  let i := listMax ((List.range x.count).filter begun)
  if i + 1 = x.count || x.streams.any (fun c => c.imp == i && c.spill && decide (c.fslot ≤ p)) then some i else none

/-- ABORT sent by the refill streams of impression `i` of a slot; one that is sending the frame's data gives it up (R214). -/
def State.refillX (s : State) (k i ticket p : Nat) : State :=
  (List.range (s.slot k).imp.streams.length).foldl (fun s j =>
    match (s.slot k).imp.streams[j]? with
    | some st =>
      if st.imp = i ∧ !st.spill then
        let src := Src.refill k j
        (if st.fslot = p + 1 then s.cutSource src ticket else s).sendX src ticket
      else s
    | none => s) s

/-- ABORT sent by the input engine for a frame of slot `k` (R136). -/
def State.feInX (s : State) (k ticket : Nat) : State :=
  (if s.face.sending = some ticket then s.cutSource (.feIn k) ticket else s).sendX (.feIn k) ticket

/-- ABORT sent into the impression of slot `k` that a frame is in, and its entry in the frame table set to ABORTED; one that waits for
its round is sent nothing (R208, R214). -/
def State.roundX (s : State) (k ticket : Nat) : State :=
  match roundPlace (s.slot k).imp.round ticket with
  | none => s
  | some p =>
    let s := s.abortTicketEntry k ticket
    match (s.slot k).imp.frameIn p with
    | some 0 => s.feInX k ticket
    | some i => s.refillX k i ticket p
    | none => s

/-- The frame that bears a ticket aborted with a cause (R136, R214, R313): one that the input engine has not sent keeps its place
and is sent as aborted. -/
def State.abortFlight (s : State) (ticket cause : Nat) : State :=
  match s.flightOf ticket with
  | none => s
  | some f =>
    let s := s.recordCause ticket cause
    let s := if (s.slot f.slot).multi then s.roundX f.slot ticket else s.feInX f.slot ticket
    if !f.sent && !f.aborted && (s.ctx f.ctx).bufs.getD f.buf .free == .inUse then s.freeBuf f.ctx f.buf else s

/-- Every frame in flight of a slot aborted with a cause. -/
def State.abortSlot (s : State) (k cause : Nat) : State :=
  ((s.adm.flights.filter (fun f => f.slot == k)).map (·.ticket)).foldl (fun s t => s.abortFlight t cause) s

/-! ## The no-progress watchdog (R145, R146) -/

/-- A tile's record of the galley snapshot (Table 5-8). -/
def State.snapTile (s : State) (t : Nat) : List Byte :=
  let c := (s.tile t).ctl
  let credit := fun p => listMin 0 ((s.fab.routes.filter (fun r => r.src == .port t p && r.imp == (s.tile t).imp)).flatMap
    (fun r => r.recvs.map (fun v => v.settled.credits)))
  let unit := fun k => match s.steerer t k with
    | some u => b2n u.sel.isSome + listSum ((List.range u.inputs).map (fun j =>
        match (s.steerInputs t k u.inputs).getD j none with
        | some rj => if u.block ≤ (s.frameLane rj).length then 2 ^ (1 + j) else 0
        | none => 0))
    | none => 0
  leBytes 2 t ++ zeros 2 ++ leBytes 4 (s.tileStatus t) ++
  (List.range 12).flatMap (fun p => leBytes 2 (s.level t p)) ++
  (List.range 4).flatMap (fun p => leBytes 2 (credit (8 + p))) ++
  leBytes 4 ((c.frame.map (·.ticket)).getD 0 + b2n c.frame.isSome * 2 ^ 12 + c.pending.length * 2 ^ 16) ++
  leBytes 4 (unit 0 + unit 1 * 2 ^ 8) ++ zeros 16

/-- The frames of a slot in flight. -/
def State.inFlight (s : State) (k : Nat) : Nat := (s.adm.flights.filter (fun f => f.slot == k)).length

/-- The galley snapshot (R146). -/
def State.snapshot (s : State) (k : Nat) : List Byte :=
  let ts := (s.slot k).tiles
  leBytes 4 0x50414E53 ++ leBytes 1 k ++ leBytes 1 ts.length ++ zeros 2 ++ leBytes 8 s.now ++
  leBytes 16 (s.slot k).formeId ++ leBytes 4 (s.inFlight k) ++ zeros 28 ++ ts.flatMap s.snapTile

/-- DEADLOCK_SUSPECT (R145): only for a slot loaded with CHECK_OVERRIDE that has a frame in flight and has made no progress for
the period. -/
def execDeadlockSuspect (slot : Nat) (s : State) : Out1 :=
  let x := s.slot slot
  let due := x.overridden && decide (2 ≤ x.st) && decide (0 < s.inFlight slot) &&
    decide (x.progress + s.rd LOAD_WDOG_PERIOD_PERIOD_US * 1000 ≤ s.now)
  .next (if due then
      let a := s.rd LOAD_SNAP_LO_ADDR * 64 + s.rd LOAD_SNAP_HI_ADDR * 2 ^ 32
      let ok := a ≠ 0 ∧ s.areaOk a (64 + 64 * x.tiles.length)
      let n := s.inFlight slot
      let s := if ok then (s.write .hbm a (s.snapshot slot) s.admCore).2 else s
      let s := s.raise EV_DEADLOCK_SUSPECT s.admCore slot n (if ok then a else 0)
      (s.abortSlot slot EV_DEADLOCK_SUSPECT).modSlot slot (fun x => { x with st := 4 })
    else s)

end Sys2Proof.Machine
end

