-- ==== Sys2Proof/Machine/Admission.lean ====
section
/-! DEFINITION. Admission (10 R230 to R234, R237), deadlines (R236), the governor's window (R220 to R222), thermal shedding
(R237) and the step of device time (R239). -/
namespace Sys2Proof.Machine

/-- Whether context `c` is a contract context. -/
def State.isContract (s : State) (c : Nat) : Bool := s.rdc (1 + c) CTX_BIND0_CONTRACT == 1

/-- The bound or the relaxed timeout of context `c` in ns. -/
def State.limitNs (s : State) (c : Nat) : Nat := s.rdc (1 + c) CTX_BIND1_LIMIT_US * 1000

/-- Whether a usable engine that is switched on holds each facing role (R201, 17 R397). -/
def State.facingHeld (s : State) : Bool :=
  s.rd SYS_FUNC_READY_FACING == 1 && decide (s.rd LOAD_FE_ROLE_INPUT < 3) && decide (s.rd LOAD_FE_ROLE_OUTPUT < 3) &&
    s.domainOn (104 + s.rd LOAD_FE_ROLE_INPUT) && s.domainOn (104 + s.rd LOAD_FE_ROLE_OUTPUT)

/-- A predicted admission: the ledgers after it, the frame's `o`, and the frames of other formes with their new `o`. -/
structure Ledger where
  rin : Nat
  rf : Nat
  rout : Nat
  o : Nat
  slot : Nat
deriving DecidableEq, Repr

/-- hold(G) in ns (R231, R234). -/
def Slot.hold (x : Slot) : Nat := x.df + x.hf + x.tout

/-- The ledger entries that accepting a frame of slot `k` at base time `t` would make (R231; R234 for several impressions). -/
def State.predict (s : State) (k t : Nat) : Ledger :=
  let x := s.slot k
  let d := x.df + x.hf
  if x.multi then
    let q := if x.imp.round = [] then t else max t x.imp.roundEnd
    let first := x.imp.waiting.isEmpty
    let n := x.imp.roundMax
    { rin := if first then max q s.adm.rin + n * x.tin else s.adm.rin
      rf := x.rf
      rout := if first then max q s.adm.rout + n * x.tout else s.adm.rout
      o := q + x.imp.roundTime
      slot := k }
  else
    let a := max t s.adm.rin + x.tin
    let e := max (a + d) (x.rf + x.pf)
    let dx := if s.adm.routSlot = some k then 0 else d
    let o := max e (s.adm.rout + dx) + x.tout
    { rin := a, rf := e, rout := max s.adm.rout o, o := o, slot := k }

/-- Whether the next round of a forme with several impressions, or the forme, is full (R137, R207). -/
def State.full (s : State) (k : Nat) : Bool :=
  decide (64 ≤ s.inFlight k) ||
    ((s.slot k).multi && decide ((s.slot k).imp.roundMax ≤ (s.slot k).imp.waiting.length))

/-- The frames that a frame of slot `k` may pass at the output engine (R193, R231). -/
def passable (k : Nat) (f : Flight) : Bool := f.slot != k && !f.taken

/-- The reason for which a waiting input is refused at base time `t`, none where it is accepted (R231, Table 10-6). -/
def State.refusal (s : State) (w : Waiting) (t : Nat) : Option Nat :=
  let c := w.ctx
  let k := (s.ctx c).slot
  let x := s.slot k
  let p := s.predict k t
  if w.since + s.rd GOV_ADMIT_WAIT_WAIT_US * 1000 < t then some 6
  else if x.st ≠ 2 then some 7
  else if s.rdc (1 + c) CTX_BIND0_PRIORITY < s.rd GOV_THERM_LEVEL then some 4
  else if s.rd GOV_PACE_STATUS_BELOW = 1 ∧ s.isContract c then some 5
  else if !s.facingHeld then some 8
  else if s.full k then some 3
  else if s.isContract c ∧ t + s.limitNs c < p.o then some 1
  else if s.adm.flights.any (fun f => passable k f && f.contract && decide (f.deadline < f.o + x.hold)) then some 2
  else none

/-- A refused input (R232): its buffer released, the event, the count and the refusal record. -/
def State.refuseFrame (s : State) (w : Waiting) (reason : Nat) : State :=
  let s := s.freeBuf w.ctx w.buf
  let s := s.raise EV_ADMIT_REFUSED s.admCore (w.ctx % 4096 * 0x10000) reason 0
  let s := s.inc GOV_ADMIT_REFUSED_COUNT
  s.plainRecord { ctx := w.ctx, reason := reason, seq := w.seq, arrival := w.arrival, decided := s.now, rtp := w.rtp
                  forme := (s.slot (s.ctx w.ctx).slot).formeId } 0x21

/-- The next ticket of slot `k`: each slot counts through 512 tickets of its own (log entry 11). -/
def State.nextTicket (s : State) (k : Nat) : Nat := k * 512 + (s.adm.tickets.getD k 0) % 512

/-- Every frame in flight marked CONTRACT_BROKEN, once each (R222). -/
def State.breakAll (s : State) : State :=
  (s.adm.flights.filter (fun f => !f.broken)).foldl (fun s f =>
    let s := s.modFlight f.ticket (fun x => { x with broken := true })
    let s := s.inc GOV_CONTRACT_BROKEN_COUNT
    s.raise EV_CONTRACT_BROKEN (srcBlock 1) (tickCtx f.ticket f.ctx) 0 f.deadline) s

/-- An accepted input: a frame in flight with its ticket and deadline, and the ledgers as predicted; while BELOW is 1 it is
marked at once (R222). -/
def State.accept (s : State) (w : Waiting) (t : Nat) : State :=
  let k := (s.ctx w.ctx).slot
  let x := s.slot k
  let p := s.predict k t
  let n := s.nextTicket k
  let f : Flight :=
    { ticket := n, ctx := w.ctx, fidx := (s.ctx w.ctx).fidx, slot := k, seq := w.seq, rtp := w.rtp, arrival := w.arrival
      decided := s.now, accepted := t, deadline := t + s.limitNs w.ctx, contract := s.isContract w.ctx, o := p.o
      buf := w.buf }
  let s := { s with adm := { s.adm with
    flights := s.adm.flights.map (fun g => if passable k g then { g with o := g.o + x.hold } else g) ++ [f]
    tickets := modAt s.adm.tickets k (fun v => (v + 1) % 512)
    rin := p.rin
    rout := p.rout
    routSlot := if x.multi ∧ !x.imp.waiting.isEmpty then s.adm.routSlot else some k } }
  let s := s.modSlot k (fun x => { x with
    rf := p.rf
    imp := if x.multi then { x.imp with waiting := x.imp.waiting ++ [n] } else x.imp })
  let s := if s.inFlight k = 1 then s.touch k else s
  let s := s.modCtx w.ctx (fun c => { c with bufs := setAt c.bufs w.buf .inUse })
  if s.rd GOV_PACE_STATUS_BELOW = 1 then s.breakAll else s

/-- Where the notice packet of a Burl picture stands among the packets of ingress galley `g` (14 R333): its context and buffer. -/
def State.noticeAt (s : State) (g : Nat) (w : Waiting) : Option Nat :=
  let x := s.cgal 1 g
  (List.range x.pkts.length).find? (fun i => (x.pkts[i]?).any (fun (p : Pkt) => p.len == 16) &&
    (s.ringRead 1 g (4 * (x.rptr + slotSum (x.pkts.take i)) + 4) 8 0x38).1 == some (leBytes 4 w.ctx ++ leBytes 4 w.buf))

/-- The notice packet of a Burl picture removed, once admission decides (14 R333), where no reader has taken it before. -/
def State.dropNotice (s : State) (w : Waiting) : State :=
  if s.rdc (1 + w.ctx) CTX_BIND0_SOURCE ≠ 1 then s
  else
    match (List.range 8).find? (fun q => s.rdc (1 + q) BURL_QCFG_MODE == 3 && s.rdc (1 + q) BURL_QCFG_CTX == w.ctx) with
    | none => s
    | some q =>
      let g := s.rdc (1 + q) BURL_QCFG_GALLEY
      match s.noticeAt g w with
      | none => s
      | some 0 => s.popPacket 1 g
      | some i => s.removeRecord 1 g i 0x38

/-- The oldest waiting input decided (R230): inputs are decided in the order in which they became whole, only in RUN (17 R397, R398)
and while the admission role has a holder (R238). -/
def State.decide1 (s : State) : State :=
  match s.adm.waiting with
  | [] => s
  | w :: ws =>
    if s.power ≠ 0 ∨ !s.roleHeld s.admCore then s
    else
    let s := ({ s with adm := { s.adm with waiting := ws } }).dropNotice w
    match s.refusal w s.base with
    | some r => s.refuseFrame w r
    | none => s.accept w s.base

/-- ADMISSION_DECISION (R230, R231). -/
def execAdmissionDecision (s : State) : Out1 := .next s.decide1

/-- ADMIT_WAIT_EXPIRED (R230): the oldest waiting input refused with reason WAIT once its wait is over. -/
def execAdmitWaitExpired (s : State) : Out1 :=
  .next (match s.adm.waiting with
    | [] => s
    | w :: ws =>
      if w.since + s.rd GOV_ADMIT_WAIT_WAIT_US * 1000 < s.base ∧ s.roleHeld s.admCore then
        (({ s with adm := { s.adm with waiting := ws } }).dropNotice w).refuseFrame w 6
      else s)

/-! ## The deadline monitor (R236, R140) -/

/-- A steering unit that waits on the frame while missing its STEER or a block of some input (R140): one that has blocks of it
still to forward. -/
def State.starvedUnit (s : State) (ticket : Nat) : Option Steerer :=
  s.fab.steers.find? (fun u => s.steerHere u.sw u.k u && u.frame == some ticket && !u.aborted && decide (u.done < u.blocks) &&
    (u.sel.isNone || (s.steerInputs u.sw u.k u.inputs).any (fun e => match e with
      | some rj => decide ((s.frameLane rj).length < u.block)
      | none => true)))

/-- The monitor of a frame whose deadline has passed. -/
def State.expire (s : State) (f : Flight) : State :=
  let s' := (s.modFlight f.ticket (fun x => { x with expired := true })).inc GOV_DEADLINE_EXPIRED_COUNT
  match (if f.aborted then none else s.starvedUnit f.ticket) with
  | some u =>
    let s' := s'.raise EV_STEER_STARVED (srcTile u.sw) (tickCtx f.ticket f.ctx) 0 u.unit
    s'.abortFlight f.ticket EV_STEER_STARVED
  | none =>
    let s' := s'.raise EV_DEADLINE_EXPIRED (srcBlock 1) (tickCtx f.ticket f.ctx) 0 f.deadline
    s'.abortFlight f.ticket EV_DEADLINE_EXPIRED

/-- DEADLINE_EXPIRED (R236): nothing unless the frame is in flight and its deadline has passed; a monitor expires once. -/
def execDeadlineExpired (ticket : Nat) (s : State) : Out1 :=
  .next (match s.flightOf ticket with
    | some f => if f.deadline < s.base ∧ !f.expired then s.expire f else s
    | none => s)

/-! ## The governor (R220 to R222) -/

/-- The hottest temperature as GOV_THERM.TJ reports it, in two's complement. -/
def State.setTj (s : State) (tj : Int) : State := s.wr GOV_THERM_TJ (wrap 8 tj)

/-- The governor's setpoint written over AVSBus, with step 6 where it is not acknowledged. -/
def State.avsWrite (s : State) (mv : Nat) (ack : Bool) : State :=
  let s := s.wr GOV_PACE_STATUS_VOUT_MV mv
  if ack then { s with pwr := { s.pwr with retry := false } }
  else
    let s := s.wr GOV_PACE_STATUS_PMBUS_FAULT 1
    let s := s.raise EV_PMBUS_FAULT (srcBlock 1) (s.rd GOV_PACE_STATUS_MEAS) (s.rd GOV_PACE_FLOOR_FLOOR) 0
    { s with pwr := { s.pwr with retry := true } }

/-- Steps 4 and 5 of Table 10-1 with the marks of R222. -/
def State.paceMarks (s : State) (meas : Nat) : State :=
  let f := s.rd GOV_PACE_FLOOR_FLOOR
  let s := if meas < f then
      let first := s.rd GOV_PACE_STATUS_BELOW = 0
      let s := s.wr GOV_PACE_STATUS_BELOW 1
      if first then s.raise EV_PACE_BELOW_FLOOR (srcBlock 1) meas f 0 else s
    else s
  if s.rd GOV_PACE_STATUS_BELOW = 1 then
    let s := s.breakAll
    if f * (1024 + s.rd GOV_PACE_FLOOR_GUARD) ≤ meas * 1024 then
      if 16 ≤ s.pwr.lowWin + 1 then
        ({ s with pwr := { s.pwr with lowWin := 0 } }).wr GOV_PACE_STATUS_BELOW 0
      else { s with pwr := { s.pwr with lowWin := s.pwr.lowWin + 1 } }
    else { s with pwr := { s.pwr with lowWin := 0 } }
  else { s with pwr := { s.pwr with lowWin := 0 } }

/-- Steps 2, 3 and 6: the setpoint raised or lowered by 5 mV, or the last write repeated. -/
def State.paceSet (s : State) (meas : Nat) (tj : Int) (ack : Bool) : State :=
  let f := s.rd GOV_PACE_FLOOR_FLOOR
  let g := s.rd GOV_PACE_FLOOR_GUARD
  let v := s.rd GOV_PACE_STATUS_VOUT_MV
  let good := f * (1024 + 2 * g) ≤ meas * 1024 ∧ tj < 110
  let n := if good then s.pwr.goodWin + 1 else 0
  let s := { s with pwr := { s.pwr with goodWin := if 64 ≤ n then 0 else n } }
  let next := if meas * 1024 < f * (1024 + g) then min 880 (v + 5) else if 64 ≤ n then max 620 (v - 5) else v
  if next ≠ v ∨ s.pwr.retry then s.avsWrite next ack else s

/-- GOVERNOR_WINDOW (R220): a 2 µs window ends with the rates of the eight replicas, the hottest temperature and whether a write
over AVSBus would be acknowledged. -/
def execGovernorWindow (replicas : List Nat) (tj : Int) (ack : Bool) (s : State) : Out1 :=
  let meas := min 1023 (listMin (replicas.headD 0) replicas)
  .next ((((s.setTj tj).wr GOV_PACE_STATUS_MEAS meas).paceMarks meas).paceSet meas tj ack)

/-! ## Thermal shedding (R237, Table 10-7) -/

/-- LEVEL set, with THERMAL_SHED. -/
def State.shedLevel (s : State) (v : Nat) (tj : Int) : State :=
  (s.wr GOV_THERM_LEVEL v).raise EV_THERMAL_SHED s.powCore v (wrap 32 tj) 0

/-- THERMAL_SHED (R237): MC1 looks at the hottest temperature, while its role has a holder (R238). -/
def execThermalShed (tj : Int) (s : State) : Out1 :=
  let s := s.setTj tj
  let step := s.rd GOV_THERM_STEP_MS * 1000000
  let shed : Int := (s.rd GOV_THERM_SHED_C : Nat)
  let lv := s.rd GOV_THERM_LEVEL
  .next (if !s.roleHeld s.powCore then s
    else if shed ≤ tj then
      let due := match s.pwr.stepSince with
        | none => true
        | some t => decide (t + step ≤ s.base)
      let s := { s with pwr := { s.pwr with thermCool := none } }
      if due then
        let s := { s with pwr := { s.pwr with stepSince := some s.base } }
        if lv < 8 then s.shedLevel (lv + 1) tj else s
      else s
    else if tj < shed - 3 then
      let s := { s with pwr := { s.pwr with stepSince := none } }
      match s.pwr.thermCool with
      | none => { s with pwr := { s.pwr with thermCool := some s.base } }
      | some t =>
        if t + step ≤ s.base then
          let s := { s with pwr := { s.pwr with thermCool := some s.base } }
          if 0 < lv then s.shedLevel (lv - 1) tj else s
        else s
    else { s with pwr := { s.pwr with stepSince := none, thermCool := none } })

/-! ## TIME_STEP (R239) -/

/-- A write of TIME_STEP: device time moves forward by the word written. -/
def State.timeStep (s : State) (v : Nat) : Bool × State :=
  let s := { s with dev := s.dev + v % 2 ^ 32 * 1000000000 }
  (true, s.raise EV_TIME_STEPPED (srcBlock 2) 0 0 v)

/-- TIME_STEP (R239). -/
def execTimeStep (m v : Nat) (s : State) : Out1 := .next (s.writeCmd m TIME_STEP_NS.addr v (fun s => s.timeStep v))

end Sys2Proof.Machine
end

