-- ==== Sys2Proof/Machine/Domains.lean ====
section
/-! DEFINITION. Switched power domains (17 R394, R395): a switch-on that the budget allows, with the repairs of the banks that power up
(11 R267), and a switch-off with the self-test that it makes due (R399). -/
namespace Sys2Proof.Machine

/-! ## Repairs in force (11 R267, R269) -/

/-- Where a word lies for the ledger (Table 11-17): memory, instance, bank, row, and the word's place in its row of 64 bytes. -/
def repairPlace (a : Nat) : Option (Nat × Nat × Nat × Nat × Nat) :=
  match place a 4 with
  | .mem (.sram t) o => some (0, t, o / 0x20000, o % 0x20000 / 64, o % 64 / 8)
  | .mem (.gsram t) o => some (1, t, 0, o / 64, o % 64 / 4)
  | .mem (.prog t) o => some (2, t, 0, o / 64, o % 64 / 4)
  | .mem .commons o => some (3, 0, o / 64 % 32, o / 2048, o % 64 / 8)
  | _ => none

/-- Bits of a code word in a row of a bank. -/
def repairWidth (memory : Nat) : Nat := if memory = 1 ∨ memory = 2 then 36 else 72

/-- Whether a repair replaces the word that entry `h` of the hard words names: by its row, or by the column of its failing bit. -/
def LedgerEnt.covers (e : LedgerEnt) (h : Nat) : Bool :=
  match repairPlace (h % 2 ^ 40) with
  | some (m, i, b, row, word) => e.memory == m && e.inst == i && e.bank == b &&
      (if e.kind = 0 then e.fail == row else decide (2 ^ 40 ≤ h) && e.fail == word * repairWidth m + (h / 2 ^ 40 - 1))
  | none => false

/-- The repairs of the banks that power up, picked by `p`, applied: those of the fuses, then those of the ledger. The words they
replace are sound again. -/
def State.applyRepairs (s : State) (p : LedgerEnt → Bool) : State :=
  let now := s.otp.fuses.filter p ++ s.health.ledger.filter p
  let kept := fun (l : List Nat) => l.filter (fun h => now.all (fun e => !e.covers h))
  { s with health := { s.health with
    inForce := s.health.inForce.filter (fun e => !p e) ++ now
    hardSeen := kept s.health.hardSeen, handled := kept s.health.handled } }

/-- The domain of tile `t` switched on, with the repairs of its banks where it was off. -/
def State.tileUp (s : State) (t : Nat) : State :=
  if s.domainOn t then s else (s.setDomain t true).applyRepairs (fun e => decide (e.memory ≤ 2) && e.inst == t)

/-! ## Domains -/

/-- A command refused because the committed power would pass PWR_BUDGET (R395). -/
def State.budgetRefused (s : State) : State := s.raise EV_PWR_BUDGET_REFUSED (srcBlock 19) 0 0 0

/-- Unit `u` taken out of the self-tests that wait or run. -/
def State.dropTest (s : State) (u : Nat) : State :=
  { s with pwr := { s.pwr with
    testing := s.pwr.testing.filter (fun v => v != u), queue := s.pwr.queue.filter (fun e => e.1 != u) } }

/-- A self-test made due for unit `u`, once. -/
def State.queueTest (s : State) (u : Nat) : State :=
  if s.pwr.testing.contains u || s.pwr.queue.any (fun e => e.1 == u) || s.unusable u then s
  else { s with pwr := { s.pwr with queue := s.pwr.queue ++ [(u, s.base)] } }

/-- Tile `t` parked: its state is kept beside, and it runs nothing; a halted tile stays halted. -/
def State.parkTile (s : State) (t : Nat) : State :=
  s.modTile t (fun x => if x.st = .parked ∨ x.st = .halted then x else { x with back := x.st, st := .parked })

/-- Tile `t` woken (R396): its domain on, a self-test that waits given up, its state as it was. -/
def State.wakeTile (s : State) (t : Nat) : State :=
  ((s.dropTest t).tileUp t).modTile t (fun x => if x.st = .parked then { x with st := x.back } else x)

/-- The bit of slot `k` in PWR_SLOT_PARK cleared, and its tiles woken unless the device is out of RUN (R396). -/
def State.unparkSlot (s : State) (k : Nat) : State :=
  let v := s.rd PWR_SLOT_PARK_PARK
  if !bit v k then s
  else
    let s := s.wr PWR_SLOT_PARK_PARK (setBits v k 1 0)
    if s.power = 0 then (s.heldBy k).foldl State.wakeTile s else s

/-- Domains switched on by a command; false, with PWR_BUDGET_REFUSED, where the budget does not allow it (R395). -/
def State.powerUp (s : State) (l : List Nat) : Bool × State :=
  let up := l.foldl (fun (s : State) d => (s.dropTest d).setDomain d true) s
  if l.all s.domainOn then (true, s)
  else if s.rd PWR_BUDGET_BUDGET < up.committed then (false, s.budgetRefused)
  else (true, up)

/-- A domain switched off, with the self-test of Table 17-6 where its unit has one: decoders and network ports. -/
def State.powerDown (s : State) (d : Nat) : State :=
  if s.domainOn d then
    let s := s.setDomain d false
    if (107 ≤ d ∧ d < 123) ∨ d = 125 ∨ d = 126 then s.queueTest d else s
  else s

/-- The stream port's and the Burl fabric's domain switched off once the port is disabled and the fabric UNCONFIGURED (Table 17-3). -/
def State.sportOff (s : State) : State :=
  if s.rd SPORT_CFG_EN = 0 ∧ s.burl.st = 0 then s.setDomain 127 false else s

end Sys2Proof.Machine
end

