-- ==== Sys2Proof/Machine/FacingMath.lean ====
section
/-! DEFINITION. The arithmetic of the facing engines (08 R191 to R200, 06 R164): descriptors, the convolution of one stage,
colour conversion, box decoding, selection and suppression. All of it is a function of bytes and codes. -/
namespace Sys2Proof.Machine

/-! ## Descriptors (Tables 8-7 to 8-9) -/

/-- A facing-engine descriptor; `raw` is its 256 bytes. -/
structure FeDesc where
  cin : Nat
  cout : Nat
  kh : Nat
  kw : Nat
  sh : Nat
  sw : Nat
  dh : Nat
  dw : Nat
  padT : Nat
  padB : Nat
  padL : Nat
  padR : Nat
  wfmt : Nat
  xfmt : Nat
  inW : Nat
  inH : Nat
  sx : Nat
  zx : Int
  zout : Int
  invS : Nat
  ofmt : Nat
  act : Nat
  weights : Nat
  channels : Nat
  table : Nat
  raw : List Byte
deriving DecidableEq, Repr

/-- The descriptor that 256 bytes spell. -/
def feDesc (b : List Byte) : FeDesc :=
  let u := fun off n => fieldAt b off n
  { cin := u 0 2, cout := u 2 2, kh := u 4 1, kw := u 5 1, sh := u 6 1, sw := u 7 1, dh := u 8 1, dw := u 9 1
    padT := u 0xA 1, padB := u 0xB 1, padL := u 0xC 1, padR := u 0xD 1, wfmt := u 0xE 1, xfmt := u 0xF 1
    inW := u 0x10 2, inH := u 0x12 2, sx := u 0x14 4, zx := signed 16 (u 0x18 2), zout := signed 16 (u 0x1A 2)
    invS := u 0x1C 4, ofmt := u 0x20 1, act := u 0x21 1, weights := u 0x24 4, channels := u 0x28 4, table := u 0x2C 4
    raw := b }

/-- A field of `n` bytes at `off` of the descriptor. -/
def FeDesc.u (d : FeDesc) (off n : Nat) : Nat := fieldAt d.raw off n

/-- LEAKY, whose place depends on the kind of stage. -/
def FeDesc.leaky (d : FeDesc) (head : Bool) : Nat := d.u (if head then 0x78 else 0xA4) 4

/-- Height of the output map (R175). -/
def FeDesc.outH (d : FeDesc) : Nat :=
  if d.sh = 0 then 0 else (((d.inH + d.padT + d.padB : Nat) - (d.dh * (d.kh - 1) : Nat) - 1 : Int) / (d.sh : Int) + 1).toNat

/-- Width of the output map (R175). -/
def FeDesc.outW (d : FeDesc) : Nat :=
  if d.sw = 0 then 0 else (((d.inW + d.padL + d.padR : Nat) - (d.dw * (d.kw - 1) : Nat) - 1 : Int) / (d.sw : Int) + 1).toNat

/-- Reduction elements per output. -/
def FeDesc.red (d : FeDesc) : Nat := d.cin * d.kh * d.kw

/-- Outputs of one firing (Table 8-6). -/
def FeDesc.perFire (d : FeDesc) : Nat := if elemBits d.wfmt = 16 then 16 else 64

/-- Firings of a whole map (R191). -/
def FeDesc.firings (d : FeDesc) : Nat := d.outH * d.outW * ceilDiv d.cout d.perFire * ceilDiv d.red 48

/-- Bytes of the weights of one output channel (R192). -/
def FeDesc.rowBytes (d : FeDesc) : Nat := d.red * elemBits d.wfmt / 8

/-- Codes of a format packed in bytes (R147). -/
def codesOf (fmt n : Nat) (bs : List Byte) : List Nat :=
  if elemBits fmt = 16 then (List.range n).map (fun i => fieldAt bs (2 * i) 2)
  else if elemBits fmt = 8 then (slice bs 0 n).map (·.toNat)
  else (List.range n).map (fun i => bits ((bs.getD (i / 2) 0).toNat) (4 * (i % 2)) 4)

/-- Codes packed into bytes (R147), the last byte filled with zero bits. -/
def packBytes (fmt : Nat) (codes : List Nat) : List Byte :=
  if elemBits fmt = 16 then codes.flatMap (leBytes 2)
  else if elemBits fmt = 8 then codes.map (BitVec.ofNat 8)
  else (chunks 2 (codes.length + 1) codes).map (fun p => BitVec.ofNat 8 (p.getD 0 0 % 16 + p.getD 1 0 % 16 * 16))

/-- The tables of a stage: weight codes per output channel, and s_w, bias, z_w per output channel. -/
structure FeTabs where
  w : List (List Nat)
  ch : List (Nat × Nat × Int)
  act : ActTable
deriving DecidableEq, Repr

/-- The tables that the bytes of the three areas spell. -/
def feTabs (d : FeDesc) (w ch t : List Byte) : FeTabs :=
  { w := (List.range d.cout).map (fun i => codesOf d.wfmt d.red (slice w (i * d.rowBytes) d.rowBytes))
    ch := (List.range d.cout).map (fun i => (fieldAt ch (12 * i) 4, fieldAt ch (12 * i + 4) 4,
      signed 16 (fieldAt ch (12 * i + 8) 2)))
    act := actTableOf t }

/-! ## One output value (R195) -/

/-- The input codes that output pixel (oy, ox) reads, in the order of R175; a padded tap takes Z_X. -/
def FeDesc.taps (d : FeDesc) (q : Nat → Nat → Nat → Nat) (oy ox : Nat) : List Nat :=
  let pad := wrap (elemBits d.xfmt) d.zx
  (List.range d.kh).flatMap (fun ky => (List.range d.kw).flatMap (fun kx =>
    let y : Int := (oy * d.sh + ky * d.dh : Nat) - (d.padT : Int)
    let x : Int := (ox * d.sw + kx * d.dw : Nat) - (d.padL : Int)
    let inside := decide (0 ≤ y) && decide (y < d.inH) && decide (0 ≤ x) && decide (x < d.inW)
    (List.range d.cin).map (fun c => if inside then q y.toNat x.toNat c else pad)))

/-- The integer sum over the whole reduction: exact in each firing of 48 elements, held to INT32 after each (R157, R164). -/
def intSum (wf xf : Nat) (zw zx : Int) (w x : List Nat) : Int :=
  (chunks 48 (w.length + 1) (w.zip x)).foldl (fun acc l =>
    (clampInt (-(2 ^ 31 : Nat)) ((2 ^ 31 : Nat) - 1)
      (l.foldl (fun a e => a + (intElem wf e.1 - zw) * (intElem xf e.2 - zx)) acc)).1) 0

/-- The floating sum: one rounding per firing of 48 elements (R158). -/
def floatSum (away : Bool) (wf xf : FFmt) (w x : List Nat) : Nat :=
  ((chunks 48 (w.length + 1) (w.zip x)).foldl (fun (acc : Option Nat) l =>
    some (r32 away (fsum (acc.toList.map f32 ++ l.map (fun e => fmul (floatElem wf e.1) (floatElem xf e.2)))))) none).getD 0

/-- v of output channel `i` after the activation (R195). -/
def FeDesc.value (d : FeDesc) (away head : Bool) (t : FeTabs) (x : List Nat) (i : Nat) : Nat :=
  let ch := t.ch.getD i (0, 0, 0)
  let w := t.w.getD i []
  let s := match ffmtOf d.wfmt, ffmtOf d.xfmt with
    | some wf, some xf => floatSum away wf xf w x
    | _, _ => int32F away (intSum d.wfmt d.xfmt ch.2.2 d.zx w x)
  let v := add32 away (mul32 away s (mul32 away ch.1 d.sx)) ch.2.1
  actF away d.act (d.leaky head) t.act v

/-- The output code of a value (steps 6 to 9 of Table 6-5, over the whole range of OFMT). -/
def FeDesc.code (d : FeDesc) (away : Bool) (v : Nat) : Nat :=
  let r := fmtRange d.ofmt
  (quantise away d.ofmt d.invS d.zout r.1 r.2 v).code

/-- The values of the whole output map: rows, pixels, channels. -/
def FeDesc.map (d : FeDesc) (away head : Bool) (t : FeTabs) (q : Nat → Nat → Nat → Nat) : List (List (List Nat)) :=
  (List.range d.outH).map (fun oy => (List.range d.outW).map (fun ox =>
    let x := d.taps q oy ox
    (List.range d.cout).map (fun i => d.value away head t x i)))

/-! ## The input picture (R194, R308) -/

/-- Bytes of a picture row on its 64-byte boundary. -/
def rowPitch (n : Nat) : Nat := ceilDiv n 64 * 64

/-- Bytes of a picture of PIC_FMT `fmt` (R308). -/
def picBytes (fmt w h planes : Nat) : Nat :=
  match fmt with
  | 0 => rowPitch w * (h + h / 2)
  | 1 => rowPitch (2 * w) * (h + h / 2)
  | 2 => rowPitch w * h * 3
  | _ => rowPitch w * h * planes

/-- Sample `j` of pixel (y, x) of a picture: Y, Cb, Cr of a semi-planar picture or the planes. -/
def sampleAt (fmt w h : Nat) (p : List Byte) (j y x : Nat) : Nat :=
  match fmt with
  | 0 => if j = 0 then fieldAt p (y * rowPitch w + x) 1
    else fieldAt p (rowPitch w * h + y / 2 * rowPitch w + x / 2 * 2 + (j - 1)) 1
  | 1 =>
    let at16 := fun off => fieldAt p off 2 / 64
    if j = 0 then at16 (y * rowPitch (2 * w) + 2 * x)
    else at16 (rowPitch (2 * w) * h + y / 2 * rowPitch (2 * w) + 2 * (x / 2 * 2 + (j - 1)))
  | _ => fieldAt p (j * rowPitch w * h + y * rowPitch w + x) 1

/-- The code of channel `c` of pixel (y, x) (R194); every operation in FP32, rounded. -/
def FeDesc.pixelCode (d : FeDesc) (away : Bool) (p : List Byte) (y x c : Nat) : Nat :=
  let fmt := d.u 0x30 1
  let inp := fun j => int32F away ((sampleAt fmt d.inW d.inH p j y x : Nat) : Int)
  let v :=
    if fmt ≤ 2 then
      (List.range 3).foldl (fun acc j =>
        let term := mul32 away (d.u (0x34 + 4 * (3 * c + j)) 4) (sub32 away (inp j) (d.u (0x58 + 4 * j) 4))
        if j = 0 then term else add32 away acc term) 0
    else inp c
  let t := mul32 away (sub32 away v (d.u (0x64 + 4 * c) 4)) (d.u (0x84 + 4 * c) 4)
  match ffmtOf d.xfmt with
  | some f => (f.toSat away (f32 t)).1
  | none =>
    let r := fmtRange d.xfmt
    let n := elemBits d.xfmt
    match f32 t with
    | .nan => wrap n d.zx
    | .inf neg => wrap n (if neg then r.1 else r.2)
    | v => wrap n (clampInt r.1 r.2 (roundInt away v + d.zx)).1

/-! ## exp and the logistic function (R197) -/

/-- ln 2 in units of 2^-80. -/
def ln2Fix : Nat := 837963523372001241319907

/-- The sum of the series of exp at `r * 2^-80`, in units of 2^-80: the `k`-th term is `t`, `n` terms are left. -/
def expSeries (r : Nat) : Nat → Nat → Nat → Nat
  | _, _, 0 => 0
  | t, k, n + 1 => t + expSeries r (t * r / 2 ^ 80 / (k + 1)) (k + 1) n

/-- exp of a finite value, good to some 70 bits; beyond the range of FP32 an infinity or zero. -/
def expVal (x : FVal) : FVal :=
  match x with
  | .nan => .nan
  | .inf neg => if neg then fzero else .inf false
  | .fin neg m e =>
    if flt (ofInt 200 0) (fabs x) then (if neg then fzero else .inf false)
    else
      let u := if 0 ≤ e + 80 then m * 2 ^ (e + 80).toNat else m / 2 ^ (-(e + 80)).toNat
      let v : Int := if neg then -(u : Int) else u
      let k := v / (ln2Fix : Int)
      let r := (v - k * (ln2Fix : Int)).toNat
      .fin false (expSeries r (2 ^ 80) 0 40) (k - 80)

/-- One unit in the last place of FP32 at a finite value. -/
def ulp32 : FVal → FVal
  | .fin _ m e => .fin false 1 (if m = 0 then -149 else max (-149) ((Nat.log2 m : Int) + e - 23))
  | _ => fzero

/-- Whether positive finite code `c` lies within 2 units in the last place of `x` (R197). -/
def near2 (x : FVal) (c : Nat) : Bool :=
  decide (c < 0x7F800000) && fle (fabs (fsub (f32 c) x)) (fmul (ofInt 2 0) (ulp32 x))

/-- A result `x` in FP32, moved by the free value of log entry 12 as far as the bound of R197 lets it. -/
def ulpMove (away : Bool) (kind arg : Nat) (x : FVal) : Nat :=
  let c := r32 away x
  let d := c + Config.ulp kind arg % 5 - 2
  if near2 x d then d else c

/-- exp in FP32 (R197). -/
def exp32 (away : Bool) (v : Nat) : Nat := ulpMove away 0 v (expVal (f32 v))

/-- The logistic function in FP32 (R197). -/
def sigma32 (away : Bool) (v : Nat) : Nat :=
  if nan32 v then fp32.nanCode
  else ulpMove away 1 v (fdiv fone (fadd fone (expVal (fneg (f32 v)))))

/-! ## Box decoding, selection and suppression (R197 to R200) -/

/-- A candidate: corners, score, class, position of its head stage within the GROUP, and its index in order. -/
structure Cand where
  x0 : Nat
  y0 : Nat
  x1 : Nat
  y1 : Nat
  score : Nat
  cls : Nat
  pos : Nat
deriving DecidableEq, Repr

/-- A box term taken as 0 when negative or NaN. -/
def distTerm (v : Nat) : Nat := if nan32 v || (f32 v).isNeg then 0 else v

/-- A corner mapped and clamped (R197). -/
def mapCorner (away : Bool) (v s o clip : Nat) : Nat :=
  let x := add32 away (mul32 away v s) o
  if nan32 x then 0 else if flt (f32 x) fzero then 0 else if flt (f32 clip) (f32 x) then clip else x

/-- The class with the largest score, a NaN below every other, ties to the lowest number. -/
def bestClass (l : List Nat) : Nat × Nat :=
  ((List.range l.length).foldl (fun (a : Option (Nat × Nat)) i =>
    let v := l.getD i 0
    match a with
    | none => some (i, v)
    | some (j, w) => if (nan32 w && !nan32 v) || flt (f32 w) (f32 v) then some (i, v) else some (j, w)) none).getD (0, 0)

/-- The candidate of one cell and anchor, none where its score does not enter selection (R197, R198). -/
def FeDesc.cand (d : FeDesc) (away : Bool) (pos cy cx a : Nat) (v : List Nat) : Option Cand :=
  let flags := d.u 0x34 1
  let obj := b2n (bit flags 1)
  let classes := d.u 0x33 1
  let p := 4 + obj + classes
  let sig := fun x => if bit flags 0 then sigma32 away x else x
  let t := fun i => v.getD (a * p + i) 0
  let best := bestClass ((List.range classes).map (fun c => sig (t (4 + obj + c))))
  let score := if obj = 1 then mul32 away best.2 (sig (t 4)) else best.2
  let half := 0x3F000000
  let gc := add32 away (int32F away (cx : Int)) half
  let gr := add32 away (int32F away (cy : Int)) half
  let g := d.u 0x3C 4
  let box :=
    if d.u 0x31 1 = 0 then
      (mul32 away (sub32 away gc (distTerm (t 0))) g, mul32 away (sub32 away gr (distTerm (t 1))) g,
        mul32 away (add32 away gc (distTerm (t 2))) g, mul32 away (add32 away gr (distTerm (t 3))) g)
    else
      let x := mul32 away (add32 away gc (t 0)) g
      let y := mul32 away (add32 away gr (t 1)) g
      let w := mul32 away (mul32 away (d.u (0x48 + 8 * a) 4) (exp32 away (t 2))) half
      let h := mul32 away (mul32 away (d.u (0x4C + 8 * a) 4) (exp32 away (t 3))) half
      (sub32 away x w, sub32 away y h, add32 away x w, add32 away y h)
  let mx := fun c => mapCorner away c (d.u 0x60 4) (d.u 0x68 4) (d.u 0x70 4)
  let my := fun c => mapCorner away c (d.u 0x64 4) (d.u 0x6C 4) (d.u 0x74 4)
  if !nan32 score && fle (f32 (d.u 0x40 4)) (f32 score) then
    some ⟨mx box.1, my box.2.1, mx box.2.2.1, my box.2.2.2, score, best.1, pos⟩
  else none

/-- Every candidate of one head stage, in the order of R198. -/
def FeDesc.cands (d : FeDesc) (away : Bool) (pos : Nat) (m : List (List (List Nat))) : List Cand :=
  (List.range m.length).flatMap (fun cy =>
    let row := m.getD cy []
    (List.range row.length).flatMap (fun cx =>
      (List.range (d.u 0x32 1)).filterMap (fun a => d.cand away pos cy cx a (row.getD cx []))))

/-- A candidate put in its place in a list of descending scores, behind equal ones. -/
def insCand (c : Cand) : List Cand → List Cand
  | [] => [c]
  | x :: xs => if flt (f32 x.score) (f32 c.score) then c :: x :: xs else x :: insCand c xs

/-- Candidates by descending score, ties to the lower index. -/
def sortCands (l : List Cand) : List Cand := l.foldl (fun acc c => insCand c acc) []

/-- The larger of two FP32 numbers. -/
def max32 (a b : Nat) : Nat := if flt (f32 a) (f32 b) then b else a
/-- The smaller of two FP32 numbers. -/
def min32 (a b : Nat) : Nat := if flt (f32 b) (f32 a) then b else a

/-- The area of a box. -/
def Cand.area (away : Bool) (c : Cand) : Nat := mul32 away (sub32 away c.x1 c.x0) (sub32 away c.y1 c.y0)

/-- inter of R199. -/
def inter (away : Bool) (a b : Cand) : Nat :=
  mul32 away (max32 0 (sub32 away (min32 a.x1 b.x1) (max32 a.x0 b.x0)))
    (max32 0 (sub32 away (min32 a.y1 b.y1) (max32 a.y0 b.y0)))

/-- Whether kept `a` suppresses `b` (R199). -/
def suppresses (away agnostic : Bool) (iou : Nat) (a b : Cand) : Bool :=
  (agnostic || a.cls == b.cls) &&
    (let i := inter away a b
     flt (f32 (mul32 away iou (sub32 away (add32 away (a.area away) (b.area away)) i))) (f32 i))

/-- The walk of R199: at most `room` more are kept. -/
def nms (away agnostic : Bool) (iou : Nat) : List Cand → List Cand → Nat → List Cand
  | kept, [], _ => kept
  | kept, c :: cs, room =>
    match room with
    | 0 => kept
    | n + 1 =>
      if kept.any (fun k => suppresses away agnostic iou k c) then nms away agnostic iou kept cs (n + 1)
      else nms away agnostic iou (kept ++ [c]) cs n

/-- Warning rule `r` of a head stage over the kept detections (R200). -/
def FeDesc.warn (d : FeDesc) (r : Nat) (kept : List Cand) : Bool :=
  let o := 0x80 + 24 * r
  decide (d.u o 1 = 1) && kept.any (fun c => c.cls == d.u (o + 1) 1 && fle (f32 (d.u (o + 4) 4)) (f32 c.score) &&
    flt (f32 (max32 c.x0 (d.u (o + 8) 4))) (f32 (min32 c.x1 (d.u (o + 16) 4))) &&
    flt (f32 (max32 c.y0 (d.u (o + 12) 4))) (f32 (min32 c.y1 (d.u (o + 20) 4))))

/-- The body entry of a detection (R314). -/
def Cand.bytes (c : Cand) : List Byte :=
  leBytes 4 c.x0 ++ leBytes 4 c.y0 ++ leBytes 4 c.x1 ++ leBytes 4 c.y1 ++ leBytes 4 c.score ++ leBytes 1 c.cls ++
    leBytes 1 c.pos ++ [0, 0]

end Sys2Proof.Machine
end

