-- ==== Sys2Proof/Machine/Facing.lean ====
section
/-! DEFINITION. The facing engines at work: the input engine sends a frame (08 R193, R194, 07 R166, R167), the output engine
writes a frame's records (R196 to R200, 13 R313, R314, R424), and an engine fails (R201). -/
namespace Sys2Proof.Machine

/-- Master ID of the engine that holds a role. -/
def State.feMaster (s : State) (head : Bool) : Nat :=
  0x58 + (if head then s.rd LOAD_FE_ROLE_OUTPUT else s.rd LOAD_FE_ROLE_INPUT)

/-- `n` bytes of commons read by a facing engine under its access rights; none on a bus error or an uncorrectable word (R194,
R254, R262). -/
def State.feRead (s : State) (head : Bool) (off n : Nat) : Option (List Byte) × State :=
  if n = 0 then (some [], s)
  else
    let m := s.feMaster head
    let g := s.accessCheck m (0x0800000000 + off) n rightR
    if g.1 then g.2.read .commons off n m else (none, g.2)

/-- Areas read one after another, with the address of the first that fails. -/
def State.feReads (s : State) (head : Bool) : List (Nat × Nat) → Except Nat (List (List Byte)) × State
  | [] => (.ok [], s)
  | a :: as =>
    let r := s.feRead head a.1 a.2
    match r.1 with
    | none => (.error (0x0800000000 + a.1), r.2)
    | some b =>
      let q := r.2.feReads head as
      (q.1.map (fun l => b :: l), q.2)

/-- The descriptor at offset `off` of slot `k`'s commons block and the stage's tables (R192). -/
def State.feStage (s : State) (head : Bool) (k off : Nat) : Except Nat (FeDesc × FeTabs) × State :=
  let base := (s.slot k).commons
  let r := s.feReads head [(base + off, 256)]
  match r.1 with
  | .error a => (.error a, r.2)
  | .ok l =>
    let d := feDesc (l.getD 0 [])
    let q := r.2.feReads head [(base + d.weights, d.cout * d.rowBytes), (base + d.channels, 12 * d.cout),
      (base + d.table, if d.act = 3 then 2112 else 0)]
    match q.1 with
    | .error a => (.error a, q.2)
    | .ok m => (.ok (d, feTabs d (m.getD 0 []) (m.getD 1 []) (m.getD 2 [])), q.2)

/-- Whether a slot's engines round halves away from zero (R164). -/
def Slot.away (x : Slot) : Bool := x.level != 2

/-- Tokens of `size` bytes that hold codes, the last one filled with zero (R424). -/
def tokensOf (size : Nat) (bs : List Byte) : List Nat :=
  (chunks size (bs.length + 1) bs).map (fun c => leNat (slice c 0 size))

/-! ## The input engine -/

/-- FACING_PICTURE_SIZE or FACING_READ_ERROR for the frame that the input engine handles: it is aborted (R194). -/
def State.inFail (s : State) (f : Flight) (code addr : Nat) : State :=
  let s := s.recordCause f.ticket code
  let s := s.raise code (s.feMaster false) (tickCtx f.ticket f.ctx) 0 addr
  (s.sendX (.feIn f.slot) f.ticket).sendA (.feIn f.slot) (.frameEnd f.ticket true)

/-- Whether context `c`'s pictures match the input stage (R194). -/
def State.picFits (s : State) (c : Nat) (d : FeDesc) : Bool :=
  let fmt := s.rdc (1 + c) NET_CTX_PIC_PIC_FMT
  s.rdc (1 + c) NET_CTX_OUT_W == d.inW && s.rdc (1 + c) NET_CTX_OUT_H == d.inH && fmt == d.u 0x30 1 &&
    (fmt != 3 || s.rdc (1 + c) NET_CTX_PIC_PLANES_M1 + 1 == d.cin)

/-- The codes of the input stage over a picture, in raster order with channels innermost (R195). -/
def inputCodes (away : Bool) (d : FeDesc) (t : FeTabs) (p : List Byte) : List Nat :=
  (d.map away false t (d.pixelCode away p)).flatMap (fun row => row.flatMap (fun px => px.map (d.code away)))

/-- The tokens of a frame put on every route of the input engine for slot `k`. -/
def State.fillFe (s : State) (k : Nat) (bs : List Byte) : State :=
  { s with fab := { s.fab with routes := s.fab.routes.map (fun r =>
      if r.src = .feIn k then { r with todo := tokensOf (if r.scalar then 4 else 64) bs } else r) } }

/-- Picture bytes, or why there are none: FACING_PICTURE_SIZE, or FACING_READ_ERROR with its address. DESIGN CHOICE (log entry 74):
in a slot whose forme has no input stage there is nothing to read, and the frame is aborted with FACING_READ_ERROR at address 0. -/
def State.inputData (s : State) (f : Flight) : Except (Nat × Nat) (List Byte × Nat) × State :=
  match (s.slot f.slot).inDesc with
  | none => (.error (EV_FACING_READ_ERROR, 0), s)
  | some off =>
    let r := s.feStage false f.slot off
    match r.1 with
    | .error a => (.error (EV_FACING_READ_ERROR, a), r.2)
    | .ok (d, t) =>
      if !r.2.picFits f.ctx d then (.error (EV_FACING_PICTURE_SIZE, 0), r.2)
      else
        let x := r.2.ctx f.ctx
        let p := r.2.feReads false [(x.base - 0x0800000000 + f.buf * x.bufBytes, picBytes (d.u 0x30 1) d.inW d.inH d.cin)]
        match p.1 with
        | .error a => (.error (EV_FACING_READ_ERROR, a), p.2)
        | .ok l => (.ok (packBytes d.ofmt (inputCodes (r.2.slot f.slot).away d t (l.getD 0 [])), d.firings), p.2)

/-- The input engine sends frame `f`, the stream engines of its impression with it: TAG_RESET where it is due, control tokens, the
first layer's codes, the end; the picture buffer is freed once it is read (R167, R194, R309). -/
def State.sendFrame (s : State) (f : Flight) : State :=
  let k := f.slot
  let reset := (s.slot k).tagReset
  let s := if reset then (s.tagResetFrom (.feIn k)).modSlot k (fun x => { x with tagReset := false }) else s
  let head := frameHead f.fidx f.ticket (s.steerToks k 0 (s.steerWord f.ctx))
  let s := s.sendAll (.feIn k) head
  let s := s.engineFrame k 0 f.ticket head reset f.aborted
  let s := s.modFlight f.ticket (fun x => { x with sent := true })
  let s := { s with face := { s.face with sending := some f.ticket } }
  let s := if f.aborted then s.sendA (.feIn k) (.frameEnd f.ticket true)
    else
      let r := s.inputData f
      let s := r.2.freeBuf f.ctx f.buf
      match r.1 with
      | .error e => s.inFail f e.1 e.2
      | .ok b =>
        let s := s.inc (LOAD_FE_FIRINGS_COUNT.idx (s.rd LOAD_FE_ROLE_INPUT)) b.2
        (s.fillFe k b.1).sendA (.feIn k) (.frameEnd f.ticket false)
  (s.weightEngines k 0).foldl (fun (s : State) e => s.endSent (.eng e)) (s.endSent (.feIn k))

/-- A context whose END_OF_STREAM is due: it is STOPPING, and none of its inputs or frames is still to be sent (R350). -/
def State.eosDue (s : State) : Option Nat :=
  (s.ctxs.find? (fun e => e.2.st == 3 && !e.2.eosSent && s.adm.waiting.all (fun w => w.ctx != e.1) &&
    s.adm.flights.all (fun f => f.ctx != e.1 || (f.sent && !(s.slot e.2.slot).multi)))).map (·.1)

/-- The areas of a context set to their initial values in a forme of several impressions: on the tiles as they stand and in the
store (R214, R216). -/
def State.resetMulti (s : State) (k fidx : Nat) : State :=
  let s := (s.slot k).tiles.foldl (fun s t => s.writeAreas t (s.ctxAreas t fidx)) s
  s.modSlot k (fun x => { x with imp := { x.imp with persist := x.imp.persist.map (fun p =>
    x.inits.foldl (fun p i =>
      let at' := i.off + fidx * i.stride
      if i.stage = p.stage ∧ i.unit = p.unit ∧ p.off ≤ at' ∧ at' + i.bytes.length ≤ p.off + p.len then
        { p with copy := p.copy.take (at' - p.off) ++ i.bytes ++ p.copy.drop (at' - p.off + i.bytes.length) }
      else p) p) } })

/-- END_OF_STREAM sent for context `c` (R40, R350); in a forme of several impressions its state is reset where it stands. -/
def State.sendEos (s : State) (c : Nat) : State :=
  let x := s.ctx c
  let s := s.setCtx c { x with eosSent := true }
  if (s.slot x.slot).multi then (s.resetMulti x.slot x.fidx).modCtx c (fun x => { x with eosDone := true })
  else
    let s := s.sendA (.feIn x.slot) (.eos x.fidx)
    (s.weightEngines x.slot 0).foldl (fun (s : State) e => s.sendA (.eng e) (.eos x.fidx)) s

/-- The frame that the input engine takes next: the oldest accepted one not sent, of a forme with several impressions only once
its round is open and impression 0 runs (R193, R207). The stream engines of its impression must have sent all of the last one, so
that both send the same frame (R133, log entry 13). -/
def State.nextFrame (s : State) : Option Flight :=
  (s.adm.flights.find? (fun f => !f.sent && (!(s.slot f.slot).multi ||
    (roundPlace (s.slot f.slot).imp.round f.ticket).isSome))).filter (fun f => s.enginesIdle f.slot 0)

/-- FE_INPUT_FRAME (R193, R194). -/
def execFeInputFrame (s : State) : Out1 :=
  .next (if !s.facingHeld ∨ s.face.sending.isSome then s
    else
      match s.eosDue with
      | some c => s.sendEos c
      | none =>
        match s.nextFrame with
        | some f => s.sendFrame f
        | none => s)

/-! ## The output engine -/

/-- Sources ordered by band, then unit. -/
def insHead (h : Nat × Nat × List Nat) : List (Nat × Nat × List Nat) → List (Nat × Nat × List Nat)
  | [] => [h]
  | x :: xs => if h.1 < x.1 ∨ (h.1 = x.1 ∧ h.2.1 < x.2.1) then h :: x :: xs else x :: insHead h xs

/-- Token lists of the units of one band, interleaved pixel by pixel: `n` tokens per pixel and unit (log entry 14). -/
def weave : Nat → List (Nat × List Nat) → List Nat
  | 0, _ => []
  | fuel + 1, l =>
    if l.all (fun x => x.2.isEmpty) then []
    else l.flatMap (fun x => x.2.take x.1) ++ weave fuel (l.map (fun x => (x.1, x.2.drop (max 1 x.1))))

/-- The tokens of a head stage in the order of its input map: band after band, and within one the units interleaved by pixel. -/
def headStream (pixels : Nat) (l : List (Nat × Nat × List Nat)) : List Nat :=
  let bands := (l.map (·.1)).eraseDups
  bands.flatMap (fun b =>
    let us := l.filter (fun h => h.1 == b)
    if us.length ≤ 1 then us.flatMap (fun h => h.2.2)
    else
      let px := max 1 (pixels / max 1 bands.length)
      weave (pixels + 1) (us.map (fun h => (max 1 (h.2.2.length / px), h.2.2))))

/-- What one head stage makes of its input: the descriptor with the values of its map, or why it cannot (R194, R424). -/
def State.headMap (s : State) (k stage off : Nat) :
    Except (Nat × Nat) (FeDesc × List (List (List Nat))) × State :=
  let r := s.feStage true k off
  match r.1 with
  | .error a => (.error (EV_FACING_READ_ERROR, a), r.2)
  | .ok (d, t) =>
    let mine := s.face.out.heads.filter (fun h => h.stage == stage)
    let scalar := s.fab.routes.any (fun x => x.scalar && x.recvs.any (fun v => v.dst == .feOut k stage))
    let size := if scalar then 4 else 64
    let toks := headStream (d.inW * d.inH)
      (mine.foldl (fun acc h =>
        let key := s.headKey k h.src
        insHead (key.1, key.2, h.toks) acc) [])
    let need := ceilDiv (d.inW * d.inH * d.cin * elemBits d.xfmt / 8) size
    if toks.length ≠ need then (.error (EV_FACING_PICTURE_SIZE, 0), r.2)
    else
      let codes := codesOf d.xfmt (d.inW * d.inH * d.cin) (toks.flatMap (leBytes size))
      let q := fun y x c => codes.getD ((y * d.inW + x) * d.cin + c) 0
      let s := r.2.inc (LOAD_FE_FIRINGS_COUNT.idx (r.2.rd LOAD_FE_ROLE_OUTPUT)) d.firings
      (.ok (d, d.map (s.slot k).away true t q), s)

/-- The maps of every head stage of a slot, in the order given. -/
def State.headMaps (s : State) (k : Nat) : List (Nat × Nat) →
    Except (Nat × Nat) (List (Nat × FeDesc × List (List (List Nat)))) × State
  | [] => (.ok [], s)
  | h :: hs =>
    let r := s.headMap k h.1 h.2
    match r.1 with
    | .error e => (.error e, r.2)
    | .ok m =>
      let q := r.2.headMaps k hs
      (q.1.map (fun l => (h.1, m) :: l), q.2)

/-- A record before it is cut into parts: the header's own fields, the body, and the bytes that a part must hold whole. -/
structure RecBody where
  stage : Nat := 0
  group : Nat := 0
  mode : Nat
  warn : Nat := 0
  cand : Nat := 0
  body : List Byte
  unit : Nat
  entry : Nat
deriving DecidableEq, Repr

/-- The DETECT record of a GROUP from its head stages, in STAGE_ID order (R198 to R200). -/
def detectBody (away : Bool) (g : Nat) (l : List (Nat × FeDesc × List (List (List Nat)))) : RecBody :=
  let all := (List.range l.length).flatMap (fun i => match l[i]? with
    | some h => h.2.1.cands away i h.2.2
    | none => [])
  match l with
  | [] => { group := g, mode := 0, body := [], unit := 24, entry := 24 }
  | h :: _ =>
    let d := h.2.1
    let top := (sortCands all).take (d.u 0x36 2)
    let kept := nms away (bit (d.u 0x34 1) 2) (d.u 0x44 4) [] top (d.u 0x38 2)
    let warn := listSum ((List.range 4).map (fun r =>
      if (List.range l.length).any (fun i => match l[i]? with
        | some h => h.2.1.warn r kept
        | none => false) then 2 ^ r else 0))
    { group := g, mode := 0, warn := warn, cand := min all.length 0xFFFFFFFF, body := kept.flatMap Cand.bytes, unit := 24
      entry := 24 }

/-- The record of a MAP or SUM stage (R196, R314). DESIGN CHOICE (log entry 74): a sum starts at +0.0, so that a channel whose
values are all -0.0 sums to +0.0. -/
def stageBody (away : Bool) (h : Nat × FeDesc × List (List (List Nat))) : RecBody :=
  let d := h.2.1
  let px := h.2.2.flatMap id
  if d.u 0x30 1 = 1 then
    { stage := h.1, mode := 1, body := packBytes d.ofmt (px.flatMap (fun v => v.map (d.code away))), unit := 64, entry := 1 }
  else
    { stage := h.1, mode := 2
      body := (List.range d.cout).flatMap (fun i => leBytes 4 (px.foldl (fun acc v => add32 away acc (v.getD i 0)) 0))
      unit := 4, entry := 4 }

/-- The records of a frame: DETECT groups in order, then the other head stages (R314). DESIGN CHOICE (log entry 74): a stage's
position among the stages of its GROUP (R198) counts DETECT stages only, since GROUP is a field of DETECT. -/
def frameBodies (away : Bool) (l : List (Nat × FeDesc × List (List (List Nat)))) : List RecBody :=
  let det := l.filter (fun h => h.2.1.u 0x30 1 == 0)
  let groups := (List.range 4).filter (fun g => det.any (fun h => h.2.1.u 0x35 1 == g))
  groups.map (fun g => detectBody away g (det.filter (fun h => h.2.1.u 0x35 1 == g))) ++
    (l.filter (fun h => h.2.1.u 0x30 1 != 0)).map (stageBody away)

/-- A body in pieces of at most `most` bytes, every one but the last of `room` bytes; `fuel` bounds them. -/
def cutBody (most room : Nat) (body : List Byte) : Nat → List (List Byte)
  | 0 => [body]
  | fuel + 1 => if body.length ≤ most then [body] else body.take room :: cutBody most room (body.drop room) fuel

/-- The parts of a record under a galley's MAX_BYTES; beyond 255 it is cut after part 254 (R314). -/
def recordParts (h : RecHead) (b : RecBody) (maxBytes written : Nat) (last : Bool) : List (List Byte) :=
  let room := max b.unit ((maxBytes - 80) / b.unit * b.unit)
  let all := cutBody (max room (maxBytes - 80)) room b.body b.body.length
  let cut := decide (255 < all.length)
  let parts := if cut then all.take 255 else all
  let n := parts.length
  (List.range n).map (fun i =>
    let p := parts.getD i []
    let off := i * room
    recordBytes { h with
        flags := h.flags + 4 * b2n last
        stage := b.stage, group := b.group, mode := b.mode, warn := b.warn, part := i, parts := n, cand := b.cand
        offset := if b.mode = 0 then off / 24 else if b.mode = 1 then off else 0
        count := p.length / b.entry }
      0x20 written (cut && i == n - 1) p)

/-- The records of a frame written one after another; the last one carries LAST. False where a word of one could not be written (11
R260, R262); the rest is then not written. -/
def State.writeRecords (s : State) (f : Flight) : List RecBody → Bool × State
  | [] => (true, s)
  | b :: bs =>
    let g := s.resultGalley f.ctx
    let parts := recordParts (s.flightHead f) b (s.cgalCfg 2 g).max s.now bs.isEmpty
    let r := s.putRecord g parts s.outMaster
    if r.1 = .failed then (false, r.2) else r.2.writeRecords f bs

/-- The warning words of a frame presented to the warning taps that follow its context (14 R334). -/
def State.present (s : State) (ctx : Nat) (l : List RecBody) : State :=
  { s with burl := { s.burl with taps := (List.range 8).map (fun i =>
      let t := s.burl.taps.getD i {}
      let group := s.rd (BURL_WTAP_GROUP.idx i)
      match l.find? (fun b => b.mode == 0 && b.group == group) with
      | some b =>
        if s.rd (BURL_WTAP_EN.idx i) = 1 ∧ s.rd (BURL_WTAP_CTX.idx i) = ctx then { t with wait := some b.warn } else t
      | none => t) } }

/-- The tickets that the control inputs of the output engine hold for slot `k`. -/
def State.feTickets (s : State) (k : Nat) : List Nat :=
  ((s.fab.ctl.filter (fun (r : CtlRoute) => r.dst == Node.fe && r.slot == k)).filterMap (fun r => (s.feIn r.k).ticket)).eraseDups

/-- The output engine turns to the frame that is now at work: it is taken (R193). -/
def State.feNext (s : State) : State :=
  let s := match s.feSlot with
    | some j => (s.feTickets j).foldl (fun (s : State) n => s.modFlight n (fun x => { x with taken := true })) s
    | none => s
  s.absorbAll

/-- The facing engines rid of what they hold of a slot. -/
def State.feForget (s : State) (k : Nat) : State :=
  let ks := (s.fab.ctl.filter (fun r => r.dst == .fe && r.slot == k)).map (·.k)
  let o := s.face.out
  ({ s with face := { s.face with
    out := { o with
      order := o.order.filter (fun j => j != k)
      inp := o.inp.filter (fun e => !ks.contains e.1)
      heads := if o.order.head? = some k then [] else o.heads }
    sending := s.face.sending.filter (fun n => (s.flightOf n).any (fun (f : Flight) => f.slot != k)) } }).feNext

/-- The output engine is done with the frame of slot `k`: it leaves the frames in flight, and the next frame is taken (R193). -/
def State.outDone (s : State) (k : Nat) (f : Flight) : State :=
  let ks := (s.fab.ctl.filter (fun r => r.dst == .fe && r.slot == k)).map (·.k)
  let s := ks.foldl (fun s j => s.modFeIn j (fun i => { i with start := none, ticket := none, ended := none })) s
  let s := { s with
    face := { s.face with
      out := { s.face.out with order := s.face.out.order.drop 1, heads := [], x := s.face.out.x.filter (fun n => n != f.ticket) }
      done := ((f.ticket, f.ctx) :: s.face.done).take 64 }
    adm := { s.adm with flights := s.adm.flights.filter (fun g => g.ticket != f.ticket) } }
  s.feNext

/-- A failure of the output engine's frame: recorded and reported (R194, R424). -/
def State.outFail (s : State) (f : Flight) (code addr : Nat) : State :=
  (s.recordCause f.ticket code).raise code (s.feMaster true) (tickCtx f.ticket f.ctx) 0 addr

/-- The frame at work in the output engine for slot `k`, once every input has ended it. -/
def State.outReady (s : State) (k : Nat) : Option (Flight × Bool) :=
  let ks := (s.fab.ctl.filter (fun r => r.dst == .fe && r.slot == k)).map (·.k)
  if !ks.isEmpty ∧ ks.all (fun j => (s.feIn j).ended.isSome) then
    let n := (ks.filterMap (fun j => (s.feIn j).ticket)).headD 0
    (s.flightOf n).map (fun f =>
      (f, ks.any (fun j => (s.feIn j).ended == some true) || s.face.out.x.contains n))
  else none

/-- FE_OUTPUT_FRAME (R193, R196 to R200, R313, R314): the frame's records, or its error record. -/
def execFeOutputFrame (s : State) : Out1 :=
  .next (if !s.facingHeld then s
    else
      match s.feSlot with
      | none => s
      | some k =>
        match s.outReady k with
        | none => s
        | some (f, aborted) =>
          if aborted then (s.errorRecord f).outDone k f
          else
            let r := s.headMaps k (s.slot k).heads
            match r.1 with
            | .error e =>
              let s := r.2.outFail f e.1 e.2
              (s.errorRecord ((s.flightOf f.ticket).getD f)).outDone k f
            | .ok l =>
              let b := frameBodies (r.2.slot k).away l
              let w := r.2.writeRecords f b
              let g := s.resultGalley f.ctx
              if w.1 then (w.2.present f.ctx b).outDone k f
              else
                let s := w.2.outFail f EV_FACING_READ_ERROR (0x0800000000 + (s.cgalCfg 2 g).base)
                (s.errorRecord ((s.flightOf f.ticket).getD f)).outDone k f)

/-! ## Failure of an engine (R201) -/

/-- A role lost with no usable engine for it: every resident slot stops, FACING is cleared (R201, R357). -/
def State.faceLost (s : State) (e role : Nat) : State :=
  let s := { s with slots := s.slots.map (fun (x : Slot) => if x.st = 2 then { x with st := 4 } else x) }
  (s.raise EV_FACING_LOST s.heaCore e 3 role).funcLost 7

/-- The frames that an engine holds in a role aborted (R201). -/
def State.faceAbort (s : State) (output : Bool) : State :=
  if output then
    (s.feSlot.elim [] s.feTickets).foldl (fun (s : State) n =>
      let s := s.abortFlight n EV_FACING_FAULT
      s.modOut (fun o => { o with x := if o.x.contains n then o.x else o.x ++ [n] })) s
  else s.face.sending.toList.foldl (fun (s : State) n => s.abortFlight n EV_FACING_FAULT) s

/-- An engine that held a role gives it up: to the spare where that is usable (R201). -/
def State.faceSwap (s : State) (e : Nat) (output : Bool) : State :=
  let spare := s.rd LOAD_FE_ROLE_SPARE
  let use := decide (spare < 3) && spare != e && !s.unusable (104 + spare)
  let s := s.faceAbort output
  let s := s.wr (if output then LOAD_FE_ROLE_OUTPUT else LOAD_FE_ROLE_INPUT) (if use then spare else 3)
  let s := s.setDomain (104 + e) false
  if use then (((s.dropTest (104 + spare)).wr LOAD_FE_ROLE_SPARE 3).setDomain (104 + spare) true).raise EV_FACING_SUBSTITUTED
    s.heaCore e spare (b2n output)
  else s.faceLost e (b2n output)

/-- What follows for the roles when engine `e` has become unusable (R201). Role code 3 of LOAD_FE_ROLE stands for none. -/
def State.faceFail (s : State) (e : Nat) : State :=
  let inp := s.rd LOAD_FE_ROLE_INPUT = e
  let out := s.rd LOAD_FE_ROLE_OUTPUT = e
  let s := s.raise EV_FACING_FAULT s.heaCore e 3 (if out then 1 else 0)
  if inp then s.faceSwap e false else if out then s.faceSwap e true else s.wr LOAD_FE_ROLE_SPARE 3

/-- FACING_FAULT (R201): engine `e` reports an internal fault; it is unusable for life. -/
def execFacingFault (e : Nat) (s : State) : Out1 :=
  .next (if 3 ≤ e ∨ s.unusable (104 + e) then s else (s.markUnusable (104 + e) 6).faceFail e)

end Sys2Proof.Machine
end

