-- ==== Sys2Proof/Machine/Forme.lean ====
section
/-! DEFINITION. A forme image as the loader reads it (01 R12 to R16, R32; 05 R126; 07 R168; 09 R202; 10 R224, R228) and the
checks of steps 1 and 2 of Table 1-4 (R13, R14, R427, 08 R192, 09 R203). Pure functions of the image's bytes. -/
namespace Sys2Proof.Machine

/-! ## Records -/

/-- The template closes a cycle. -/
def Tmpl.back (t : Tmpl) : Bool := bit t.flags 0
/-- The template delivers to every replica. -/
def Tmpl.all (t : Tmpl) : Bool := bit t.flags 1
/-- The template enters a steering unit. -/
def Tmpl.steered (t : Tmpl) : Bool := bit t.steer 7
/-- The index of the steering unit. -/
def Tmpl.unitIdx (t : Tmpl) : Nat := bits t.steer 0 4
/-- The input of the steering unit. -/
def Tmpl.input (t : Tmpl) : Nat := bits t.steer 4 2
/-- Tokens of a block of the steering unit, given with its input 0. -/
def Tmpl.block (t : Tmpl) : Nat := bits t.cfg 0 4 + 1
/-- Inputs of the steering unit, given with its input 0. -/
def Tmpl.inputs (t : Tmpl) : Nat := bits t.cfg 4 2 + 1

/-- FLAGS.CONTRACT. -/
def Forme.contract (f : Forme) : Bool := bit f.flags 0
/-- FLAGS.MULTI. -/
def Forme.multi (f : Forme) : Bool := bit f.flags 1

/-! ## Sections (R14) -/

/-- A directory entry: TYPE, OFFSET, LENGTH, and the reserved word. -/
def dirEntry (img : List Byte) (i : Nat) : Nat × Nat × Nat × Nat :=
  let o := fieldAt img 0x2C 4 + 16 * i
  (fieldAt img o 4, fieldAt img (o + 4) 4, fieldAt img (o + 8) 4, fieldAt img (o + 12) 4)

/-- The directory. -/
def directory (img : List Byte) : List (Nat × Nat × Nat × Nat) :=
  (List.range (fieldAt img 0x2A 2)).map (dirEntry img)

/-- The bytes of the section of a type; none of it where the directory has none. -/
def sectionBytes (img : List Byte) (ty : Nat) : List Byte :=
  match (directory img).find? (fun e => e.1 == ty) with
  | some e => (img.drop e.2.1).take e.2.2.1
  | none => []

/-- A section cut into records of `n` bytes. -/
def records (b : List Byte) (n : Nat) : List (List Byte) := (List.range (b.length / n)).map (fun i => slice b (n * i) n)

/-- The stage record that 32 bytes spell. -/
def stageOfBytes (b : List Byte) : Stage :=
  let u := fieldAt b
  ⟨u 0 2, u 2 1, u 3 1, u 4 2, u 6 2, u 8 2, u 0xA 2, u 0xC 4, u 0x10 4, u 0x14 2, u 0x16 2, u 0x18 4⟩

/-- The route template that 16 bytes spell. -/
def tmplOfBytes (b : List Byte) : Tmpl :=
  let u := fieldAt b
  ⟨u 0 2, u 2 1, u 3 1, u 4 2, u 6 1, u 7 1, u 8 1, u 9 1, u 0xA 1, u 0xB 1⟩

/-- The relocation that 16 bytes spell. -/
def relocOfBytes (b : List Byte) : Reloc :=
  let u := fieldAt b
  ⟨u 0 2, u 2 1, u 3 1, u 4 4, u 8 1, u 9 1, u 0xA 2, u 0xC 4⟩

/-- The SLACK entry that 16 bytes spell. -/
def slackOfBytes (b : List Byte) : SlackEnt :=
  let u := fieldAt b
  ⟨u 0 2, u 2 2, u 4 4, u 8 4, u 0xC 4⟩

/-- The scale-watch directory (Table 7-3) at the start of DATA. -/
def dirOfData (d : List Byte) : List ScaleDir :=
  (List.range (min (fieldAt d 0 4) (d.length / 16))).map (fun i =>
    let u := fun o n => fieldAt d (16 + 16 * i + o) n
    { stage := u 0 2, unit := u 2 1, rq := u 3 1, qmax := u 4 2, zout := signed 16 (u 6 2), sfmt := u 8 1 == 1, k := u 9 1
      stride := u 0xA 2, off := u 0xC 4 })

/-- The image read. -/
def formeOf (img : List Byte) : Forme :=
  let u := fieldAt img
  let steps := sectionBytes img 6
  let plan := sectionBytes img 10
  let nc := fieldAt plan 2 2
  let nr := fieldAt plan 4 2
  let np := fieldAt plan 6 2
  { img := img, version := u 4 2, level := u 6 1, flags := u 7 1, ifMin := u 8 4, ifMax := u 0xC 4, id := u 0x10 16
    stageCount := u 0x20 2, impCount := u 0x22 2, tilesMin := u 0x24 2, tilesMax := u 0x26 2, maxCtx := u 0x28 2
    commons := u 0x30 4, pages := u 0x34 4, quoins := u 0x38 4, sigOff := u 0x3C 4
    stages := (records (sectionBytes img 1) 32).map stageOfBytes
    tmpls := (records (sectionBytes img 3) 16).map tmplOfBytes
    relocs := (records (sectionBytes img 7) 16).map relocOfBytes
    slack := (records (sectionBytes img 9) 16).map slackOfBytes
    assumed := (List.range 16).map (fun k => fieldAt steps (2 * k) 2)
    counts := (List.range (fieldAt steps 0x20 4)).map (fun j =>
      ((List.range 16).map (fun k => fieldAt steps (0x30 + 136 * j + 8 + 8 * k) 4),
       (List.range 16).map (fun k => fieldAt steps (0x30 + 136 * j + 0xC + 8 * k) 4)))
    roundMax := fieldAt plan 0 2, hostGate := fieldAt plan 8 1 == 1, gateQ := fieldAt plan 0xC 4
    doneQ := fieldAt plan 0x10 4
    cuts := (List.range nc).map (fun i =>
      let v := fun o n => fieldAt plan (32 + 32 * i + o) n
      { srcStage := v 2 2, srcUnit := v 4 1, srcPort := v 5 1, rows := v 6 2, rowBytes := v 8 4, quoin := v 0xC 4
        buf := v 0x10 8 })
    refills := (List.range nr).map (fun i =>
      let v := fun o n => fieldAt plan (32 + 32 * nc + 16 * i + o) n
      { cut := v 0 2, dst := v 2 2, dstUnit := v 4 1, dstPort := v 5 1, all := bit (v 6 1) 0 })
    persist := (List.range np).map (fun i =>
      let v := fun o n => fieldAt plan (32 + 32 * nc + 16 * nr + 16 * i + o) n
      { stage := v 0 2, unit := v 2 1, off := v 4 4, len := v 8 4 })
    dir := dirOfData (sectionBytes img 8)
    det := Config.formeDetail img }

/-! ## Stages -/

/-- Stage `s` of a forme. -/
def Forme.stage (f : Forme) (s : Nat) : Stage := f.stages.getD s ⟨0, 0, 0, 0, 0, 0, 0, 0, 0, 0, 0, 0⟩

/-- Whether a stage and a unit tile of it exist (Table 1-4, step 2). -/
def Forme.unitExists (f : Forme) (s u : Nat) : Bool :=
  decide (s < f.stages.length) && (f.stage s).kind == 0 && decide (u < (f.stage s).width)

/-- load(s, r) of R16. -/
def Stage.load (s : Stage) (r : Nat) : Nat := s.fixed + (if s.split = 0 then 0 else s.fpr * ceilDiv s.split r)

/-- Firings per frame of a stage (R19). -/
def Stage.firings (s : Stage) : Nat := s.load 1

/-- The tile stages of an impression, in STAGE_ID order. -/
def Forme.tileStages (f : Forme) (imp : Nat) : List Stage := f.stages.filter (fun s => s.kind == 0 && s.imp == imp)

/-- The sum of the unit widths of an impression. -/
def Forme.widths (f : Forme) (imp : Nat) : Nat := listSum ((f.tileStages imp).map (·.width))

/-- The GALLEYS entry of a port of a stage's unit. -/
def Forme.galley (f : Forme) (s u p : Nat) : Option GalleyEnt :=
  f.det.galleys.find? (fun g => g.stage == s && g.unit == u && g.port == p)

/-- Tokens per frame that pass a port of a stage's unit on a replica with the given band: its FIREs that name the port, times COUNT
(R67). -/
def Forme.bandTokens (f : Forme) (s u p row0 rows : Nat) : Nat :=
  (f.galley s u p).elim 0 (fun g => Config.portFires f.img s u p row0 rows * g.count)

/-- Tokens per frame that pass a port, over the whole stage. -/
def Forme.portTokens (f : Forme) (s u p : Nat) : Nat := f.bandTokens s u p 0 (f.stage s).split

/-- The program of a stage's unit tile (Table 1-3). -/
def Forme.program (f : Forme) (s u : Nat) : List Byte := f.det.programs.getD ((f.stage s).prog + u) []

/-- The PLACEMENT entries of a stage's unit tile. -/
def Forme.areas (f : Forme) (s u : Nat) : List PlaceEnt :=
  f.det.placed.filter (fun p => p.region == 0 && p.stage == s && p.unit == u)

/-- The descriptor of a facing-engine stage in the forme's commons block. -/
def Forme.descOff (f : Forme) (s : Nat) : Option Nat := (f.det.descs.find? (fun d => d.1 == s)).map (·.2)

/-- `n` bytes at `off` of the forme's commons block as PLACEMENT fills it; a byte that no entry gives is 0. -/
def Forme.commonsBytes (f : Forme) (off n : Nat) : List Byte :=
  (List.range n).map (fun i =>
    match f.det.placed.find? (fun p => p.region == 1 && decide (p.off ≤ off + i) && decide (off + i < p.off + p.len)) with
    | some p => p.bytes.getD (off + i - p.off) 0
    | none => 0)

/-- The descriptor of a facing-engine stage. -/
def Forme.desc (f : Forme) (s : Nat) : FeDesc := feDesc (f.commonsBytes ((f.descOff s).getD 0) 256)

/-! ## Step 1 (R13, R369) -/

/-- Whether the first 256 bytes locate a signature: the length of the image, none where they do not. -/
def locate (hdr : List Byte) (addr : Nat) : Option Nat :=
  let n := fieldAt hdr 0x40 4
  let so := fieldAt hdr 0x3C 4
  if fieldAt hdr 0 4 = 0x4D524F46 ∧ n = so + 7856 ∧ 256 ≤ so ∧ addr + n ≤ 0x400000000 then some n else none

/-- Whether one of the keys verifies the image's signature. -/
def verified (keys : List Nat) (img : List Byte) : Bool :=
  let so := fieldAt img 0x3C 4
  keys.any (fun k => Config.slhVerify k (img.take so) (img.drop so))

/-! ## Step 2 (R12, R14 to R16, R427) -/

/-- Two byte ranges that share no byte. -/
def apart (a b : Nat × Nat) : Bool := decide (a.1 + a.2 ≤ b.1) || decide (b.1 + b.2 ≤ a.1) || a.2 == 0 || b.2 == 0

/-- No two of the ranges overlap. -/
def allApart : List (Nat × Nat) → Bool
  | [] => true
  | a :: l => l.all (apart a) && allApart l

/-- The directory (R14): one section of each type, IMPRESSION_PLAN with FLAGS.MULTI only, each wholly between the directory's end
and the signature, none overlapping. -/
def Forme.dirOk (f : Forme) : Bool :=
  let d := directory f.img
  let start := fieldAt f.img 0x2C 4
  let stop := start + 16 * d.length
  let want := (List.range 9).map (· + 1) ++ (if f.multi then [10] else [])
  decide (256 ≤ start) && d.length == want.length && want.all (fun t => d.any (fun e => e.1 == t)) &&
  d.all (fun e => e.2.2.2 == 0 && decide (stop ≤ e.2.1) && decide (e.2.1 + e.2.2.1 ≤ f.sigOff)) &&
  allApart (d.map (fun e => (e.2.1, e.2.2.1)))

/-- The header's own ranges and zeros (R12, R427). -/
def Forme.headerOk (f : Forme) : Bool :=
  let sums := (List.range f.impCount).map f.widths
  decide (f.flags < 4) && decide (1 ≤ f.stageCount) && decide (f.stageCount ≤ 4095) && decide (1 ≤ f.impCount) &&
  decide (f.impCount ≤ 255) && (f.multi == decide (f.impCount ≠ 1)) && f.tilesMin == listMax sums && decide (1 ≤ f.tilesMax) &&
  decide (f.tilesMax ≤ 1024) && decide (f.tilesMin ≤ f.tilesMax) && decide (1 ≤ f.maxCtx) && decide (f.maxCtx ≤ 4096) &&
  f.commons % 65536 == 0 && fieldAt f.img 0x44 60 == 0

/-- Stage records (R15, R16). -/
def Forme.stagesOk (f : Forme) : Bool :=
  let b := sectionBytes f.img 1
  b.length == 32 * f.stageCount && (records b 32).all (fun r => fieldAt r 0x1C 4 == 0) &&
  (List.range f.stages.length).all (fun i =>
    let s := f.stage i
    s.id == i && decide (s.kind ≤ 2) && decide (s.imp < f.impCount) && decide (1 ≤ s.rmax) && decide (s.rmax ≤ 1024) &&
    (s.split != 0 || s.rmax == 1) &&
    (if s.kind = 0 then decide (s.cls ≤ 7) && decide (1 ≤ s.width) && decide (s.width ≤ 104) else s.width == 0))

/-- Whether a port named by a template, cut or refill entry has its GALLEYS entry. -/
def Forme.portExists (f : Forme) (s u p : Nat) : Bool := f.unitExists s u && (f.galley s u p).isSome

/-- Route templates (R126, R427, 09 R203). -/
def Forme.tmplOk (f : Forme) (t : Tmpl) : Bool :=
  let src := if t.srcPort = 0x80 then decide (t.src < f.stages.length) && (f.stage t.src).kind == 1 && t.srcUnit == 0
    else if t.srcPort = 0x82 then t.src == 0 && t.srcUnit == 0
    else decide (8 ≤ t.srcPort) && decide (t.srcPort ≤ 11) && f.portExists t.src t.srcUnit t.srcPort
  let dst := if t.dstPort = 0x81 then decide (t.dst < f.stages.length) && (f.stage t.dst).kind == 2 && t.dstUnit == 0
    else decide (t.dstPort ≤ 7) && f.portExists t.dst t.dstUnit t.dstPort
  src && dst && decide (t.net ≤ 1) && decide (t.flags < 4) && bits t.steer 6 1 == 0 &&
  (if t.steered then decide (bits t.cfg 6 2 = 0) && t.net == 0 && (t.input == 0 || t.cfg == 0) &&
      (t.input != 0 || decide (2 ≤ t.inputs))
    else t.steer == 0 && t.cfg == 0) &&
  (t.srcPort == 0x82 || (f.stage t.src).imp == (f.stage t.dst).imp)

/-- The ROUTES section. -/
def Forme.routesOk (f : Forme) : Bool :=
  let b := sectionBytes f.img 3
  b.length % 16 == 0 && (records b 16).all (fun r => fieldAt r 0xC 4 == 0) && f.tmpls.all f.tmplOk

/-- Whether every one of `n` bytes from `off` on lies in one of the ranges. -/
def covered (l : List (Nat × Nat)) (off n : Nat) : Bool :=
  (List.range n).all (fun i => l.any (fun e => decide (e.1 ≤ off + i) && decide (off + i < e.1 + e.2)))

/-- The byte ranges placed in tile SRAM of a stage's unit. -/
def Forme.placedRanges (f : Forme) (s u : Nat) : List (Nat × Nat) := (f.areas s u).map (fun p => (p.off, p.len))

/-- One relocation (R32, R427). -/
def Forme.relocOk (f : Forme) (r : Reloc) : Bool :=
  let o := bits r.off 0 31
  let inside := if bit r.off 31 then covered (f.placedRanges r.stage r.unit) o 4
    else decide (o + 4 ≤ (f.program r.stage r.unit).length)
  let sym := if r.ty = 2 ∨ r.ty = 6 then f.unitExists r.sym r.unit else true
  f.unitExists r.stage r.unit && decide (1 ≤ r.ty) && decide (r.ty ≤ 9) && o % 4 == 0 && inside && sym &&
  decide (r.lsb ≤ 31) && decide (1 ≤ r.width) && decide (r.lsb + r.width ≤ 32)

/-- The RELOCATIONS section. -/
def Forme.relocsOk (f : Forme) : Bool := (sectionBytes f.img 7).length % 16 == 0 && f.relocs.all f.relocOk

/-- The GALLEYS section (R427): ports g0 to g11 of existing units, no port twice; a packet's TYPE is one of the forme's own (12 Table
12-6). -/
def Forme.galleysOk (f : Forme) : Bool :=
  f.det.galleys.all (fun g => f.unitExists g.stage g.unit && decide (g.port ≤ 11) && (g.size == 4 || g.size == 64) &&
    decide (1 ≤ g.count) && decide (g.count ≤ 64) && (!g.pkt || decide (g.ty ≤ 0x0F))) &&
  f.det.galleys.all (fun g => (f.det.galleys.filter (fun h => h.stage == g.stage && h.unit == g.unit && h.port == g.port)).length == 1)

/-- The PLACEMENT section (R427). -/
def Forme.placementOk (f : Forme) : Bool :=
  f.det.placed.all (fun p =>
    if p.region = 0 then f.unitExists p.stage p.unit && decide (p.off + p.len ≤ 0x180000)
    else if p.region = 1 then decide (p.off + p.len ≤ f.commons)
    else decide (p.off + p.len ≤ f.pages * 0x200000)) &&
  f.stages.all (fun s => s.kind == 0 || (f.descOff s.id).isSome)

/-- The STEP_ASSUMPTIONS section (10 R224). -/
def Forme.stepsOk (f : Forme) : Bool :=
  let b := sectionBytes f.img 6
  let n := fieldAt b 0x20 4
  n == f.stageCount && b.length == 0x30 + 136 * n && fieldAt b 0x24 12 == 0 &&
  f.assumed.all (fun v => decide (1 ≤ v) && decide (v ≤ 255)) &&
  (List.range n).all (fun j => fieldAt b (0x30 + 136 * j) 2 == j && fieldAt b (0x30 + 136 * j + 2) 6 == 0 &&
    ((f.stage j).kind == 0 || (f.counts.getD j ([], [])).2.all (fun v => v == 0)))

/-- The SLACK section: one entry per tile stage, in order (10 R228). -/
def Forme.slackOk (f : Forme) : Bool :=
  (sectionBytes f.img 9).length % 16 == 0 && f.slack.map (·.stage) == (f.stages.filter (fun s => s.kind == 0)).map (·.id) &&
  f.slack.all (fun e => decide (e.pch ≤ 32))

/-- The scale-watch directory (07 R168). -/
def Forme.dirEntriesOk (f : Forme) : Bool :=
  let d := sectionBytes f.img 8
  let n := fieldAt d 0 4
  decide (16 + 16 * n ≤ d.length) && fieldAt d 4 12 == 0 &&
  (List.range n).all (fun i =>
    let e := f.dir.getD i ⟨0, 0, 0, 0, 0, false, 0, 0, 0⟩
    decide (fieldAt d (16 + 16 * i + 8) 1 ≤ 1) && f.unitExists e.stage e.unit && decide (1 ≤ e.rq) && decide (e.rq ≤ 13) &&
    decide (1 ≤ e.qmax) && decide (1 ≤ e.k) && decide (e.k ≤ 8) && e.stride % 32 == 0 && e.off % 32 == 0 &&
    (List.range f.maxCtx).all (fun c => covered (f.placedRanges e.stage e.unit) (e.off + c * e.stride) 32) &&
    (f.dir.filter (fun x => x.stage == e.stage && x.unit == e.unit && x.rq == e.rq)).length == 1 &&
    f.tmpls.all (fun t => !(t.dstPort == 0x81 && t.src == e.stage && t.srcUnit == e.unit && t.srcPort < 12)))

/-! ## Facing-engine descriptors (08 R192) -/

/-- Whether a code is finite as FP32. -/
def finite32 (v : Nat) : Bool := (f32 v).isFin

/-- Whether an area lies in the forme's commons block. -/
def Forme.inCommons (f : Forme) (off n : Nat) : Bool := decide (off + n ≤ f.commons)

/-- The part of a descriptor common to both kinds (Table 8-7). -/
def Forme.descCommon (f : Forme) (s : Stage) (d : FeDesc) : Bool :=
  let rng := fun lo hi v => decide (lo ≤ v) && decide (v ≤ hi)
  let fl := d.xfmt == 3 || d.xfmt == 8
  rng 1 (if s.kind = 1 then 8 else 4096) d.cin && rng 1 (if s.kind = 1 then 256 else 16) d.cout && rng 1 11 d.kh &&
  rng 1 11 d.kw && rng 1 8 d.sh && rng 1 8 d.sw && rng 1 32 d.dh && rng 1 32 d.dw &&
  rng 0 15 d.padT && rng 0 15 d.padB && rng 0 15 d.padL && rng 0 15 d.padR &&
  ([0, 1].contains d.wfmt && [0, 1].contains d.xfmt || [3, 8].contains d.wfmt && [3, 8].contains d.xfmt) &&
  rng 1 4096 d.inW && rng 1 4096 d.inH && (!fl || (d.sx == 0x3F800000 && d.zx == 0)) && decide (d.ofmt ≤ 8) &&
  decide (d.act ≤ 3) && d.u 0x22 2 == 0 &&
  (if d.act = 2 then finite32 (d.leaky (s.kind == 2)) else d.leaky (s.kind == 2) == 0) &&
  scaleOk (f32 d.sx) && (fl || zpOk d.xfmt d.zx) &&
  (!(s.kind == 1 || d.u 0x30 1 == 1) || (scaleOk (f32 d.invS) && (!([0, 1, 2, 4, 5].contains d.ofmt) || zpOk d.ofmt d.zout))) &&
  (List.range d.cout).all (fun i =>
    let c := f.commonsBytes (d.channels + 12 * i) 12
    scaleOk (f32 (fieldAt c 0 4)) && fieldAt c 10 2 == 0 &&
    (if fl then fieldAt c 8 2 == 0 else zpOk d.wfmt (signed 16 (fieldAt c 8 2)))) &&
  f.inCommons d.weights (d.cout * d.rowBytes) && f.inCommons d.channels (12 * d.cout) &&
  (if d.act = 3 then f.inCommons d.table 2112 && actTableOk (f.commonsBytes d.table 2112) else d.table == 0)

/-- The part of a descriptor that its kind adds (Tables 8-8 and 8-9). -/
def descKind (s : Stage) (d : FeDesc) : Bool :=
  if s.kind = 1 then
    let even := decide (1 < d.u 0x30 1) || (d.inW % 2 == 0 && d.inH % 2 == 0)
    decide (d.u 0x30 1 ≤ 3) && even && (d.u 0x30 1 == 3 || decide (d.cin ≤ 3)) && d.u 0x31 3 == 0 && d.u 0xA8 88 == 0
  else
    let n := d.u 0x33 1
    decide (d.u 0x30 1 ≤ 2) && decide (d.u 0x31 1 ≤ 1) && decide (1 ≤ d.u 0x32 1) && decide (d.u 0x32 1 ≤ 3) &&
    decide (1 ≤ n) && decide (n ≤ 12) && decide (d.u 0x34 1 < 8) && decide (d.u 0x35 1 ≤ 3) &&
    decide (1 ≤ d.u 0x36 2) && decide (d.u 0x36 2 ≤ 1024) && decide (1 ≤ d.u 0x38 2) && decide (d.u 0x38 2 ≤ d.u 0x36 2) &&
    d.u 0x3A 2 == 0 && flt fzero (f32 (d.u 0x3C 4)) && (List.range 4).all (fun r => d.u (0x82 + 24 * r) 2 == 0) && finite32 (d.u 0x40 4) &&
    fle fzero (f32 (d.u 0x44 4)) && fle (f32 (d.u 0x44 4)) fone && d.u 0x7C 4 == 0 && d.u 0xE0 32 == 0 &&
    (d.u 0x30 1 != 0 || d.u 0x32 1 * (4 + b2n (bit (d.u 0x34 1) 1) + n) == d.cout)

/-- Every descriptor, and what the stages of a GROUP share. -/
def Forme.descsOk (f : Forme) : Bool :=
  let fe := f.stages.filter (fun s => s.kind != 0)
  let heads := (fe.filter (fun s => s.kind == 2)).map (fun s => f.desc s.id)
  let same := fun (a b : FeDesc) => a.u 0x35 1 != b.u 0x35 1 || (a.u 0x36 4 == b.u 0x36 4 && a.u 0x44 4 == b.u 0x44 4 &&
    bit (a.u 0x34 1) 2 == bit (b.u 0x34 1) 2)
  decide ((fe.filter (fun s => s.kind == 1)).length ≤ 1) && decide (heads.length ≤ 8) &&
  fe.all (fun s =>
    let off := (f.descOff s.id).getD 0
    let d := f.desc s.id
    off % 256 == 0 && f.inCommons off 256 && f.descCommon s d && descKind s d) &&
  heads.all (fun a => heads.all (same a))

/-! ## The impression plan (09 R203) -/

/-- The plan of a forme with several impressions. -/
def Forme.planOk (f : Forme) : Bool :=
  let p := sectionBytes f.img 10
  let last := f.impCount - 1
  let size := fun (c : Cut) => f.roundMax * c.rows * c.rowBytes
  let shipped := fun (c : Cut) => f.portTokens c.srcStage c.srcUnit c.srcPort
  let vector := fun (s u p : Nat) => (f.galley s u p).any (fun g => g.size == 64)
  let qs := f.cuts.map (·.quoin) ++ [f.doneQ] ++ (if f.hostGate then [f.gateQ] else [])
  let kept := fun (s u off n : Nat) =>
    covered ((f.persist.filter (fun e => e.stage == s && e.unit == u)).map (fun e => (e.off, e.len))) off n
  let ring := fun (g : GalleyEnt) =>
    match f.det.regs.find? (fun r => r.1 == g.stage && r.2.1 == g.unit && r.2.2.1 == 0x80 + 4 * g.port) with
    | some r => (bits r.2.2.2 0 15 * 64, bits r.2.2.2 16 15 * 64)
    | none => (0, 0)
  p.length == 32 + 32 * f.cuts.length + 16 * f.refills.length + 16 * f.persist.length &&
  decide (1 ≤ f.roundMax) && decide (f.roundMax ≤ 32) && decide (1 ≤ f.cuts.length) && decide (f.cuts.length ≤ 1024) &&
  decide (1 ≤ f.refills.length) && decide (f.refills.length ≤ 1024) && decide (f.persist.length ≤ 4096) &&
  decide (fieldAt p 8 1 < 2) && fieldAt p 9 3 == 0 && fieldAt p 0x14 12 == 0 && (f.hostGate || f.gateQ == 0) &&
  (List.range f.cuts.length).all (fun i =>
    let c := f.cuts.getD i ⟨0, 0, 0, 0, 0, 0, 0⟩
    fieldAt p (32 + 32 * i) 2 == i && fieldAt p (32 + 32 * i + 0x18) 8 == 0 && decide (8 ≤ c.srcPort) &&
    decide (c.srcPort ≤ 11) && f.portExists c.srcStage c.srcUnit c.srcPort && vector c.srcStage c.srcUnit c.srcPort &&
    c.rows == (if (f.stage c.srcStage).split = 0 then 1 else (f.stage c.srcStage).split) && c.rowBytes % 64 == 0 &&
    c.buf % 64 == 0 && decide (c.buf + size c ≤ f.pages * 0x200000) && f.refills.any (fun r => r.cut == i) &&
    decide (0 < shipped c) && c.rows * c.rowBytes / 64 % shipped c == 0) &&
  allApart (f.cuts.map (fun c => (c.buf, size c))) &&
  (List.range f.refills.length).all (fun i =>
    let r := f.refills.getD i ⟨0, 0, 0, 0, false⟩
    let o := 32 + 32 * f.cuts.length + 16 * i
    let c := f.cuts.getD r.cut ⟨0, 0, 0, 0, 0, 0, 0⟩
    decide (fieldAt p (o + 6) 1 < 2) && fieldAt p (o + 7) 9 == 0 && decide (r.cut < f.cuts.length) &&
    decide (r.dst < f.stages.length) && decide ((f.stage c.srcStage).imp < (f.stage r.dst).imp) &&
    (if r.dstPort = 0x81 then (f.stage r.dst).kind == 2 && r.dstUnit == 0
      else decide (r.dstPort ≤ 7) && f.portExists r.dst r.dstUnit r.dstPort && vector r.dst r.dstUnit r.dstPort)) &&
  (List.range f.persist.length).all (fun i =>
    let e := f.persist.getD i ⟨0, 0, 0, 0⟩
    let o := 32 + 32 * f.cuts.length + 16 * f.refills.length + 16 * i
    fieldAt p (o + 3) 1 == 0 && fieldAt p (o + 0xC) 4 == 0 && f.unitExists e.stage e.unit && e.off % 64 == 0 &&
    e.len % 64 == 0 && decide (64 ≤ e.len) && decide (e.off + e.len ≤ 1572864)) &&
  decide (qs.eraseDups.length = qs.length) && qs.all (fun q => decide (q < f.quoins)) && !(f.hostGate && f.contract) &&
  f.stages.all (fun s => (s.kind != 1 || s.imp == 0) && (s.kind != 2 || s.imp == last)) &&
  (f.det.galleys.filter (fun g => g.loop && decide (g.port < 8))).all (fun g => kept g.stage g.unit (ring g).1 (ring g).2) &&
  f.dir.all (fun e => (List.range f.maxCtx).all (fun c => kept e.stage e.unit (e.off + c * e.stride) 32))

/-- Everything of step 2 that the image alone decides. -/
def Forme.formatOk (f : Forme) : Bool :=
  !f.det.bad && f.dirOk && f.headerOk && f.stagesOk && f.routesOk && f.relocsOk && f.galleysOk && f.placementOk && f.stepsOk &&
  f.slackOk && f.dirEntriesOk && f.descsOk && (!f.multi || f.planOk)

end Sys2Proof.Machine
end

