-- ==== Sys2Proof/Machine/Placement.lean ====
section
/-! DEFINITION. The checks of steps 5 to 12 and 14 of Table 1-4 and what they place: rates (01 R19), replica counts (R21),
placement (R17, R23), route expansion and lanes (05 R126 to R128), galleys, cycles and reconvergence (R24 to R27), the work and
the bounds of a forme (10 R225 to R228). Pure functions of the forme and of what is free. -/
namespace Sys2Proof.Machine

/-! ## Rates (R19, R127, R138, R424, 09 R204) -/

/-- Tokens per frame that the input facing engine ships on a template's network (R424). -/
def Forme.fePic (f : Forme) (s net : Nat) : Nat :=
  let d := f.desc s
  ceilDiv (ceilDiv (d.outH * d.outW * d.cout * elemBits d.ofmt) 8) (if net = 1 then 4 else 64)

/-- Tokens per frame of the weight stream of template `i`. -/
def Forme.streamTokens (f : Forme) (i : Nat) : Nat :=
  (f.det.streams.find? (fun s => s.1 == i)).elim 0 (fun s => s.2.1.length)

/-- Tokens per frame that the source of a template ships, over all replicas (R67). -/
def Forme.shipped (f : Forme) (t : Tmpl) : Nat :=
  if t.srcPort = 0x80 then f.fePic t.src t.net
  else if t.srcPort = 0x82 then (f.tmpls.findIdx? (fun x => x == t)).elim 0 f.streamTokens
  else f.portTokens t.src t.srcUnit t.srcPort

/-- First row and rows of band `j` of a stage with `r` replicas; a stage that is not split has one band of no rows. -/
def Stage.band (s : Stage) (r j : Nat) : Nat × Nat :=
  if s.split = 0 then (0, 0)
  else
    let b := ceilDiv s.split r
    (j * b, min b (s.split - j * b))

/-- Replicas whose band is not empty. -/
def Stage.live (s : Stage) (r : Nat) : Nat := if s.split = 0 then 1 else ceilDiv s.split (ceilDiv s.split r)

/-- Rows of the source of a template, 0 where its output is one band (R17). -/
def Forme.srcRows (f : Forme) (t : Tmpl) : Nat :=
  if t.srcPort = 0x80 then (f.desc t.src).outH else if t.srcPort = 0x82 then 0 else (f.stage t.src).split

/-- Tokens per frame that a head stage takes (R424). -/
def Forme.headNeed (f : Forme) (s net : Nat) : Nat :=
  let d := f.desc s
  ceilDiv (ceilDiv (d.inW * d.inH * d.cin * elemBits d.xfmt) 8) (if net = 1 then 4 else 64)

/-- Tokens per frame that cut `c` carries (09 R204). -/
def Cut.tokens (c : Cut) : Nat := c.rows * c.rowBytes / 64

/-- Cut `i` of the plan. -/
def Forme.cut (f : Forme) (i : Nat) : Cut := f.cuts.getD i ⟨0, 0, 0, 0, 0, 0, 0⟩

/-- The input rows that a band of a stage takes of a producer of `hin` rows: its input band widened by MARGIN_ROWS and clipped (R17,
08 R182); none where it takes every row. -/
def Stage.inputRows (st : Stage) (row0 rows hin : Nat) : Option (Nat × Nat) :=
  if st.kind ≠ 0 ∨ st.split = 0 ∨ hin = 0 then none
  else some (row0 * hin / st.split - st.margin, min hin (ceilDiv ((row0 + rows) * hin) st.split + st.margin))

/-- Rows that a band of the consumer of a refill entry reads of each frame slot (09 R209). -/
def Forme.refillRows (f : Forme) (r : Refill) (row0 rows : Nat) : Nat :=
  let n := (f.cut r.cut).rows
  if r.all then n else ((f.stage r.dst).inputRows row0 rows n).elim n (fun x => x.2 - x.1)

/-- Tokens of a template's source that a band of its consumer takes. -/
def Forme.bandShare (f : Forme) (t : Tmpl) (row0 rows : Nat) : Nat :=
  if t.all then f.shipped t
  else ((f.stage t.dst).inputRows row0 rows (f.srcRows t)).elim (f.shipped t) (fun x =>
    (x.2 - x.1) * (f.shipped t / f.srcRows t))

/-- An input port that a refill stream feeds takes, on every replica of every count, the tokens that reach it: at step 6, where no
count is chosen yet (log entry 15). -/
def Forme.refillTakes (f : Forme) (g : GalleyEnt) (into : List Tmpl) (refill : List Refill) : Bool :=
  let st := f.stage g.stage
  (List.range st.rmax).all (fun q => (List.range (st.live (q + 1))).all (fun j =>
    let b := if st.split = 0 then (0, 0) else st.band (q + 1) j
    f.bandTokens g.stage g.unit g.port b.1 b.2 == listSum (into.map (fun t => f.bandShare t b.1 b.2)) +
      listSum (refill.map (fun r => f.refillRows r b.1 b.2 * ((f.cut r.cut).rowBytes / 64)))))

/-- The rates of an impression's galleys: what an input port's FIREs take equals what its producers ship, an output port that nothing
takes from ships nothing, every steering unit's inputs agree, every head stage gets its count, cuts ship their maps, and T
divides into rows. -/
def Forme.ratesOk (f : Forme) (imp : Nat) : Bool :=
  let ts := f.tmpls.filter (fun t => (f.stage t.dst).imp == imp)
  let plain := ts.filter (fun t => !(t.steered && t.input != 0))
  let gs := f.det.galleys.filter (fun g => (f.stage g.stage).imp == imp)
  gs.all (fun g =>
    if g.port < 8 then
      let into := plain.filter (fun t => t.dst == g.stage && t.dstUnit == g.unit && t.dstPort == g.port)
      let refill := f.refills.filter (fun r => r.dst == g.stage && r.dstUnit == g.unit && r.dstPort == g.port)
      if refill.isEmpty then listSum (into.map f.shipped) == f.portTokens g.stage g.unit g.port
      else f.refillTakes g into refill
    else
      ts.any (fun t => t.src == g.stage && t.srcUnit == g.unit && t.srcPort == g.port) ||
      f.cuts.any (fun c => c.srcStage == g.stage && c.srcUnit == g.unit && c.srcPort == g.port) ||
      f.portTokens g.stage g.unit g.port == 0) &&
  ts.all (fun t =>
    (f.srcRows t == 0 || f.shipped t % f.srcRows t == 0) &&
    (!t.steered || ts.all (fun u => !(u.steered && u.dst == t.dst && u.dstUnit == t.dstUnit && u.unitIdx == t.unitIdx) ||
      f.shipped u == f.shipped t))) &&
  (f.stages.filter (fun s => s.kind == 2 && s.imp == imp)).all (fun s =>
    let into := plain.filter (fun t => t.dst == s.id)
    let refill := f.refills.filter (fun r => r.dst == s.id)
    listSum (into.map f.shipped) + listSum (refill.map (fun r => (f.cut r.cut).tokens)) ==
      f.headNeed s.id ((into.map (·.net)).headD 0)) &&
  (f.cuts.filter (fun c => (f.stage c.srcStage).imp == imp)).all (fun c =>
    c.tokens == f.portTokens c.srcStage c.srcUnit c.srcPort)

/-! ## Replica counts (R21, Table 1-6) -/

/-- Watts per tile of a power class, in units of 0.05 W. -/
def powerClass (c : Nat) : Nat := [2, 4, 6, 8, 10, 12, 15, 18].getD c 0

/-- Tiles that replica counts take. -/
def tilesOf (l : List (Stage × Nat)) : Nat := listSum (l.map (fun x => x.1.width * x.2))

/-- Power that replica counts take. -/
def powerOf (l : List (Stage × Nat)) : Nat := listSum (l.map (fun x => x.1.width * x.2 * powerClass x.1.cls))

/-- The smallest replica count above `r` that brings the load below `b`. -/
def lowerR (s : Stage) (r b : Nat) : Option Nat :=
  ((List.range (s.rmax + 1)).filter (fun q => decide (r < q))).find? (fun q => decide (s.load q < b))

/-- Phase 1: the bottleneck lowered as long as tiles and power allow. -/
def phase1 (u a : Nat) : Nat → List (Stage × Nat) → List (Stage × Nat)
  | 0, l => l
  | fuel + 1, l =>
    let b := listMax (l.map (fun x => x.1.load x.2))
    let next := l.map (fun x => if x.1.load x.2 = b then (lowerR x.1 x.2 b).map (fun q => (x.1, q)) else some x)
    if next.any (·.isNone) then l
    else
      let trial := next.filterMap id
      if u < tilesOf trial ∨ a < powerOf trial then l else phase1 u a fuel trial

/-- The stage that phase 2 gives its next replica: the largest load among those that gain, ties to the lowest STAGE_ID. -/
def phase2Pick (u a : Nat) (l : List (Stage × Nat)) : Option Nat :=
  let c := l.filter (fun x => decide (x.2 < x.1.rmax) && decide (x.1.load (x.2 + 1) < x.1.load x.2) &&
    decide (tilesOf l + x.1.width ≤ u) && decide (powerOf l + x.1.width * powerClass x.1.cls ≤ a))
  let m := listMax (c.map (fun x => x.1.load x.2))
  (c.find? (fun x => x.1.load x.2 == m)).map (fun x => x.1.id)

/-- Phase 2: the remaining tiles spent. -/
def phase2 (u a : Nat) : Nat → List (Stage × Nat) → List (Stage × Nat)
  | 0, l => l
  | fuel + 1, l =>
    match phase2Pick u a l with
    | some i => phase2 u a fuel (l.map (fun x => if x.1.id = i then (x.1, x.2 + 1) else x))
    | none => l

/-- Replica counts of an impression with `u` tiles and power `a`; none refuses LOAD_POWER. -/
def Forme.replicas (f : Forme) (imp u a : Nat) : Option (List (Stage × Nat)) :=
  let l := (f.tileStages imp).map (fun s => (s, 1))
  if a < powerOf l then none else some (phase2 u a 105 (phase1 u a 105 l))

/-! ## Bands and placement (R17, R23) -/

/-- Physical tiles in serpentine order. -/
def serpentine : List Nat :=
  (List.range 8).flatMap (fun row => (List.range 13).map (fun c => row * 13 + (if row % 2 = 0 then c else 12 - c)))

/-- The placed tiles of an impression: stage, replica, unit order on the given tiles. -/
def placeOn (imp : Nat) (counts : List (Stage × Nat)) (tiles : List Nat) : List Placed :=
  let l := counts.flatMap (fun x => (List.range (x.1.live x.2)).flatMap (fun j => (List.range x.1.width).map (fun u =>
    let b := x.1.band x.2 j
    (⟨imp, x.1.id, j, u, b.1, b.2, 0⟩ : Placed))))
  (l.zip tiles).map (fun x => { x.1 with phys := x.2 })

/-- The physical tile of a unit of a replica. -/
def physOf (l : List Placed) (s j u : Nat) : Option Nat :=
  (l.find? (fun p => p.stage == s && p.rep == j && p.unit == u)).map (·.phys)

/-- Replicas of a stage that were placed. -/
def repsOf (l : List Placed) (s : Nat) : Nat := (l.filter (fun p => p.stage == s && p.unit == 0)).length

/-! ## Route expansion (R17, R127, 08 R182, 09 R209) -/

/-- The input rows of a consumer replica on a producer of `hin` rows; none where it takes every row. -/
def Forme.inputRows (f : Forme) (l : List Placed) (s k hin : Nat) : Option (Nat × Nat) :=
  (l.find? (fun p => p.stage == s && p.rep == k)).bind (fun p => (f.stage s).inputRows p.row0 p.rows hin)

/-- The rows of a producer replica; none where its output is one band. -/
def Forme.bandRows (f : Forme) (l : List Placed) (t : Tmpl) (j : Nat) : Option (Nat × Nat) :=
  let r := f.srcRows t
  if r = 0 then none
  else if t.srcPort = 0x80 then some (0, r)
  else (l.find? (fun p => p.stage == t.src && p.rep == j)).map (fun p => (p.row0, p.row0 + p.rows))

/-- Whether the route of producer replica `j` reaches consumer replica `k` (R17, R127). -/
def Forme.joins (f : Forme) (l : List Placed) (t : Tmpl) (j k : Nat) : Bool :=
  if t.all then true
  else
    match f.bandRows l t j, f.inputRows l t.dst k (f.srcRows t) with
    | some b, some c => decide (b.1 < c.2) && decide (c.1 < b.2)
    | _, _ => true

/-- One leg of a route: template or refill entry, producer replica, consumer replica. -/
structure Leg where
  refill : Bool
  tmpl : Nat
  j : Nat
  k : Nat
deriving DecidableEq, Repr

/-- Replicas on the producing side of a template. -/
def Tmpl.srcReps (t : Tmpl) (l : List Placed) : Nat := if 12 ≤ t.srcPort then 1 else repsOf l t.src

/-- The legs of an impression's templates, in ROUTES order, then producer replica, then consumer replica. -/
def Forme.legs (f : Forme) (imp : Nat) (l : List Placed) : List Leg :=
  (List.range f.tmpls.length).flatMap (fun i =>
    match f.tmpls[i]? with
    | some t =>
      if (f.stage t.dst).imp ≠ imp then []
      else (List.range (t.srcReps l)).flatMap (fun j =>
        if t.dstPort = 0x81 then [⟨false, i, j, 0⟩]
        else ((List.range (repsOf l t.dst)).filter (f.joins l t j)).map (fun k => ⟨false, i, j, k⟩))
    | none => [])

/-- A template of a leg. -/
def Forme.tmpl (f : Forme) (i : Nat) : Tmpl := f.tmpls.getD i ⟨0, 0, 0, 0, 0, 0, 0, 0, 0, 0⟩

/-- The port of a placed replica that feeds are numbered on: stage, unit, port, replica. -/
abbrev PortKey := Nat × Nat × Nat × Nat

/-- What feeds a port, in feed order: template and producer replica, steering unit (its index), or refill stream. -/
inductive Feed where
  | tmpl (i j : Nat)
  | steer (u : Nat)
  | refill (i : Nat)
deriving DecidableEq, Repr

/-- The feeds of an impression's input ports, in order. -/
def Forme.feeds (f : Forme) (legs : List Leg) (streams : List CutStream) (refillOf : Nat → Option (Refill × Nat)) :
    List (PortKey × Feed) :=
  (legs.filterMap (fun e =>
    let t := f.tmpl e.tmpl
    if t.dstPort = 0x81 then none
    else some ((t.dst, t.dstUnit, t.dstPort, e.k), if t.steered then Feed.steer t.unitIdx else Feed.tmpl e.tmpl e.j))).eraseDups ++
  ((List.range streams.length).filterMap (fun i => (refillOf i).bind (fun r =>
    if r.1.dstPort = 0x81 then none else some ((r.1.dst, r.1.dstUnit, r.1.dstPort, r.2), Feed.refill i))))

/-- The feed number of a feed. -/
def feedNo (l : List (PortKey × Feed)) (k : PortKey) (x : Feed) : Nat :=
  (indexOf? (fun e => e == x) ((l.filter (fun e => e.1 == k)).map (·.2))).getD 0

/-- The window of a feed: units skipped, units passed, or every unit (R127). -/
def Forme.window (f : Forme) (l : List Placed) (t : Tmpl) (j k count : Nat) : Option (Nat × Nat) :=
  if t.all then none
  else
    match f.bandRows l t j, f.inputRows l t.dst k (f.srcRows t) with
    | some b, some c =>
      let tpr := f.shipped t / f.srcRows t
      let lo := max b.1 c.1
      let hi := min b.2 c.2
      let first := (lo - b.1) * tpr / max 1 count
      let last := ceilDiv ((hi - b.1) * tpr) (max 1 count)
      some (first, last - first)
    | _, _ => none

/-! ## Lanes (R122, R123, R128, Tables 5-1 to 5-4) -/

/-- Row and column of a tile (R6). -/
def rowOf (t : Nat) : Nat := t / 13
/-- Column of a tile. -/
def colOf (t : Nat) : Nat := t % 13

/-- The switch that lies in direction `d` of switch `sw`. -/
def neighbour (sw d : Nat) : Nat :=
  match d with
  | 0 => sw - 13
  | 1 => sw + 1
  | 2 => sw + 13
  | 3 => sw - 1
  | 4 => sw - 52
  | 5 => sw + 4
  | 6 => sw + 52
  | _ => sw - 4

/-- The direction from which a segment that left in direction `d` arrives. -/
def arriveFrom (d : Nat) : Nat := [2, 3, 0, 1, 6, 7, 4, 5].getD d 0

/-- Lanes of a network (0 vector, 1 scalar, 2 control) on a link (Table 5-1). -/
def lanesOf (net d : Nat) : Nat := if net = 2 then (if d < 4 then 2 else 1) else if d < 4 then 4 else 2

/-- Index of lane 0 of the segments leaving in direction `d` (Table 5-2). -/
def segBase (net d : Nat) : Nat := [0, 80, 160].getD net 0 + 4 * d

/-- The directions of one axis: long links first, then short ones. -/
def axis (from' to' pos neg : Nat) : List Nat :=
  let n := if from' ≤ to' then to' - from' else from' - to'
  let d := if from' ≤ to' then pos else neg
  List.replicate (n / 4) (d + 4) ++ List.replicate (n % 4) d

/-- The directions from one switch to another, columns first or rows first. -/
def pathDirs (a b : Nat) (rowsFirst : Bool) : List Nat :=
  let c := axis (colOf a) (colOf b) 1 3
  let r := axis (rowOf a) (rowOf b) 2 0
  if rowsFirst then r ++ c else c ++ r

/-- Lanes taken so far: the switch words, and who holds each segment of this forme (a bridge's lane into the array has the
key of its switch with direction 8 or 9). -/
structure LaneUse where
  words : Table Word
  mine : List (Nat × Nat)
deriving DecidableEq, Repr

/-- A segment word (Table 5-3). -/
def segWord (slot src lane kind : Nat) : Word := BitVec.ofNat 32 (2 ^ 31 + src * 2 ^ 27 + lane * 2 ^ 24 + slot * 2 ^ 20 + kind)

/-- The word at a key set. -/
def LaneUse.put (x : LaneUse) (key : Nat) (w : Word) : LaneUse := { x with words := tput (fun _ => 0) x.words key w }

/-- Key of a segment. -/
def segKey (net sw d l : Nat) : Nat := sw * 256 + segBase net d + l

/-- The lane that a route holds on a link, or the lowest free one. -/
def LaneUse.pick (x : LaneUse) (owner net sw d : Nat) : Option (Nat × Bool) :=
  let ls := List.range (lanesOf net d)
  match ls.find? (fun l => x.mine.contains (segKey net sw d l, owner)) with
  | some l => some (l, true)
  | none => (ls.find? (fun l => tget (fun _ => 0) x.words (segKey net sw d l) == 0)).map (fun l => (l, false))

/-- The lane of a bridge into the array that a route takes: one that no word of the bridge's switch names, or its own. -/
def LaneUse.bridge (x : LaneUse) (owner net sw : Nat) (east : Bool) : Option (Nat × LaneUse) :=
  let src := if east then 2 else 4
  let lo := [0, 80, 160].getD net 0
  let key := fun l => 0x10000 + (sw * 3 + net) * 8 + l + (if east then 4 else 0)
  let used := fun l => (List.range 72).any (fun i =>
    let w := (tget (fun _ => 0) x.words (sw * 256 + lo + i)).toNat
    decide (lo + i < [80, 160, 208].getD net 0) && bit w 31 && bits w 27 4 == src && bits w 24 3 == l)
  let ls := List.range (lanesOf net 0)
  match ls.find? (fun l => x.mine.contains (key l, owner)) with
  | some l => some (l, x)
  | none => (ls.find? (fun l => !used l && x.mine.all (fun e => e.1 != key l))).map (fun l =>
      (l, { x with mine := x.mine ++ [(key l, owner)] }))

/-- A path walked from a switch: each segment gets its lane and word; the last switch, source code and lane there. -/
def LaneUse.walk (x : LaneUse) (slot owner net sw src lane : Nat) : List Nat → Option (LaneUse × Nat × Nat × Nat)
  | [] => some (x, sw, src, lane)
  | d :: ds =>
    match x.pick owner net sw d with
    | none => none
    | some (l, held) =>
      let key := segKey net sw d l
      let x := if held then x else { x.put key (segWord slot src lane 0) with mine := x.mine ++ [(key, owner)] }
      x.walk slot owner net (neighbour sw d) (1 + arriveFrom d) l ds

/-- The switches of a path, from its first one on. -/
def pathVia (sw : Nat) : List Nat → List Nat
  | [] => [sw]
  | d :: ds => sw :: pathVia (neighbour sw d) ds

/-- Where a route's end meets the array: a tile, or the bridge of the other end's row (R128). -/
inductive EndPt where
  | tile (t : Nat)
  | bridge
deriving DecidableEq, Repr

/-- The switch at which the bridge for tile `t` ends, and whether it is the eastern one. -/
def bridgeOf (t : Nat) : Nat × Bool := if colOf t ≤ 6 then (rowOf t * 13, false) else (rowOf t * 13 + 12, true)

/-- One destination of a route given its lanes: the lanes after it, the index word's source at the destination, short links,
long links, and the switches passed. `srcLane` is the output port. -/
def LaneUse.leg (x : LaneUse) (slot owner net : Nat) (a b : EndPt) (srcCode srcLane : Nat) :
    Option (LaneUse × Nat × Nat × Nat × Nat × List Nat) :=
  let count := fun (l : List Nat) => ((l.filter (fun d => decide (d < 4))).length, (l.filter (fun d => decide (4 ≤ d))).length)
  let go := fun (x : LaneUse) (s0 s1 src lane : Nat) (more : List Nat) (extra : Nat) =>
    let try' := fun rf =>
      let p := pathDirs s0 s1 rf ++ more
      (x.walk slot owner net s0 src lane p).map (fun r =>
        (r.1, r.2.2.1, r.2.2.2, (count p).1 + extra, (count p).2, pathVia s0 (pathDirs s0 s1 rf)))
    match try' false with
    | some r => some r
    | none => try' true
  match a, b with
  | .tile s, .tile t => go x s t srcCode srcLane [] 0
  | .bridge, .tile t =>
    let br := bridgeOf t
    match x.bridge owner net br.1 br.2 with
    | some (l, x) => go x br.1 t (if br.2 then 2 else 4) l [] 1
    | none => none
  | .tile s, .bridge =>
    let br := bridgeOf s
    go x s br.1 srcCode srcLane [if br.2 then 1 else 3] 0
  | .bridge, .bridge => some (x, 0, 0, 2, 0, [])

/-! ## The configuration check (R125) -/

/-- Whether a switch has a link in direction `d`; the row ends have a bridge there. -/
def linkExists (sw d : Nat) : Bool :=
  match d with
  | 0 => decide (13 ≤ sw)
  | 2 => decide (sw < 91)
  | 4 => decide (52 ≤ sw)
  | 5 => decide (colOf sw < 9)
  | 6 => decide (sw < 52)
  | 7 => decide (4 ≤ colOf sw)
  | _ => true

/-- Whether a link in direction `d` ends at another switch, and not at a bridge. -/
def linkInside (sw d : Nat) : Bool := !((d == 3 && colOf sw == 0) || (d == 1 && colOf sw == 12))

/-- What Table 5-2 says of a word's place: its network, and the direction that its segment leaves in, 8 for none; none where the
place holds no segment word. -/
def segPlace (i : Nat) : Option (Nat × Nat) :=
  let out := fun (net lo : Nat) => if (i - lo) % 4 < lanesOf net ((i - lo) / 4) then some (net, (i - lo) / 4) else none
  if i < 32 then out 0 0
  else if i < 72 then some (0, 8)
  else if i < 80 then none
  else if i < 112 then out 1 80
  else if i < 144 then some (1, 8)
  else if i < 160 then none
  else if i < 192 then out 2 160
  else if i < 202 then some (2, 8)
  else none

/-- KIND_BITS that Table 5-4 allows at a place. -/
def kindOk (i kind : Nat) : Bool :=
  if i = 64 ∨ i = 68 then bits kind 16 4 == 0 && bits kind 10 2 == 0 && bits kind 4 4 == 0 && bits kind 8 2 != 0
  else if 192 ≤ i ∧ i < 200 then decide (kind < 256)
  else kind == 0

/-- Whether a segment word may stand at a key (R125); a control word from a steering unit is the model's own (log entry 69). -/
def segmentOk (words : Table Word) (key : Nat) (w : Word) : Bool :=
  let v := w.toNat
  let sw := key / 256
  let src := bits v 27 4
  let lane := bits v 24 3
  match segPlace (key % 256) with
  | none => false
  | some (net, d) =>
    if !bit v 31 then v == 0
    else
      let source := if src = 0 ∨ 12 ≤ src then false
        else if src ≤ 8 then
          let up := tget (fun _ => 0) words (segKey net (neighbour sw (src - 1)) (arriveFrom (src - 1)) lane)
          decide (lane < lanesOf net (src - 1)) && linkExists sw (src - 1) && src - 1 != d &&
          (!linkInside sw (src - 1) || up == 0 || bits up.toNat 20 3 == bits v 20 3)
        else if src = 9 then decide (lane < if net = 2 then 1 else 4)
        else lane == 0 && net != 1
      source && bits v 23 1 == 0 && kindOk (key % 256) (bits v 0 20)

/-- Whether every segment word that a slot has in a table may stand there. -/
def segmentsOk (words : Table Word) (slot : Nat) : Bool :=
  words.all (fun e => decide (208 ≤ e.1 % 256) || bits e.2.toNat 20 3 != slot || segmentOk words e.1 e.2)

/-! ## The placed pipeline of one impression -/

/-- A route that starts at no tile meets the array at a bridge. -/
def Src.meets : Src → EndPt
  | .port t _ => .tile t
  | .steer sw _ => .tile sw
  | _ => .bridge

/-- Where a destination meets the array. -/
def Dst.meets : Dst → EndPt
  | .port t _ _ => .tile t
  | .steer sw _ _ => .tile sw
  | _ => .bridge

/-- Source code and lane of a source at its own switch (Table 5-4). -/
def Src.code : Src → Nat × Nat
  | .port _ p => if p < 12 then (9, p - 8) else (9, 0)
  | .steer _ k => (10 + k, 0)
  | _ => (0, 0)

/-- The destination words of a data receiver: the segment into the port or steering unit, and the feed's window. -/
def LaneUse.endWords (x : LaneUse) (slot net src lane : Nat) (v : Recv) (kind : Nat) : LaneUse :=
  match v.dst with
  | .port t p f =>
    let x := x.put (t * 256 + (if net = 1 then 112 else 32) + 4 * p + f) (segWord slot src lane 0)
    x.put (t * 256 + 208 + 4 * p + f) (BitVec.ofNat 32 (if v.all then 0xFFFF0000 else (v.take - 1) * 65536 + v.skip))
  | .steer sw k j => x.put (sw * 256 + 64 + 4 * k + j) (segWord slot src lane kind)
  | _ => x

/-- Every receiver of a data route given its lanes; the route with the links of its branch of most steps by `cost` (10 R226). -/
def LaneUse.route (x : LaneUse) (slot owner : Nat) (cost : Nat → Nat → Nat) (kindOf : Recv → Nat) (r : Route) : Option (LaneUse × Route) :=
  let net := b2n r.scalar
  let c := r.src.code
  r.recvs.foldl (fun (acc : Option (LaneUse × Route)) v =>
    match acc with
    | none => none
    | some (x, r) =>
      match x.leg slot owner net r.src.meets v.dst.meets c.1 c.2 with
      | none => none
      | some (x, src, lane, ns, nl, via) =>
        let r := { r with via := (r.via ++ via).eraseDups }
        let longer := decide (cost r.links r.longs ≤ cost ns nl)
        some (x.endWords slot net src lane v (kindOf v),
          if longer then { r with links := ns, longs := nl } else r)) (some (x, r))

/-- S_forme(k). -/
def Forme.s (f : Forme) (k : Nat) : Nat := f.assumed.getD k 0

/-- Steps of the links of a branch (10 R226). -/
def Forme.linkSteps (f : Forme) (short long : Nat) : Nat := short * f.s 7 + long * f.s 8 + (short + long) * f.s 11

/-- Routes given their lanes one after another. -/
def LaneUse.routes (x : LaneUse) (slot : Nat) (cost : Nat → Nat → Nat) (kindOf : Recv → Nat) : Nat → List Route → Option (LaneUse × List Route)
  | _, [] => some (x, [])
  | n, r :: rs =>
    match x.route slot n cost kindOf r with
    | none => none
    | some (x, r) => (x.routes slot cost kindOf (n + 1) rs).map (fun q => (q.1, r :: q.2))

/-- The node that a control route reaches. -/
def nodeMeets : Node → EndPt
  | .tile t => .tile t
  | .steer sw _ => .tile sw
  | _ => .bridge

/-- One control route given its lanes, with the switches it passes; control routes of one source share lanes. The control output of
a steering unit (R136) is written as source 10 or 11, which Table 5-4 gives to vector segments only: the model's choice (log entry
69). -/
def LaneUse.control (x : LaneUse) (slot owner : Nat) (r : CtlRoute) : Option (LaneUse × CtlRoute) :=
  let src := match r.src with
    | .port _ _ => (9, 0)
    | .steer _ k => (10 + k, 0)
    | _ => (0, 0)
  (x.leg slot owner 2 r.src.meets (nodeMeets r.dst) src.1 src.2).map (fun q =>
    (match r.dst with
      | .tile t => q.1.put (t * 256 + 192 + r.k) (segWord slot q.2.1 q.2.2.1 r.mask)
      | .steer sw k => q.1.put (sw * 256 + 200 + k) (segWord slot q.2.1 q.2.2.1 0)
      | _ => q.1, { r with via := q.2.2.2.2.2 }))

/-- The unit whose control output a source is. -/
def Src.ctl : Src → Src
  | .port t _ => .port t 12
  | x => x

/-- The control node of a data destination. -/
def Dst.node : Dst → Option Node
  | .port t _ _ => some (.tile t)
  | .steer sw k j => if j = 0 then some (.steer sw k) else none
  | .feOut _ _ => some .fe
  | .spill s i => some (.spill s i)

/-- The port bit of a data destination for PORT_MASK. -/
def Dst.maskBit : Dst → Nat
  | .port _ p _ => 2 ^ p
  | _ => 0

/-- The control routes that join an impression's data routes (R127): one per source unit and destination, inputs numbered in the
order in which their sources appear; inputs of the output engine are numbered from `feBase`. -/
def ctlOf (slot imp feBase : Nat) (routes : List Route) : List CtlRoute :=
  routes.foldl (fun (acc : List CtlRoute) r =>
    if r.back then acc
    else r.recvs.foldl (fun (acc : List CtlRoute) v =>
      match v.dst.node with
      | none => acc
      | some d =>
        let src := r.src.ctl
        if acc.any (fun c => c.src == src && c.dst == d) then
          acc.map (fun c => if c.src = src ∧ c.dst = d then { c with mask := c.mask ||| v.dst.maskBit } else c)
        else
          let n := (acc.filter (fun c => c.dst == d)).length
          acc ++ [{ slot := slot, imp := imp, src := src, dst := d, k := if d = .fe then feBase + n else n, mask := v.dst.maskBit }]) acc) []

/-- What the expansion of an impression's routes takes from the load. -/
structure PipeIn where
  slot : Nat
  imp : Nat
  placed : List Placed
  streams : List CutStream
  refillOf : Nat → Option (Refill × Nat)
  engineOf : Nat → Nat
  windows : Nat
  words : Table Word

/-- The source of a template's route from producer replica `j`. -/
def Forme.srcOf (f : Forme) (z : PipeIn) (i j : Nat) : Src :=
  let t := f.tmpl i
  if t.srcPort = 0x80 then .feIn z.slot
  else if t.srcPort = 0x82 then .eng (z.engineOf i)
  else .port ((physOf z.placed t.src j t.srcUnit).getD 0) t.srcPort

/-- Tokens per frame that producer replica `j` of a template ships (R127). -/
def Forme.repShipped (f : Forme) (l : List Placed) (t : Tmpl) (j : Nat) : Nat :=
  match f.bandRows l t j with
  | some b => (b.2 - b.1) * (f.shipped t / f.srcRows t)
  | none => f.shipped t

/-- The steering units of an impression: consumer port of a replica, unit index, switch and number there, inputs, block and blocks
of a frame. -/
def Forme.units (f : Forme) (z : PipeIn) (legs : List Leg) : List (PortKey × Steerer) :=
  ((legs.filter (fun e => (f.tmpl e.tmpl).steered)).foldl (fun (acc : List (PortKey × Steerer)) e =>
    let t := f.tmpl e.tmpl
    let key : PortKey := (t.dst, t.dstUnit, t.dstPort, e.k)
    if acc.any (fun x => x.1 == key && x.2.unit == t.unitIdx) then acc
    else
      let sw := (physOf z.placed t.dst e.k t.dstUnit).getD 0
      let zero := (f.tmpls.find? (fun u => u.steered && u.dst == t.dst && u.dstUnit == t.dstUnit && u.dstPort == t.dstPort &&
        u.unitIdx == t.unitIdx && u.input == 0)).getD t
      acc ++ [(key, { sw := sw, k := (acc.filter (fun x => x.2.sw == sw)).length, slot := z.slot, unit := t.unitIdx
                      inputs := zero.inputs, block := zero.block, imp := z.imp
                      blocks := f.repShipped z.placed t e.j / max 1 zero.block })]) [])

/-- A receiver at an input port: the credits of its galley for feed 0 (R129), and its window. -/
def Forme.portRecv (f : Forme) (z : PipeIn) (feeds : List (PortKey × Feed)) (key : PortKey) (x : Feed) (w : Option (Nat × Nat)) :
    Recv :=
  let t := (physOf z.placed key.1 key.2.2.2 key.2.1).getD 0
  let n := feedNo feeds key x
  let cap := (f.galley key.1 key.2.1 key.2.2.1).elim 0 (fun g => g.capKib * 1024 / g.size)
  { dst := .port t key.2.2.1 n, credits := if n = 0 then cap else 0
    skip := (w.map (·.1)).getD 0, take := (w.map (·.2)).getD 0, all := w.isNone }

/-- A receive window of the output engine (R424): 64 credits, and for the engine's own use the tokens of a frame (`take`) and of a
pixel (`skip`) of a source that has `rows` of the `of'` rows of the input map. -/
def Forme.feRecv (f : Forme) (z : PipeIn) (stage tokens rows of' : Nat) : Recv :=
  let d := f.desc stage
  { dst := .feOut z.slot stage, credits := 64, take := tokens
    skip := max 1 (tokens / max 1 (d.inW * d.inH * rows / of')) }

/-- The receiver of one leg. -/
def Forme.legRecv (f : Forme) (z : PipeIn) (feeds : List (PortKey × Feed)) (units : List (PortKey × Steerer)) (e : Leg) : Recv :=
  let t := f.tmpl e.tmpl
  let key : PortKey := (t.dst, t.dstUnit, t.dstPort, e.k)
  if t.dstPort = 0x81 then f.feRecv z t.dst (f.repShipped z.placed t e.j)
    ((f.bandRows z.placed t e.j).elim 1 (fun b => b.2 - b.1)) (max 1 (f.srcRows t))
  else if t.steered then
    match units.find? (fun x => x.1 == key && x.2.unit == t.unitIdx) with
    | some x => { dst := .steer x.2.sw x.2.k t.input, credits := x.2.block }
    | none => { dst := .steer 0 0 0, credits := 0 }
  else
    let count := (f.galley t.dst t.dstUnit t.dstPort).elim 1 (·.count)
    f.portRecv z feeds key (.tmpl e.tmpl e.j) (f.window z.placed t e.j e.k count)

/-- The data routes of an impression: one per template and producer replica, then the outputs of steering units, spill routes
and refill routes (09 R208, R209). -/
def Forme.dataRoutes (f : Forme) (z : PipeIn) : List Route × List (PortKey × Steerer) :=
  let legs := f.legs z.imp z.placed
  let units := f.units z legs
  let feeds := f.feeds legs z.streams z.refillOf
  let heads := (legs.map (fun e => (e.tmpl, e.j))).eraseDups
  let plain := heads.map (fun h =>
    let t := f.tmpl h.1
    ({ slot := z.slot, imp := z.imp, src := f.srcOf z h.1 h.2, scalar := t.net == 1, back := t.back
       recvs := (legs.filter (fun e => e.tmpl == h.1 && e.j == h.2)).map (f.legRecv z feeds units) } : Route))
  let outs := units.map (fun x =>
    let zero := (legs.find? (fun e =>
      let t := f.tmpl e.tmpl
      t.steered && t.input == 0 && (t.dst, t.dstUnit, t.dstPort, e.k) == x.1 && t.unitIdx == x.2.unit))
    let count := (f.galley x.1.1 x.1.2.1 x.1.2.2.1).elim 1 (·.count)
    let w := zero.bind (fun e => f.window z.placed (f.tmpl e.tmpl) e.j e.k count)
    ({ slot := z.slot, imp := z.imp, src := .steer x.2.sw x.2.k, scalar := false
       recvs := [f.portRecv z feeds x.1 (.steer x.2.unit) w] } : Route))
  let cuts := (List.range z.streams.length).filterMap (fun i =>
    match z.streams[i]? with
    | none => none
    | some st =>
      if st.imp ≠ z.imp then none
      else if st.spill then
        some ({ slot := z.slot, imp := z.imp, src := .port st.tile st.port, scalar := false
                recvs := [{ dst := .spill z.slot i, credits := 64 }] } : Route)
      else (z.refillOf i).map (fun r =>
        { slot := z.slot, imp := z.imp, src := .refill z.slot i, scalar := false
          recvs := [if r.1.dstPort = 0x81 then f.feRecv z r.1.dst (f.cut st.cut).tokens 1 1
            else f.portRecv z feeds (r.1.dst, r.1.dstUnit, r.1.dstPort, r.2) (.refill i) none] }))
  (plain ++ outs ++ cuts, units)

/-- The limits of R127 and R424: feeds, windows, control inputs, steering units, receive windows free. -/
def pipeFits (z : PipeIn) (routes : List Route) (ctl : List CtlRoute) (units : List (PortKey × Steerer)) : Bool :=
  let recvs := routes.flatMap (·.recvs)
  recvs.all (fun v => (match v.dst with
    | .port _ _ f => decide (f < 4)
    | _ => true) && (v.all || (decide (v.skip < 65536) && decide (1 ≤ v.take) && decide (v.take ≤ 65536)))) &&
  (recvs.map (·.dst)).eraseDups.length == recvs.length &&
  ctl.all (fun c => match c.dst with
    | .tile _ => decide (c.k < 8)
    | _ => true) &&
  units.all (fun x => decide (x.2.k < 2) && decide (x.2.inputs ≤ 4)) &&
  decide ((recvs.filter (fun v => match v.dst with
    | .feOut _ _ => true
    | _ => false)).length ≤ z.windows)

/-- The pipeline of an impression with its lanes; none refuses LOAD_ROUTES. -/
def Forme.pipe (f : Forme) (z : PipeIn) : Option Pipe :=
  let d := f.dataRoutes z
  let ctl := ctlOf z.slot z.imp (z.slot * 1024) d.1
  if !pipeFits z d.1 ctl d.2 then none
  else
    let kindOf := fun (v : Recv) => match v.dst with
      | .steer sw k j => if j = 0 then (d.2.find? (fun x => x.2.sw == sw && x.2.k == k)).elim 0 (fun x =>
          x.2.unit * 4096 + (x.2.inputs - 1) * 256 + (x.2.block - 1)) else 0
      | _ => 0
    match (LaneUse.mk z.words []).routes z.slot f.linkSteps kindOf 0 d.1 with
    | none => none
    | some (x, rs) =>
      let n := rs.length
      let srcs := (ctl.map (·.src)).eraseDups
      let y := ctl.foldl (fun (acc : Option (LaneUse × List CtlRoute)) c =>
        acc.bind (fun x => (x.1.control z.slot (n + (indexOf? (fun s => s == c.src) srcs).getD 0) c).map (fun q =>
          (q.1, x.2 ++ [q.2])))) (some (x, []))
      (y.filter (fun x => segmentsOk x.1.words z.slot)).map (fun x => ⟨rs, x.2, d.2.map (·.2), x.1.words⟩)

/-! ## Galleys, cycles, reconvergence, packets (R24 to R27) -/

/-- cap_tok of a galley. -/
def galleyCap (g : GalleyEnt) : Nat := g.capKib * 1024 / g.size

/-- COUNT of the ports at the other end of a galley (R67), with a steering unit's block, 1 for the facing engines (R424) and the
declared figure for a stream engine. -/
def Forme.others (f : Forme) (g : GalleyEnt) : List Nat :=
  let blockOf := fun (t : Tmpl) => ((f.tmpls.find? (fun u => u.steered && u.dst == t.dst && u.dstUnit == t.dstUnit &&
    u.dstPort == t.dstPort && u.unitIdx == t.unitIdx && u.input == 0)).getD t).block
  if g.port < 8 then
    (f.tmpls.filter (fun t => t.dst == g.stage && t.dstUnit == g.unit && t.dstPort == g.port)).map (fun t =>
      if t.steered then blockOf t
      else if t.srcPort = 0x80 then 1
      else (f.galley t.src t.srcUnit t.srcPort).elim g.prod (·.count)) ++
    (f.refills.filter (fun r => r.dst == g.stage && r.dstUnit == g.unit && r.dstPort == g.port)).map (fun _ => g.prod)
  else
    (f.tmpls.filter (fun t => t.src == g.stage && t.srcUnit == g.unit && t.srcPort == g.port)).map (fun t =>
      if t.steered then blockOf t
      else if t.dstPort = 0x81 then 1
      else (f.galley t.dst t.dstUnit t.dstPort).elim g.cons (·.count)) ++
    (f.cuts.filter (fun c => c.srcStage == g.stage && c.srcUnit == g.unit && c.srcPort == g.port)).map (fun _ => g.cons)

/-- Step 9 (R24). -/
def Forme.galleySizesOk (f : Forme) (imp : Nat) : Bool :=
  let gs := f.det.galleys.filter (fun g => (f.stage g.stage).imp == imp)
  gs.all (fun g => decide (2 ≤ g.capKib) && decide (g.capKib ≤ 32) &&
    (f.others g).all (fun n => decide (g.count + n ≤ galleyCap g + Nat.gcd g.count n)) &&
    decide (listSum ((gs.filter (fun h => h.stage == g.stage && h.unit == g.unit)).map (·.capKib)) ≤ 64))

/-- A node of the placed pipeline: a replica of a stage, a steering unit, the stream that a stream engine or refill stream
sends, or a spill stream. -/
inductive GNode where
  | stage (s rep : Nat)
  | steer (sw k : Nat)
  | engine (e : Nat)
  | refill (i : Nat)
  | spill (i : Nat)
deriving DecidableEq, Repr

/-- A galley on an edge: cap_tok, the COUNT of the port that puts into it, of the one that takes from it, and its initial
tokens. -/
structure EdgeGal where
  cap : Nat
  p : Nat
  c : Nat
  init : Nat
deriving DecidableEq, Repr

/-- One leg of a placed route: its ends, its galleys, whether it has BACK, and the tokens per frame that its source ships on it and
that arrive at its end. -/
structure Edge where
  a : GNode
  b : GNode
  gals : List EdgeGal
  back : Bool
  ship : Nat
  arr : Nat
deriving DecidableEq, Repr

/-- Tokens per frame that a placed route's source ships. -/
def Forme.routeShips (f : Forme) (l : List Placed) (p : Pipe) (str : List CutStream) (weights : List (Nat × Nat)) (r : Route) : Nat :=
  match r.src with
  | .port t q => (l.find? (fun x => x.phys == t)).elim 0 (fun x =>
      let n := f.portTokens x.stage x.unit q
      let split := (f.stage x.stage).split
      if split = 0 then n else x.rows * (n / split))
  | .steer sw k => (p.steers.find? (fun u => u.sw == sw && u.k == k)).elim 0 (fun u => u.blocks * u.block)
  | .feIn _ => (f.stages.find? (fun s => s.kind == 1)).elim 0 (fun s => f.fePic s.id (b2n r.scalar))
  | .eng e => (weights.find? (fun w => w.2 == e)).elim 0 (fun w => f.streamTokens w.1)
  | .refill _ i => (str[i]?).elim 0 (fun c => c.rows * ((f.cut c.cut).rowBytes / 64))

/-- The legs of an impression's placed routes. -/
def Forme.edges (f : Forme) (l : List Placed) (p : Pipe) (str : List CutStream) (weights : List (Nat × Nat)) : List Edge :=
  let node := fun (t : Nat) => (l.find? (fun x => x.phys == t)).elim (GNode.engine 0) (fun x => GNode.stage x.stage x.rep)
  let gal := fun (t q : Nat) => (l.find? (fun x => x.phys == t)).bind (fun x => f.galley x.stage x.unit q)
  let block := fun (sw k : Nat) => (p.steers.find? (fun u => u.sw == sw && u.k == k)).elim 0 (·.block)
  p.routes.flatMap (fun r => r.recvs.map (fun v =>
    let ship := f.routeShips l p str weights r
    let put := match r.src with
      | .port t q => (gal t q).elim 0 (·.count)
      | .steer sw k => block sw k
      | .feIn _ => 1
      | _ => match v.dst with
        | .port t q _ => (gal t q).elim 0 (·.prod)
        | _ => 1
    let take := match v.dst with
      | .port t q _ => (gal t q).elim 0 (·.count)
      | .steer sw k _ => block sw k
      | .feOut _ _ => 1
      | .spill _ _ => match r.src with
        | .port t q => (gal t q).elim 0 (·.cons)
        | _ => 1
    let one := fun (g : Option GalleyEnt) => g.toList.map (fun g => EdgeGal.mk (galleyCap g) put take g.init)
    { a := match r.src with
        | .port t _ => node t
        | .steer sw k => .steer sw k
        | .feIn _ => .stage ((f.stages.find? (fun s => s.kind == 1)).elim 0 (·.id)) 0
        | .eng e => .engine e
        | .refill _ i => .refill i
      b := match v.dst with
        | .port t _ _ => node t
        | .steer sw k _ => .steer sw k
        | .feOut _ s => .stage s 0
        | .spill _ i => .spill i
      gals := (match r.src with
        | .port t q => one (gal t q)
        | _ => []) ++ (match v.dst with
        | .port t q _ => one (gal t q)
        | .feOut _ _ => [⟨64, put, 1, 0⟩]
        | _ => [])
      back := r.back
      ship := ship
      arr := if v.all then ship else min ship (v.take * take) }))

/-- The simple paths from node `a` to node `b` over edges that satisfy `ok`; `fuel` bounds their length and `seen` holds the nodes
behind. -/
def pathsTo (es : List Edge) (ok : Edge → Bool) (b : GNode) : Nat → List GNode → GNode → List (List Edge)
  | 0, _, _ => []
  | fuel + 1, seen, a =>
    es.flatMap (fun e =>
      if e.a ≠ a ∨ !ok e then []
      else if e.b = b then [[e]]
      else if seen.contains e.b then []
      else (pathsTo es ok b fuel (a :: seen) e.b).map (fun l => e :: l))

/-- The directed cycles of the placed pipeline, each once for every edge that it may be entered by. -/
def cyclesOf (es : List Edge) : List (List Edge) :=
  es.flatMap (fun e => if e.a = e.b then [[e]] else (pathsTo es (fun _ => true) e.a es.length [] e.b).map (fun l => e :: l))

/-- Step 10 (R25). -/
def loopsOk (es : List Edge) : Bool :=
  (cyclesOf es).all (fun l =>
    let gs := l.flatMap (·.gals)
    let init := listSum (gs.map (·.init))
    gs.all (fun g => g.p == g.c) && decide (1 ≤ init) &&
    decide (init + listMax (gs.map (·.p)) ≤ listSum (gs.map (·.cap))))

/-- D(X) of R26: over the interior stages of a path, ⌈d × q⌉ with q the tokens that arrive at the join for each token the stage
puts out along it. -/
def Forme.pathDepth (f : Forme) (l : List Edge) : Nat :=
  let last := (l.getLast?).elim 0 (·.arr)
  listSum ((l.drop 1).map (fun e => match e.a with
    | .stage s _ => ceilDiv ((f.stage s).depth * last) (max 1 e.ship)
    | _ => 0))

/-- Step 11 (R26): any two paths that leave the same stage and meet again at the same stage. -/
def Forme.reconvergenceOk (f : Forme) (es : List Edge) : Bool :=
  let stages := ((es.flatMap (fun e => [e.a, e.b])).filter (fun n => match n with
    | .stage _ _ => true
    | _ => false)).eraseDups
  stages.all (fun a => stages.all (fun b =>
    let ps := pathsTo es (fun e => !e.back) b es.length [] a
    ps.all (fun p => ps.all (fun q =>
      p == q || decide (f.pathDepth p < f.pathDepth q) ||
      decide (f.pathDepth p - f.pathDepth q + 2 ≤ listSum ((q.flatMap (·.gals)).map (·.cap)))))))

/-- Step 12 (R27). -/
def Forme.packetsOk (f : Forme) (imp : Nat) : Bool :=
  (f.det.galleys.filter (fun g => (f.stage g.stage).imp == imp)).all (fun g => decide (g.maxPkt ≤ g.capKib * 1024))

/-! ## Work and bounds (10 R225 to R228) -/

/-- Σ S_forme(k) × (F(k) + R(k) × rows) of a stage. -/
def Forme.x0 (f : Forme) (st rows : Nat) : Nat :=
  let c := f.counts.getD st ([], [])
  listSum ((List.range 16).map (fun k => f.s k * (c.1.getD k 0 + c.2.getD k 0 * rows)))

/-- The SLACK entry of a stage. -/
def Forme.slackOf (f : Forme) (st : Nat) : SlackEnt := (f.slack.find? (fun e => e.stage == st)).getD ⟨st, 0, 0, 0, 0⟩

/-- Rows of the widest band of a stage with `r` replicas. -/
def Stage.bandRows (s : Stage) (r : Nat) : Nat := if s.split = 0 then 0 else ceilDiv s.split r

/-- X of one replica of a tile stage (R225). -/
def Forme.work (f : Forme) (c : Stage × Nat) : Nat :=
  let e := f.slackOf c.1.id
  f.x0 c.1.id (c.1.bandRows c.2) + e.scrub + e.bridge

/-- h of a placed route (R226). -/
def Forme.hop (f : Forme) (r : Route) : Nat :=
  f.linkSteps r.links r.longs + f.s 9 + 7 * f.s 10

/-- Places of the placed graph: a tile, a steering unit, the input and the output side. -/
inductive Spot where
  | tile (t : Nat)
  | steer (sw k : Nat)
  | source
  | sink
deriving DecidableEq, Repr

/-- The place of a source. -/
def Src.place : Src → Option Spot
  | .port t _ => some (.tile t)
  | .steer sw k => some (.steer sw k)
  | .feIn _ => some .source
  | .refill _ _ => some .source
  | .eng _ => none

/-- The place of a destination. -/
def Dst.place : Dst → Spot
  | .port t _ _ => .tile t
  | .steer sw k _ => .steer sw k
  | _ => .sink

/-- The longest distance known at a place. -/
def distAt (d : List (Spot × Nat)) (p : Spot) : Option Nat := (d.find? (fun e => e.1 == p)).map (·.2)

/-- A distance raised to `v` where it is not that far. -/
def distMax (d : List (Spot × Nat)) (p : Spot) (v : Nat) : List (Spot × Nat) :=
  match distAt d p with
  | some w => if w < v then d.map (fun e => if e.1 = p then (p, v) else e) else d
  | none => d ++ [(p, v)]

/-- The longest paths from a place over BACK = 0 routes: each place adds its own `x`, each route its `h`. -/
def longest (routes : List Route) (x : Spot → Nat) (h : Route → Nat) (start : Spot) : List (Spot × Nat) :=
  let es := (routes.filter (fun r => !r.back)).flatMap (fun r => r.recvs.filterMap (fun v =>
    r.src.place.map (fun a => (a, v.dst.place, h r))))
  (List.range (es.length + 1)).foldl (fun d _ => es.foldl (fun d e =>
    match distAt d e.1 with
    | some w => distMax d e.2.1 (w + e.2.2 + x e.2.1)
    | none => d) d) [(start, x start)]

/-- The work of the stage on a tile. -/
def tileWork (l : List Placed) (counts : List (Stage × Nat)) (g : Stage × Nat → Nat) : Spot → Nat
  | .tile t => ((l.find? (fun p => p.phys == t)).bind (fun p => counts.find? (fun c => c.1.id == p.stage))).elim 0 g
  | _ => 0

/-- D of an impression in steps (R227). -/
def Forme.depthSteps (f : Forme) (l : List Placed) (counts : List (Stage × Nat)) (routes : List Route) : Nat :=
  (distAt (longest routes (tileWork l counts f.work) f.hop .source) .sink).getD 0

/-- H of an impression in ns (R227). -/
def Forme.depthNs (f : Forme) (l : List Placed) (counts : List (Stage × Nat)) (routes : List Route) : Nat :=
  (distAt (longest routes (tileWork l counts (fun c => (f.slackOf c.1.id).hbmNs)) (fun _ => 0) .source) .sink).getD 0

/-- P of an impression in steps (R227): the busiest stage, or the span of a recurrent loop with its loop route. -/
def Forme.period (f : Forme) (l : List Placed) (counts : List (Stage × Nat)) (routes : List Route) : Nat :=
  let x := tileWork l counts f.work
  let loops := (routes.filter (·.back)).flatMap (fun r => r.recvs.map (fun v =>
    match r.src.place with
    | some a => f.hop r + (distAt (longest routes x f.hop v.dst.place) a).getD 0
    | none => 0))
  max (listMax (counts.map f.work)) (listMax loops)

/-- T_in and T_out: the work of the stages of a kind. -/
def Forme.feSteps (f : Forme) (kind : Nat) : Nat :=
  listSum ((f.stages.filter (fun s => s.kind == kind)).map (fun s => f.x0 s.id 0))

/-- Steps in ns at the floor `fl` in M firings/s, rounded up (R219). -/
def stepNs (fl steps : Nat) : Nat := ceilDiv (steps * 1000) fl

/-- Bytes per frame that stream engines move between HBM and one replica of a stage (R228). -/
def Forme.hbmBytes (f : Forme) (c : Stage × Nat) : Nat :=
  let s := c.1
  let weight := listSum ((f.det.streams.filter (fun x => (f.tmpl x.1).dst == s.id)).map (fun x => x.2.2))
  let cuts := listMax ((List.range (s.live c.2)).map (fun j =>
    let b := s.band c.2 j
    listSum ((f.cuts.filter (fun x => x.srcStage == s.id)).map (fun x => (if s.split = 0 then 1 else b.2) * x.rowBytes)) +
    listSum ((f.refills.filter (fun r => r.dst == s.id)).map (fun r => f.refillRows r b.1 b.2 * (f.cut r.cut).rowBytes))))
  weight + cuts

/-- Step 14 for one impression (R228, Table 10-5). -/
def Forme.slackCovers (f : Forme) (counts : List (Stage × Nat)) : Bool :=
  counts.all (fun c =>
    let e := f.slackOf c.1.id
    let x := f.x0 c.1.id (c.1.bandRows c.2)
    let n := f.counts.getD c.1.id ([], [])
    let b := f.hbmBytes c
    let t := ceilDiv (b * 10) (224 * e.pch)
    decide (ceilDiv x 512 + ceilDiv x 4096 ≤ e.scrub) &&
    decide (ceilDiv (f.s 12 * (n.1.getD 12 0 + n.2.getD 12 0 * c.1.bandRows c.2)) 64 ≤ e.bridge) &&
    (b == 0 || (e.pch != 0 && decide (ceilDiv (t * 17) 16 ≤ e.hbmNs)))) &&
  decide (listSum (counts.map (fun c => (f.slackOf c.1.id).pch * c.2)) ≤ 32)

end Sys2Proof.Machine
end

