-- ==== Sys2Proof/Machine/Alloc.lean ====
section
/-! DEFINITION. What MC2 allocates (01 R28, R29; 11 R245, R425; 13 R305, R309; 15 R348, R351): commons granules, HBM pages,
region-map runs, quoins and access entries; and the release of a context's share (15 R350). -/
namespace Sys2Proof.Machine

/-! ## Places that are free -/

/-- The first `n` consecutive free numbers from `lo` to `hi - 1`. -/
def freeRun (free : Nat → Bool) (lo hi n : Nat) : Option Nat :=
  ((List.range (hi - lo + 1 - n)).map (· + lo)).find? (fun a => (List.range n).all (fun i => free (a + i)))

/-- A free run of commons granules (R245). -/
def State.freeGranules (s : State) (n : Nat) : Option Nat :=
  freeRun (fun g => !s.alloc.granules.contains g && !s.health.granules.contains g && !s.health.stopped.contains g) 0 512 n

/-- The lowest `n` free HBM pages; the self-test save area, the log mirror and retired frames are
never allocated (17 R399, 16 R380, 11 R271). -/
def State.freePages (s : State) (n : Nat) : Option (List Nat) :=
  let l := ((List.range 8128).filter (fun p => !s.alloc.pages.contains p && !s.health.frames.contains p)).take n
  if l.length = n then some l else none

/-- A free run of region-map entries: ones that hold 0. -/
def State.freeRegion (s : State) (n : Nat) : Option Nat :=
  freeRun (fun e => tget (fun _ => (0 : Word)) s.prot.region e == 0) 0 8192 n

/-- Region-map entries of pages from entry `region` on: P = 1, PIN = 1, SPLIT = 0 (01 R29, 13 R305). -/
def State.mapPages (s : State) (region : Nat) (pages : List Nat) : State :=
  { s with prot := { s.prot with region := (List.range pages.length).foldl (fun r i =>
      tput (fun _ => (0 : Word)) r (region + i) (BitVec.ofNat 32 (2 ^ 31 + 2 ^ 30 + pages.getD i 0))) s.prot.region } }

/-- A run of `n` region-map entries released. -/
def State.unmapPages (s : State) (region n : Nat) : State :=
  { s with prot := { s.prot with region := s.prot.region.filter (fun e =>
    !(decide (region ≤ e.1) && decide (e.1 < region + n))) } }

/-- A free run of quoins for a forme or a context (R348). -/
def State.freeQuoins (s : State) (n : Nat) : Option Nat :=
  if n = 0 then some 1024
  else
    let starts := 1024 :: s.alloc.quoins.map (fun q => q.1 + q.2)
    starts.find? (fun a => decide (a + n ≤ 129024) && s.alloc.quoins.all (fun q => decide (a + n ≤ q.1) || decide (q.1 + q.2 ≤ a)))

/-- Granules marked allocated. -/
def State.takeGranules (s : State) (g n : Nat) : State :=
  { s with alloc := { s.alloc with granules := s.alloc.granules ++ (List.range n).map (· + g) } }

/-- Granules freed. -/
def State.giveGranules (s : State) (g n : Nat) : State :=
  { s with alloc := { s.alloc with granules := s.alloc.granules.filter (fun x => !(decide (g ≤ x) && decide (x < g + n))) } }

/-- Pages marked allocated. -/
def State.takePages (s : State) (l : List Nat) : State := { s with alloc := { s.alloc with pages := s.alloc.pages ++ l } }

/-- Pages freed. -/
def State.givePages (s : State) (l : List Nat) : State :=
  { s with alloc := { s.alloc with pages := s.alloc.pages.filter (fun p => !l.contains p) } }

/-- A run of quoins marked allocated, each at count 0. -/
def State.takeQuoins (s : State) (q n : Nat) : State :=
  if n = 0 then s else { s with alloc := { s.alloc with quoins := s.alloc.quoins ++ [(q, n)] } }

/-- A run of quoins freed: counts return to 0. -/
def State.giveQuoins (s : State) (q n : Nat) : State :=
  let s := { s with alloc := { s.alloc with quoins := s.alloc.quoins.filter (fun e => e != (q, n)) } }
  { s with quoins := { s.quoins with
    count := s.quoins.count.filter (fun e => !(decide (q ≤ e.1) && decide (e.1 < q + n))) } }

/-! ## Access entries (R425, Table 11-10) -/

/-- An entry owned by a slot that grants `rights` (bit 2 R, bit 1 W) over bytes `lo` to `lo + n - 1`. -/
def ownedEnt (slot rights mlo mhi lo n : Nat) : AccEnt :=
  ⟨2 ^ 31 + rights * 2 ^ 28 + 2 ^ 19 + slot * 2 ^ 16 + mhi * 2 ^ 8 + mlo, lo / 64, (lo + n - 1) / 64⟩

/-- Entry `e` of a target's table set. -/
def State.setAcc (s : State) (target e : Nat) (x : AccEnt) : State :=
  { s with prot := { s.prot with access := tput (fun _ => {}) s.prot.access (target * 64 + e) x } }

/-- The free entries of a target's table: those with EN = 0. -/
def State.freeAcc (s : State) (target : Nat) : List Nat := (List.range 63).filter (fun e => !bit (s.accEntry target e).e0 31)

/-- Entries written one after another, each to the lowest free entry of its target. -/
def State.addAcc (s : State) (l : List (Nat × AccEnt)) : State :=
  l.foldl (fun (s : State) x => match s.freeAcc x.1 with
    | e :: _ => s.setAcc x.1 e x.2
    | [] => s) s

/-- Whether every target has a free entry for each of the entries. -/
def State.accFits (s : State) (l : List (Nat × AccEnt)) : Bool :=
  (l.map (·.1)).eraseDups.all (fun t => decide ((l.filter (fun x => x.1 == t)).length ≤ (s.freeAcc t).length))

/-- The entries that satisfy `p` cleared. -/
def State.dropAcc (s : State) (p : Nat → AccEnt → Bool) : State :=
  { s with prot := { s.prot with access := s.prot.access.filter (fun e => !p (e.1 / 64) e.2) } }

/-- Whether an entry is OWNED by a slot (R255). -/
def AccEnt.ownedBy (x : AccEnt) (k : Nat) : Bool := bit x.e0 31 && bit x.e0 19 && bits x.e0 16 3 == k

/-- Maximal runs of consecutive numbers of a rising list. -/
def runsOf (l : List Nat) : List (Nat × Nat) :=
  (l.foldl (fun (acc : List (Nat × Nat)) p => match acc with
    | (a, n) :: rest => if a + n = p then (a, n + 1) :: rest else (p, 1) :: acc
    | [] => [(p, 1)]) []).reverse

/-- Numbers put in rising order. -/
def sortNats (l : List Nat) : List Nat :=
  l.foldl (fun acc x => (acc.takeWhile (fun y => decide (y ≤ x))) ++ x :: acc.dropWhile (fun y => decide (y ≤ x))) []

/-- HBM windows of pages: one for each maximal run of physically contiguous pages. -/
def pageWindows (pages : List Nat) : List (Nat × Nat) :=
  (runsOf (sortNats pages)).map (fun r => (r.1 * 0x200000, r.2 * 0x200000))

/-- The range of master IDs that covers stream engines, as runs of consecutive IDs. -/
def engineRuns (l : List Nat) : List (Nat × Nat) := (runsOf (sortNats l)).map (fun r => (0x10 + r.1, 0x10 + r.1 + r.2 - 1))

/-! ## A context's share (R350, R425) -/

/-- Picture bytes of a context's buffers: buffer stride times their number. -/
def Ctx.picSpan (x : Ctx) : Nat := x.bufBytes * x.bufs.length

/-- The access windows of a context: its picture buffers in commons, and its pages in HBM. -/
def Ctx.windows (x : Ctx) : List (Nat × Nat × Nat) :=
  (if x.picSpan = 0 then [] else [(1, x.base - 0x0800000000, x.picSpan)]) ++
  (pageWindows x.jbPages).map (fun w => (0, w.1, w.2))

/-- The buffers, pages, quoins and access entries of a context released, and what MC2 has left to decide for it forgotten (07 R173);
its ingest returns to its idle state. -/
def State.releaseCtx (s : State) (c : Nat) : State :=
  let x := s.ctx c
  let s := s.dropAcc (fun t e => e.ownedBy x.slot && x.windows.any (fun w => w.1 == t &&
    decide (w.2.1 / 64 ≤ e.e1) && decide (e.e2 ≤ (w.2.1 + w.2.2 - 1) / 64)))
  let s := if x.picSpan = 0 then s else s.giveGranules ((x.base - 0x0800000000) / 65536) (ceilDiv x.picSpan 65536)
  let s := (s.givePages x.jbPages).unmapPages x.region x.jbPages.length
  let s := if x.inQ = 0 then s else (s.giveQuoins x.inQ 1).giveQuoins x.freeQ 1
  let s := { s with
    decQ := s.decQ.map (fun (l : List Nat) => l.filter (fun i => i % 4096 != c))
    adm := { s.adm with
      reports := s.adm.reports.filter (fun r => r.ctx != c), flips := s.adm.flips.filter (fun f => f.ctx != c) } }
  s.setCtx c { x with base := 0, bufBytes := 0, bufs := [], next := 0, freeNext := 0, inQ := 0, freeQ := 0, jbPages := []
                      jbCount := 0, region := 0, eosSent := false, eosDone := false, ing := {} }

/-- A context's forme context index freed and its state UNBOUND (R37, R349). -/
def State.unbindCtx (s : State) (c : Nat) : State :=
  let x := s.ctx c
  let s := s.modSlot x.slot (fun y => { y with fidx := tdel y.fidx x.fidx })
  s.setCtx c { x with st := 0, fidx := 0, slot := 0 }

end Sys2Proof.Machine
end

