-- ==== Sys2Proof/Machine/Loader.lean ====
section
/-! DEFINITION. The loader (01 R18 to R37, 09 R204 to R206): the checks of Table 1-4 in order, what a load takes, the commit of
R30, unloading and the re-lock of R35. A load runs within its START, or is left paused among the writes of R30 (log entry 17). -/
namespace Sys2Proof.Machine

/-! ## The plan of a load -/

/-- A check: its step and code where it fails. -/
def need (b : Bool) (step code : Nat) : Except (Nat × Nat) Unit := if b then .ok () else .error (step, code)

/-- A value that a check needs. -/
def needSome {α : Type} (x : Option α) (step code : Nat) : Except (Nat × Nat) α :=
  match x with
  | some v => .ok v
  | none => .error (step, code)

/-- Step 3 (16 R368). -/
def State.versionOk (s : State) (f : Forme) : Bool :=
  let v := s.rd FW_IF_VERSION_VERSION
  decide (f.ifMin ≤ v) && decide (v ≤ f.ifMax) && s.fw.compat.any (fun e => e.1 == 1 && decide (e.2.1 ≤ f.ifMin) &&
    decide (v ≤ e.2.2)) && bit s.fw.formats f.version

/-- Whether CHECK_OVERRIDE is accepted: debug mode with its scope bit (R31, 16 R385). -/
def State.overrideOk (s : State) : Bool := s.rd SEC_DEBUG_STATUS_ACTIVE == 1 && bit (s.rd SEC_DEBUG_STATUS_SCOPE) 2

/-- The usable tiles that no slot holds, in serpentine order (R20, R23); a tile that is being released is still held. -/
def State.freeTiles (s : State) : List Nat :=
  serpentine.filter (fun t => s.pwr.joined.contains t && !s.unusable t && !s.testing t && (s.tileSlot t).isNone)

/-- The free general stream engines: idle and held by no slot. -/
def State.freeEngines (s : State) : List Nat :=
  (List.range 32).filter (fun e => (s.engine e).st == 0 && (s.engine e).held.isNone)

/-- The switch words that no other load may take (05 R128): those that stand, and those that other slots' impressions will put
there; what stands of slot `k` itself is not counted. -/
def State.takenWords (s : State) (k : Nat) : Table Word :=
  let add := fun (l : Table Word) (e : Nat × Nat) => tput (fun _ => (0 : Word)) l e.1 (BitVec.ofNat 32 e.2)
  ((List.range 8).filter (fun j => j != k)).foldl (fun sw j =>
    let x := (s.slot j).imp
    (x.store.flatMap (fun y => y.words.map (fun w => (y.phys * 256 + w.1, w.2))) ++ x.words.map (·.2)).foldl add sw)
    (s.fab.sw.filter (fun e => !(bits e.2.toNat 20 3 == k && bit e.2.toNat 31 && decide (e.1 % 256 < 208))))

/-- Receive windows of the output engine that other slots leave free (R424). -/
def State.freeWindows (s : State) (k : Nat) : Nat :=
  512 - ((s.fab.routes.filter (fun r => r.slot != k)).flatMap (fun r => r.recvs.filter (fun v => match v.dst with
    | .feOut _ _ => true
    | _ => false))).length

/-- The spill and refill streams of a plan, impression by impression, with the refill entry and replica of each refill (09
R209). -/
def Forme.cutStreams (f : Forme) (placed : List Placed) : List (CutStream × Option (Refill × Nat)) :=
  (List.range f.impCount).flatMap (fun imp =>
    let here := placed.filter (fun p => p.imp == imp)
    let spills := (List.range f.cuts.length).flatMap (fun i =>
      let c := f.cut i
      if (f.stage c.srcStage).imp ≠ imp then []
      else (here.filter (fun p => p.stage == c.srcStage && p.unit == c.srcUnit)).map (fun p =>
        (({ imp := imp, cut := i, tile := p.phys, port := c.srcPort, spill := true
            row0 := p.row0, rows := if p.rows = 0 then c.rows else p.rows } : CutStream), (none : Option (Refill × Nat)))))
    let refills := f.refills.flatMap (fun r =>
      let c := f.cut r.cut
      if (f.stage r.dst).imp ≠ imp then []
      else if r.dstPort = 0x81 then
        [(({ imp := imp, cut := r.cut, tile := 0, port := r.dstPort, spill := false, row0 := 0, rows := c.rows } : CutStream),
          some (r, 0))]
      else (List.range (repsOf here r.dst)).map (fun k =>
        let w := if r.all then none else f.inputRows here r.dst k c.rows
        (({ imp := imp, cut := r.cut, tile := (physOf here r.dst k r.dstUnit).getD 0, port := r.dstPort, spill := false
            row0 := (w.map (·.1)).getD 0, rows := (w.map (fun x => x.2 - x.1)).getD c.rows } : CutStream), some (r, k))))
    spills ++ refills)

/-- The streams given engines in turn out of those held; the first is the sequencer's own (R205). -/
def giveEngines (held : List Nat) (l : List (CutStream × Option (Refill × Nat))) : List (CutStream × Option (Refill × Nat)) :=
  (List.range l.length).filterMap (fun i => (l[i]?).map (fun x =>
    ({ x.1 with engine := held.getD (1 + i % max 1 (held.length - 1)) 0 }, x.2)))

/-- E of R205. -/
def Forme.storeEngines (f : Forme) (streams : List (CutStream × Option (Refill × Nat))) : Nat :=
  if !f.multi then 0
  else
    let n := fun k => (streams.filter (fun x => x.1.imp == k)).length
    1 + listMax ((List.range f.impCount).map (fun k => n k + n ((k + 1) % max 1 f.impCount)))

/-- Bytes that the impression store takes for `n` bytes of program and placed data (R205). -/
def storeSize (n : Nat) : Nat := ceilDiv (4096 + n) 4096 * 4096

/-- Bytes of the impression store (R205): each held tile in each impression, whether it carries a stage there or not, and each
persist entry once. -/
def Forme.storeBytes (f : Forme) (held : List Nat) (placed : List Placed) : Nat :=
  listSum ((List.range f.impCount).flatMap (fun i => held.map (fun t =>
    storeSize ((placed.find? (fun p => p.imp == i && p.phys == t)).elim 0 (fun p =>
      (f.program p.stage p.unit).length + listSum ((f.areas p.stage p.unit).map (·.len))))))) +
  listSum (f.persist.map (·.len))

/-- Committed power of a placed forme (R22, R204): for each held tile the largest class power over the impressions. -/
def Forme.power (f : Forme) (held : List Nat) (placed : List Placed) : Nat :=
  listSum (held.map (fun t => listMax ((placed.filter (fun p => p.phys == t)).map (fun p => powerClass (f.stage p.stage).cls))))

/-- The engines of the slot whose weight stream comes, in whole or in part, from the forme's commons block: those that take fewer
bytes of a frame from HBM than its tokens hold (R425). -/
def Forme.commonsEngines (f : Forme) (weightEng : List (Nat × Nat)) : List Nat :=
  (weightEng.filter (fun e => (f.det.streams.find? (fun x => x.1 == e.1)).any (fun x =>
    decide (x.2.2 < x.2.1.length * (if (f.tmpl e.1).net = 1 then 4 else 64))))).map (·.2)

/-- The access entries of R425; `readers` are the engines that read the commons block. -/
def loadAcc (k granule commons quoin quoins : Nat) (pages engines readers : List Nat) : List (Nat × AccEnt) :=
  let er := engineRuns engines
  (if quoins = 0 then [] else (2, ownedEnt k 6 k k (quoin * 16) (quoins * 16)) ::
    er.map (fun m => (2, ownedEnt k 6 m.1 m.2 (quoin * 16) (quoins * 16)))) ++
  (if commons = 0 then [] else (1, ownedEnt k 4 0x58 0x5A (granule * 65536) commons) ::
    (engineRuns readers).map (fun m => (1, ownedEnt k 6 m.1 m.2 (granule * 65536) commons))) ++
  (pageWindows pages).flatMap (fun w => er.map (fun m => (0, ownedEnt k 6 m.1 m.2 w.1 w.2)))

/-- The checks of steps 2 to 14, in order; `own` is power that a re-lock gives back. -/
def State.planLoad (s : State) (f : Forme) (k addr : Nat) (override : Bool) (limit : Nat) (auto relock : Bool) (own : Nat) :
    Except (Nat × Nat) LoadPlan := do
  let imps := List.range f.impCount
  need (!override || s.overrideOk) 2 EV_LOAD_OVERRIDE_DENIED
  need (f.formatOk && bit s.fw.formats f.version) 2 EV_LOAD_FORMAT
  need (s.versionOk f) 3 EV_LOAD_VERSION
  need (f.level == 1 || f.level == 2) 4 EV_LOAD_LEVEL
  need ((List.range 16).all (fun i => decide (stepTable i ≤ f.assumed.getD i 0))) 5 EV_LOAD_STEP_ASSUMPTION
  need (imps.all f.ratesOk) 6 EV_LOAD_RATES
  need (relock || (s.slot k).st == 0) 7 EV_LOAD_SLOTS
  let free := s.freeTiles
  let u := min (min free.length f.tilesMax) (if limit = 0 then 104 else limit)
  need (decide (f.tilesMin ≤ u)) 7 EV_LOAD_TILES
  let a := s.rd PWR_BUDGET_BUDGET - (s.committed - own)
  let counts ← imps.mapM (fun i => needSome (f.replicas i u a) 8 EV_LOAD_POWER)
  let held := free.take (listMax (counts.map tilesOf))
  let placed := (imps.zip counts).flatMap (fun x => placeOn x.1 x.2 held)
  let weights := (List.range f.tmpls.length).filter (fun i => (f.tmpl i).srcPort == 0x82)
  let engs := s.freeEngines
  let weightEng := weights.zip engs
  let bare := f.cutStreams placed
  let en := weights.length + f.storeEngines bare
  let streams := giveEngines ((engs.take en).drop weights.length) bare
  let pipes ← imps.mapM (fun i => needSome (f.pipe
    { slot := k, imp := i, placed := placed.filter (fun p => p.imp == i), streams := streams.map (·.1)
      refillOf := fun j => (streams[j]?).bind (·.2)
      engineOf := fun j => ((weightEng.find? (fun e => e.1 == j)).map (·.2)).getD 0
      windows := s.freeWindows k, words := s.takenWords k }) 8 EV_LOAD_ROUTES)
  need (imps.all f.galleySizesOk) 9 EV_LOAD_GALLEY
  let graphs := (imps.zip pipes).map (fun x => f.edges (placed.filter (fun p => p.imp == x.1)) x.2 (streams.map (·.1)) weightEng)
  need (override || graphs.all loopsOk) 10 EV_LOAD_CREDIT_LOOP
  need (override || graphs.all f.reconvergenceOk) 11 EV_LOAD_RECONVERGENCE
  need (imps.all f.packetsOk) 12 EV_LOAD_PACKET_SIZE
  need (f.det.programs.all (fun p => decide (p.length ≤ 16384)) &&
    placed.all (fun p => decide (listSum ((f.areas p.stage p.unit).map (·.len)) ≤ 1572864))) 13 EV_LOAD_MEMORY
  let granule ← needSome (if f.commons = 0 then some 0 else s.freeGranules (f.commons / 65536)) 13 EV_LOAD_MEMORY
  let storePages := if f.multi then ceilDiv (f.storeBytes held placed) 0x200000 else 0
  let pages ← needSome (s.freePages (f.pages + storePages)) 13 EV_LOAD_MEMORY
  let region ← needSome (s.freeRegion (f.pages + storePages)) 13 EV_LOAD_MEMORY
  let quoin ← needSome (s.freeQuoins f.quoins) 13 EV_LOAD_MEMORY
  need (decide (en ≤ engs.length)) 13 EV_LOAD_MEMORY
  let acc := loadAcc k granule f.commons quoin f.quoins pages (engs.take en) (f.commonsEngines weightEng)
  need (s.accFits acc) 13 EV_LOAD_MEMORY
  need (counts.all f.slackCovers) 14 EV_LOAD_SLACK
  pure { f := f, slot := k, addr := addr, counts := counts, held := held, placed := placed, pipes := pipes
         streams := streams.map (·.1), weightEng := weightEng, engines := engs.take en, granule := granule
         pages := pages.take f.pages, region := region, quoin := quoin, storePages := pages.drop f.pages
         power := f.power held placed, acc := acc, auto := auto, override := override }

/-! ## Relocation (R32) -/

/-- The value that a relocation computes for a placed tile. -/
def LoadPlan.value (p : LoadPlan) (r : Reloc) (x : Placed) : Nat :=
  let other := ((physOf p.placed r.sym x.rep r.unit).orElse (fun _ => physOf p.placed r.sym 0 r.unit)).getD 0
  let window := fun (t : Nat) => 0x0900000000 + 0x200000 * t
  let hbm := p.region * 0x200000
  let v := match r.ty with
    | 1 => window x.phys
    | 2 => window other
    | 3 => 0x0800000000 + p.granule * 65536
    | 4 => hbm
    | 5 => p.quoin
    | 6 => rowOf other * 16 + colOf other
    | 7 => x.rep
    | 8 => x.row0
    | _ => 0
  if r.ty = 9 then (hbm + r.addend) / 2 ^ 32 % 256 else (v + r.addend) % 2 ^ 32

/-- The relocations of a placed tile. -/
def LoadPlan.relocs (p : LoadPlan) (x : Placed) : List Reloc :=
  p.f.relocs.filter (fun r => r.stage == x.stage && r.unit == x.unit)

/-- Whether every relocated value fits its field. -/
def LoadPlan.relocFits (p : LoadPlan) : Bool :=
  p.placed.all (fun x => (p.relocs x).all (fun r => decide (p.value r x < 2 ^ r.width)))

/-- The field of a 32-bit word at a byte offset of a run of bytes that starts at `base` replaced. -/
def patch (base : Nat) (bs : List Byte) (off lsb width v : Nat) : List Byte :=
  if base ≤ off ∧ off + 4 ≤ base + bs.length then
    let o := off - base
    bs.take o ++ leBytes 4 (setBits (fieldAt bs o 4) lsb width v) ++ bs.drop (o + 4)
  else bs

/-- The relocations applied to a run of bytes of a placed tile. -/
def LoadPlan.patched (p : LoadPlan) (x : Placed) (inSram : Bool) (base : Nat) (bs : List Byte) : List Byte :=
  ((p.relocs x).filter (fun r => bit r.off 31 == inSram)).foldl (fun bs r =>
    patch base bs (bits r.off 0 31) r.lsb r.width (p.value r x)) bs

/-! ## What each tile is given -/

/-- Bytes padded with zero to a length. -/
def padded (bs : List Byte) (n : Nat) : List Byte := bs.take n ++ zeros (n - bs.length)

/-- The TILE_GCFG words of a placed tile, packed in port order (R30). -/
def LoadPlan.galleyWords (p : LoadPlan) (x : Placed) : List (Nat × Nat) :=
  ((List.range 12).foldl (fun (acc : Nat × List (Nat × Nat)) port =>
    match p.f.galley x.stage x.unit port with
    | some g => (acc.1 + g.capKib, acc.2 ++ [(0x40 + 4 * port,
        2 ^ 31 + b2n (g.size == 4) * 2 ^ 30 + (g.count - 1) * 2 ^ 24 + g.capKib * 2 ^ 16 + acc.1 * 2 ^ 8)])
    | none => (acc.1, acc.2 ++ [(0x40 + 4 * port, 0)])) (0, [])).2

/-- The loop ports of a placed tile; an input port starts with AVAIL 1 (08 R189). -/
def LoadPlan.loops (p : LoadPlan) (x : Placed) : List LoopPort :=
  (List.range 12).map (fun port =>
    match p.f.galley x.stage x.unit port with
    | some g => if g.loop then { on := true, avail := if port < 8 then 1 else 0, image := g.image } else {}
    | none => {})

/-- The switch words that impression `i` of the plan puts: segments of its slot, and windows at the tiles it holds. -/
def LoadPlan.ownWords (p : LoadPlan) (i : Nat) : List (Nat × Nat) :=
  ((p.pipes.getD i ⟨[], [], [], []⟩).words.filter (fun e =>
    if 208 ≤ e.1 % 256 then p.held.contains (e.1 / 256) else bits e.2.toNat 20 3 == p.slot && bit e.2.toNat 31)).map
    (fun e => (e.1, e.2.toNat))

/-- What a placed tile is given: registers, switch words, program, placed bytes with every context's initial values. -/
def LoadPlan.tileOf (p : LoadPlan) (i : Nat) (x : Placed) : StoreTile :=
  let f := p.f
  let entry := ((f.det.entries.find? (fun e => e.1 == x.stage && e.2.1 == x.unit)).map (fun e => e.2.2)).getD 0
  let cfg := entry % 4096 * 2 ^ 16 + p.slot * 2 ^ 12 + 2 ^ 11 + b2n (f.level == 1) * 4 + f.level
  { imp := x.imp, phys := x.phys, logical := i
    regs := (8, cfg) :: p.galleyWords x ++ (f.det.regs.filter (fun r => r.1 == x.stage && r.2.1 == x.unit)).map (fun r => r.2.2)
    words := ((p.ownWords x.imp).filter (fun e => e.1 / 256 == x.phys)).map (fun e => (e.1 % 256, e.2))
    prog := p.patched x false 0 (f.program x.stage x.unit)
    placed := (f.areas x.stage x.unit).map (fun a => (a.off, p.patched x true a.off (padded a.bytes a.len))) ++
      (List.range f.maxCtx).flatMap (fun c => (f.det.inits.filter (fun n => n.stage == x.stage && n.unit == x.unit)).map
        (fun n => (n.off + c * n.stride, n.bytes)))
    loop := p.loops x }

/-- Every placed tile, with logical numbers counted per impression. -/
def LoadPlan.tiles (p : LoadPlan) : List StoreTile :=
  p.placed.map (fun x => p.tileOf ((indexOf? (fun t => t == x.phys) p.held).getD 0) x)

/-! ## Commit (R30, 09 R206) -/

/-- Tile `t`'s registers at their block-reset values. -/
def State.resetTileRegs (s : State) (t : Nat) : State :=
  let lo := 0x09001F0000 + 0x200000 * t
  { s with regs := s.regs.filter (fun e => !(decide (lo ≤ e.1) && decide (e.1 < lo + 0xC000))) }

/-- A tile given its program and placed bytes. -/
def State.putData (s : State) (x : StoreTile) (m : Nat) : State :=
  x.placed.foldl (fun (s : State) a => (s.write (.sram x.phys) a.1 a.2 m).2) (s.write (.prog x.phys) 0 x.prog m).2

/-- A tile given its registers and loop ports; its core, platen, galleys and control unit are set as after a block reset (Table
9-5, step 3). -/
def State.putRegs (s : State) (x : StoreTile) : State :=
  (x.regs.foldl (fun (s : State) r => s.setReg 0 (0x09001F0000 + 0x200000 * x.phys + r.1) r.2) s).modTile x.phys (fun y => { y with
    core := {}, plat := {}, ports := { loop := x.loop }, ctl := {}, watch := List.replicate 13 {}, jobs := []
    imp := x.imp, logical := x.logical })

/-- A tile given all that the store holds for it, its switch words apart. -/
def State.configTile (s : State) (x : StoreTile) (m : Nat) : State := (s.putData x m).putRegs x

/-- The packet mode of a placed tile's ports (12 Table 12-10). -/
def State.packetMode (s : State) (f : Forme) (x : Placed) : State :=
  (List.range 12).foldl (fun (s : State) p =>
    let c := 1 + galKey 0 x.phys p
    let w := match f.galley x.stage x.unit p with
      | some g => if g.pkt then 2 ^ 31 + g.ty % 64 * 2 ^ 24 + (g.pad - 1) % 128 * 2 ^ 16 + g.pktTokens else 0
      | none => 0
    s.setReg c STREAM_GCFG_PKT.addr w) s

/-- Switch words written, by key. -/
def State.putKeys (s : State) (l : List (Nat × Nat)) : State :=
  { s with fab := { s.fab with sw := l.foldl (fun sw w => tput (fun _ => (0 : Word)) sw w.1 (BitVec.ofNat 32 w.2)) s.fab.sw } }

/-- A tile's switch words written. -/
def State.putWords (s : State) (x : StoreTile) : State := s.putKeys (x.words.map (fun w => (x.phys * 256 + w.1, w.2)))

/-- Bytes written at offset `off` of a list of 2 MiB pages; `fuel` bounds the pages. What would go to a pseudo-channel that is not ready
is not written: the loader's access is answered with a bus error (11 R249, log entry 77). -/
def State.writePages (s : State) (pages : List Nat) (off : Nat) (bs : List Byte) (m : Nat) : Nat → State
  | 0 => s
  | fuel + 1 =>
    if bs.isEmpty then s
    else
      let n := 0x200000 - off % 0x200000
      let a := pages.getD (off / 0x200000) 0 * 0x200000 + off % 0x200000
      let s := if s.hbmReady a (bs.take n).length then (s.write .hbm a (bs.take n) m).2 else s
      s.writePages pages (off + n) (bs.drop n) m fuel

/-- `n` bytes at `off` of what a tile is given. -/
def StoreTile.bytesAt (x : StoreTile) (off n : Nat) : List Byte :=
  x.placed.foldl (fun bs a =>
    (List.range n).map (fun i =>
      if a.1 ≤ off + i ∧ off + i < a.1 + a.2.length then a.2.getD (off + i - a.1) 0 else bs.getD i 0)) (zeros n)

/-- The persist areas of a plan with their copies at the initial values (R205, R214). -/
def LoadPlan.persists (p : LoadPlan) (tiles : List StoreTile) : List Persist :=
  p.f.persist.flatMap (fun e => (p.placed.filter (fun x => x.stage == e.stage && x.unit == e.unit)).filterMap (fun x =>
    (tiles.find? (fun t => t.imp == x.imp && t.phys == x.phys)).map (fun t =>
      ⟨e.stage, e.unit, x.phys, e.off, e.len, t.bytesAt e.off e.len⟩)))

/-- Steps of the wave out of impression `k` on the busiest tile (Table 9-5, steps 2 to 4): one port step per 64 bytes moved. -/
def LoadPlan.waveSteps (p : LoadPlan) (tiles : List StoreTile) (k : Nat) : Nat :=
  let next := (k + 1) % max 1 p.f.impCount
  let save := fun (i t : Nat) => listSum ((p.placed.filter (fun x => x.imp == i && x.phys == t)).map (fun x =>
    listSum ((p.f.persist.filter (fun e => e.stage == x.stage && e.unit == x.unit)).map (fun e => e.len / 64))))
  let put := fun (t : Nat) => listSum ((tiles.filter (fun x => x.imp == next && x.phys == t)).map (fun x =>
    ceilDiv x.prog.length 64 + listSum (x.placed.map (fun a => ceilDiv a.2.length 64))))
  listMax (p.held.map (fun t => (save k t + put t + save next t) * p.f.s 4))

/-- The words of each impression at switches of tiles that carry no stage of it. -/
def LoadPlan.outside (p : LoadPlan) : List (Nat × Nat × Nat) :=
  if !p.f.multi then []
  else (List.range p.f.impCount).flatMap (fun i =>
    ((p.ownWords i).filter (fun e => !p.placed.any (fun x => x.imp == i && x.phys == e.1 / 256))).map (fun e => (i, e)))

/-- The figures of R227 in ns: the slot with its bounds. -/
def LoadPlan.figures (p : LoadPlan) (fl : Nat) (tiles : List StoreTile) (x : Slot) : Slot :=
  let f := p.f
  let at' := fun (k : Nat) => (p.placed.filter (fun y => y.imp == k), p.counts.getD k [],
    (p.pipes.getD k ⟨[], [], [], []⟩).routes)
  let d := fun (k : Nat) => f.depthSteps (at' k).1 (at' k).2.1 (at' k).2.2
  let h := fun (k : Nat) => f.depthNs (at' k).1 (at' k).2.1 (at' k).2.2
  let pd := fun (k : Nat) => f.period (at' k).1 (at' k).2.1 (at' k).2.2
  let tin := stepNs fl (f.feSteps 1)
  let tout := stepNs fl (f.feSteps 2)
  let last := f.impCount - 1
  let df := stepNs fl (d last)
  let y := { x with tin := tin, tout := tout, df := df, pf := stepNs fl (pd last), hf := h last, rf := 0 }
  if f.multi then
    let ks := List.range f.impCount
    let round := listSum (ks.map (fun k => stepNs fl ((f.roundMax - 1) * pd k + d k + p.waveSteps tiles k) + h k)) +
      stepNs fl (f.roundMax * (f.feSteps 1 + f.feSteps 2))
    { y with lmin := 2 * round, imp := { y.imp with roundTime := round } }
  else { y with lmin := tin + df + tout + h 0 }

/-- The slot of a committed forme; the options and the contexts' indices stay as they are. -/
def LoadPlan.slotOf (p : LoadPlan) (fl : Nat) (tiles : List StoreTile) (now : Nat) (x : Slot) : Slot :=
  let f := p.f
  p.figures fl tiles
    { x with
      autoRelock := p.auto, overridden := p.override, image := p.addr, formeId := f.id, level := f.level, contract := f.contract, multi := f.multi, maxCtx := f.maxCtx
      ifMin := f.ifMin, ifMax := f.ifMax, version := f.version
      tiles := p.held, placed := p.placed, power := p.power, commons := p.granule * 65536, commonsLen := f.commons
      region := p.region, pages := p.pages, quoin := p.quoin, quoins := f.quoins
      inDesc := ((f.stages.find? (fun s => s.kind == 1)).bind (fun s => f.descOff s.id))
      heads := (f.stages.filter (fun s => s.kind == 2)).map (fun s => (s.id, (f.descOff s.id).getD 0))
      dir := f.dir, inits := f.det.inits.map (fun i => ⟨i.stage, i.unit, i.off, i.stride, i.bytes⟩)
      engines := p.engines
      streams := p.weightEng.map (fun e => (e.2, ((f.det.streams.find? (fun x => x.1 == e.1)).elim [] (fun x => x.2.1))))
      digest := Config.sha false f.img, tagReset := false, progress := now, relock := false
      imp := { count := f.impCount, roundMax := f.roundMax, hostGate := f.hostGate, gateQ := p.quoin + f.gateQ
               doneQ := p.quoin + f.doneQ, cuts := f.cuts.map (fun c => { c with quoin := p.quoin + c.quoin })
               streams := p.streams, persist := p.persists tiles, store := if f.multi then tiles else []
               storePages := p.storePages, words := p.outside } }

/-- The placed contents of commons and HBM written. -/
def State.writePlaced (s : State) (p : LoadPlan) : State :=
  p.f.det.placed.foldl (fun (s : State) a =>
    if a.region = 1 then (s.write .commons (p.granule * 65536 + a.off) (padded a.bytes a.len) s.admCore).2
    else if a.region = 2 then s.writePages p.pages a.off (padded a.bytes a.len) s.admCore (a.len / 0x200000 + 2)
    else s) s

/-- A tile that carries no stage in impression 0: held and IDLE. -/
def State.holdIdle (s : State) (t slot level : Nat) : State :=
  let s := (s.dropTest t).tileUp t
  (s.setReg 0 (TILE_CFG_HELD.tile t).addr (slot * 2 ^ 12 + 2 ^ 11 + b2n (level == 1) * 4 + level)).modTile t (fun y => { y with
    st := .idle, back := .idle, core := {}, plat := {}, ports := {}, ctl := {}, watch := List.replicate 13 {}, jobs := []
    imp := 0 })

/-- What the store's pages hold of a tile: 4 KiB of the device's own, the program and the placed bytes, filled up with zeros. -/
def StoreTile.image (x : StoreTile) : List Byte :=
  let b := zeros 4096 ++ x.prog ++ x.placed.flatMap (·.2)
  padded b (storeSize (b.length - 4096))

/-- The store written to its pages (09 R206): every tile in every impression, then the persist copies. -/
def State.writeStore (s : State) (p : LoadPlan) (tiles : List StoreTile) (copies : List Persist) : State :=
  if !p.f.multi then s
  else
    let b := tiles.flatMap StoreTile.image ++ copies.flatMap (·.copy)
    s.writePages p.storePages 0 b s.admCore (b.length / 0x200000 + 2)

/-- What a load takes before the writes of R30: granules, pages, quoins, engines and region entries, the store, and the slot's
record, LOADING. The engines of the forme's streams have the ROUTE endpoint (12 R274). -/
def State.loadTake (s : State) (p : LoadPlan) : State :=
  let tiles := p.tiles
  let s := ((s.takeGranules p.granule (p.f.commons / 65536)).takePages (p.pages ++ p.storePages)).takeQuoins p.quoin p.f.quoins
  let s := p.engines.foldl (fun (s : State) e => s.modEng e (fun x => { x with held := some p.slot })) s
  let s := (p.weightEng.map (·.2) ++ p.streams.map (·.engine)).foldl (fun (s : State) e => s.wr (STREAM_ENG_EP_KIND.idx e) 1) s
  let s := (s.mapPages p.region (p.pages ++ p.storePages)).writeStore p tiles (p.persists tiles)
  s.modSlot p.slot (p.slotOf (s.rd GOV_PACE_FLOOR_FLOOR) tiles s.now)

/-- Write `i` of R30, 0 to 3: access-table entries; placed data and patched programs; galley configuration; routes. -/
def State.loadWrite (s : State) (p : LoadPlan) (i : Nat) : State :=
  let m := s.admCore
  let first := p.tiles.filter (fun x => x.imp == 0)
  if i = 0 then s.addAcc p.acc
  else if i = 1 then
    let s := p.held.foldl (fun (s : State) t => s.holdIdle t p.slot p.f.level) (s.writePlaced p)
    first.foldl (fun (s : State) x => s.putData x m) s
  else if i = 2 then
    let s := first.foldl (fun (s : State) x => s.putRegs x) s
    (p.placed.filter (fun x => x.imp == 0)).foldl (fun (s : State) x => s.packetMode p.f x) s
  else
    let s := s.putKeys (p.ownWords 0)
    { s with fab := { s.fab with
      routes := s.fab.routes ++ p.pipes.flatMap (·.routes)
      ctl := s.fab.ctl ++ p.pipes.flatMap (·.ctl)
      steers := s.fab.steers ++ p.pipes.flatMap (·.steers) } }

/-- The writes of R30 from number `i` on, `n` of them. -/
def State.loadWrites (s : State) (p : LoadPlan) (i n : Nat) : State :=
  (List.range n).foldl (fun (s : State) j => s.loadWrite p (i + j)) s

/-- The end of a commit: the tiles of impression 0 wait for a frame, and the slot is RESIDENT. -/
def State.loadResident (s : State) (p : LoadPlan) : State :=
  let s := (p.tiles.filter (fun x => x.imp == 0)).foldl (fun (s : State) x =>
    s.modTile x.phys (fun y => { y with st := .waitFrame, back := .waitFrame })) s
  s.modSlot p.slot (fun x => { x with st := 2 })

/-- A whole commit, for a re-lock. -/
def State.commit (s : State) (p : LoadPlan) : State := ((s.loadTake p).loadWrites p 0 4).loadResident p

/-! ## Release (R33, R34, R35) -/

/-- A tile released: bank-cleared unless it has become unusable, its registers at their reset values (R33, R35). -/
def State.releaseTile (s : State) (t : Nat) : State :=
  let s := if s.unusable t then s else ((s.clearAll (.sram t)).clearAll (.gsram t)).clearAll (.prog t)
  let s := s.resetTileRegs t
  let s := (List.range 12).foldl (fun (s : State) p => s.setReg (1 + galKey 0 t p) STREAM_GCFG_PKT.addr 0) s
  let s := s.dropWaits (.tile t)
  s.modTile t (fun x => { sram := x.sram, gsram := x.gsram, prog := x.prog, st := if x.st = .parked then .parked else .idle })

/-- Everything that a load took given back: switch words, routes, tiles, access entries, engines, region entries, pages, commons,
quoins. `keep` says which owned access entries stay. -/
def State.releaseForme (s : State) (k : Nat) (keep : Nat → AccEnt → Bool) : State :=
  let x := s.slot k
  let s := s.feForget k
  let s := { s with fab := {
    sw := s.fab.sw.filter (fun e => !(x.tiles.contains (e.1 / 256) && decide (208 ≤ e.1 % 256)) &&
      !(bits e.2.toNat 20 3 == k && bit e.2.toNat 31 && decide (e.1 % 256 < 208)))
    routes := s.fab.routes.filter (fun r => r.slot != k)
    ctl := s.fab.ctl.filter (fun r => r.slot != k)
    steers := s.fab.steers.filter (fun u => u.slot != k) } }
  let s := x.tiles.foldl State.releaseTile s
  let s := s.dropAcc (fun t e => e.ownedBy k && !keep t e)
  let s := ((List.range 32).filter (fun e => (s.engine e).held == some k)).foldl (fun (s : State) e =>
    (s.modEng e (fun x => { x with held := none })).wr (STREAM_ENG_EP_KIND.idx e) 0) s
  let s := s.unmapPages x.region (x.pages.length + x.imp.storePages.length)
  let s := s.givePages (x.pages ++ x.imp.storePages)
  let s := s.giveGranules (x.commons / 65536) (x.commonsLen / 65536)
  let s := s.giveQuoins x.quoin x.quoins
  { s with adm := { s.adm with
    reports := s.adm.reports.filter (fun r => r.slot != k), flips := s.adm.flips.filter (fun f => f.slot != k) } }

/-! ## LOAD_START (R18, R33) -/

/-- The image address of the LOAD registers. -/
def State.imageAddr (s : State) : Nat := s.rd LOAD_IMAGE_LO_ADDR * 256 + s.rd LOAD_IMAGE_HI_ADDR * 2 ^ 32

/-- The forme-signing keys that are not revoked, in slot order (16 R369, R370): an empty slot counts as revoked. -/
def State.formeKeys (s : State) : List Nat :=
  ((List.range 8).filter (fun i => !bit s.otp.revoke (8 + i) && s.otp.formeKeys.getD i 0 != 0)).map (fun i => s.otp.formeKeys.getD i 0)

/-- Step 1: the image read and its signature verified (R13). -/
def State.readImage (s : State) (addr : Nat) : Option (List Byte) × State :=
  if !s.hbmReady addr 256 || decide (0x400000000 < addr + 256) then (none, s)
  else
    let r := s.read .hbm addr 256 s.admCore
    match r.1.bind (fun h => locate h addr) with
    | none => (none, r.2)
    | some n =>
      let q := r.2.read .hbm addr n r.2.admCore
      match q.1 with
      | some img => if q.2.hbmReady addr n && verified q.2.formeKeys img then (some img, q.2) else (none, q.2)
      | none => (none, q.2)

/-- Steps 1 to 14, with the relocations (R32), for slot `k`. -/
def State.tryLoad (s : State) (k addr : Nat) (override : Bool) (limit : Nat) (auto relock : Bool) (own : Nat) :
    Except (Nat × Nat) LoadPlan × State :=
  let r := s.readImage addr
  match r.1 with
  | none => (.error (1, EV_LOAD_SIGNATURE), r.2)
  | some img =>
    match r.2.planLoad (formeOf img) k addr override limit auto relock own with
    | .error e => (.error e, r.2)
    | .ok p => if p.relocFits then (.ok p, r.2) else (.error (2, EV_LOAD_FORMAT), r.2)

/-- LOAD_STATUS after a load that was refused or abandoned. -/
def State.loadFailed (s : State) (step : Nat) : State :=
  ((s.wr LOAD_STATUS_FAILED 1).wr LOAD_STATUS_FAIL_STEP step).wr LOAD_STATUS_BUSY 0

/-- A load in progress undone (R34): all that it took given back, its tiles untouched where no write of R30 was made; the slot EMPTY.
-/
def State.loadUndo (s : State) (j : LoadJob) : State :=
  let k := j.plan.slot
  let s := if j.done = 0 then s.modSlot k (fun x => { x with tiles := [] }) else s
  { (s.releaseForme k (fun _ _ => false)).modSlot k (fun _ => {}) with ld := none }

/-- A load in progress goes on to its end (R30): a chosen tile that has become unusable refuses it, else the rest of the writes, the
slot RESIDENT, DONE and FORME_LOADED. -/
def State.loadFinish (s : State) (j : LoadJob) : State :=
  let p := j.plan
  if p.held.any s.unusable then
    ((s.loadUndo j).loadFailed 15).raise EV_LOAD_TILES_CHANGED s.admCore p.slot 15 p.addr
  else
    let s := (s.loadWrites p j.done (4 - j.done)).loadResident p
    let s := ({ s with ld := none }.wr LOAD_STATUS_DONE 1).wr LOAD_STATUS_BUSY 0
    s.raise EV_FORME_LOADED s.admCore p.slot p.held.length (p.f.id % 2 ^ 64)

/-- A load in progress abandoned, because the core that runs the loader restarts (R34). -/
def State.loadAbandon (s : State) : State :=
  match s.ld with
  | none => s
  | some j => ((s.loadUndo j).loadFailed 0).raise EV_LOAD_ABANDONED s.admCore j.plan.slot 0 j.plan.addr

/-- A START that is accepted: a slot that is EMPTY passes through LOADING; a refusal names its step and leaves the slot as it was; a
load that passes every check is committed, at once or, where `pause` is given, as far as that many of the writes of R30. -/
def State.load (s : State) (pause : Option Nat) : State :=
  let k := s.rd LOAD_CTRL_SLOT
  let addr := s.imageAddr
  let s := (((s.wr LOAD_STATUS_DONE 0).wr LOAD_STATUS_FAILED 0).wr LOAD_STATUS_FAIL_STEP 0).wr LOAD_STATUS_BUSY 1
  let r := s.tryLoad k addr (s.rd LOAD_CTRL_CHECK_OVERRIDE == 1) (s.rd LOAD_CTRL_TILE_LIMIT) (s.rd LOAD_CTRL_AUTO_RELOCK == 1)
    false 0
  match r.1 with
  | .error e => (r.2.loadFailed e.1).raise e.2 s.admCore k e.1 addr
  | .ok p =>
    let s := (r.2.modSlot k (fun _ => { st := 1 })).loadTake p
    let n := min 4 (pause.getD 0)
    let j : LoadJob := ⟨p, n⟩
    let s := { s.loadWrites p 0 n with ld := some j }
    if pause.isSome then s else s.loadFinish j

/-! ## Unloading (R33, "Several formes on one device") -/

/-- UNLOAD accepted: the slot drains, and its running contexts stop (R350). -/
def State.unload (s : State) : State :=
  let k := s.rd LOAD_CTRL_SLOT
  let s := (((s.wr LOAD_STATUS_DONE 0).wr LOAD_STATUS_FAILED 0).wr LOAD_STATUS_FAIL_STEP 0).wr LOAD_STATUS_BUSY 1
  let s := s.modSlot k (fun x => { x with st := 3, relock := false })
  { s with ctxs := s.ctxs.map (fun e => if e.2.slot = k ∧ e.2.st = 2 then (e.1, { e.2 with st := 3 }) else e) }

/-- A write of LOAD_CTRL whose fields have been set (R33): one request at a time. -/
def State.loadCtrl (s : State) (m v : Nat) (pause : Option Nat := none) : Bool × State :=
  let start := bit v 16
  let stop := bit v 17
  let busy := s.rd LOAD_STATUS_BUSY = 1
  let k := bits v 0 3
  if (start ∨ stop) ∧ busy then (false, s.raise EV_LOAD_BUSY s.admCore k 0 s.imageAddr)
  else if start ∧ stop then (false, s)
  else if stop ∧ (s.slot k).st ≠ 2 ∧ (s.slot k).st ≠ 4 then (false, s)
  else
    let s := s.setFields m LOAD_CTRL_SLOT.addr v
    (true, if start then s.load pause else if stop then s.unload else s)

/-- LOAD_CTRL's fields as they stand, with one of the commands. -/
def State.ctrlWord (s : State) (cmd : Nat) : Nat := s.reg 0 LOAD_CTRL_SLOT.addr + cmd

/-- LOAD_START (R18): run to its end, or paused (R34, log entry 17). -/
def execLoadStart (r : LoadReq) (s : State) : Out1 :=
  let v := s.ctrlWord (2 ^ 16)
  .next (s.writeCmd r.m LOAD_CTRL_SLOT.addr v (fun s => s.loadCtrl r.m v r.pause))

/-- LOAD_UNLOAD. -/
def execLoadUnload (m : Nat) (s : State) : Out1 :=
  let v := s.ctrlWord (2 ^ 17)
  .next (s.writeCmd m LOAD_CTRL_SLOT.addr v (fun s => s.loadCtrl m v))

/-- Whether a slot has drained: no frame in flight, no input waiting, and no context that still runs or stops. -/
def State.drained (s : State) (k : Nat) : Bool :=
  s.inFlight k == 0 && s.adm.waiting.all (fun w => (s.ctx w.ctx).slot != k) &&
  s.ctxs.all (fun e => e.2.slot != k || decide (e.2.st < 2))

/-- FORME_UNLOADED: the slot of an unload, once drained, unbinds its contexts and releases what it holds. -/
def execFormeUnloaded (slot : Nat) (s : State) : Out1 :=
  let x := s.slot slot
  .next (if slot < 8 ∧ x.st = 3 ∧ !x.relock ∧ s.drained slot ∧ s.roleHeld s.admCore then
      let s := ((s.ctxs.filter (fun e => e.2.slot == slot && e.2.st == 1)).map (·.1)).foldl State.unbindCtx s
      let s := s.releaseForme slot (fun _ _ => false)
      let s := s.modSlot slot (fun _ => {})
      let s := (s.wr LOAD_STATUS_BUSY 0).wr LOAD_STATUS_DONE 1
      s.raise EV_FORME_UNLOADED s.admCore slot x.tiles.length (x.formeId % 2 ^ 64)
    else s)

/-! ## The re-lock (R35, 09 R214) -/

/-- Contract contexts whose bound the new figures break: stopped, with CONTEXT_CONTRACT_LOST. -/
def State.recheckContexts (s : State) (k : Nat) : State :=
  ((s.ctxs.filter (fun e => e.2.slot == k && e.2.st != 0 && s.isContract e.1 && decide (s.limitNs e.1 < (s.slot k).lmin))).map
    (·.1)).foldl (fun (s : State) c =>
      let s := s.modCtx c (fun x => { x with st := if x.st = 2 then 3 else x.st })
      s.raise EV_CONTEXT_CONTRACT_LOST s.admCore (c % 4096 * 0x10000) k 0) s

/-- FORME_RELOCK (R35): once the slot has no frame in flight but those that wait for a round (09 R214), the forme is locked up again
from its image, and its commit raises FORME_LOADED (R30); a check that fails leaves it STOPPED with what it holds. The model's
choices (log entry 71): LOAD_STATUS stays as it is, and a check that fails raises its own code. -/
def execFormeRelock (slot : Nat) (s : State) : Out1 :=
  let x := s.slot slot
  .next (if slot < 8 ∧ x.st = 3 ∧ x.relock ∧ s.roleHeld s.admCore ∧ s.inFlight slot = x.imp.waiting.length ∧ x.imp.round = [] then
      let mine := s.ctxs.filter (fun e => e.2.slot == slot && e.2.st != 0)
      let keep := fun (t : Nat) (e : AccEnt) => mine.any (fun c => c.2.windows.any (fun w => w.1 == t &&
        decide (w.2.1 / 64 ≤ e.e1) && decide (e.e2 ≤ (w.2.1 + w.2.2 - 1) / 64)))
      let free := s.releaseForme slot keep
      let r := free.tryLoad slot x.image x.overridden (s.rd LOAD_CTRL_TILE_LIMIT) x.autoRelock true x.power
      match r.1 with
      | .ok p =>
        let s := (r.2.commit p).modSlot slot (fun y => { y with relock := false, imp := { y.imp with waiting := x.imp.waiting } })
        let s := ((List.range p.f.impCount).foldl (fun (s : State) i => s.tagDue slot i) s).recheckContexts slot
        s.raise EV_FORME_LOADED s.admCore slot p.held.length (p.f.id % 2 ^ 64)
      | .error e =>
        let s := s.modSlot slot (fun y => { y with st := 4, relock := false })
        s.raise e.2 s.admCore slot e.1 x.image
    else s)

end Sys2Proof.Machine
end

