-- ==== Sys2Proof/Machine/Protect.lean ====
section
/-! DEFINITION. The region map's and the access tables' registers (11 R252, R256), the flip mask (R263), the scrubber (R264 to
R266) and the choice of repairs (R269 to R271). -/
namespace Sys2Proof.Machine

/-! ## The region map (R250, R252) -/

/-- What a write of an entry or sub-entry may not do (R252), the fields that PIN holds given as bits `[lo + n - 1 : lo]`. -/
def pinBreaks (old v lo n : Nat) : Bool :=
  (bit old 30 && (bits old lo n != bits v lo n)) || (!bit v 31 && (bit old 30 || bit v 30))

/-- Whether MC2 records a region as part of a resident forme's allocation, its impression store included, or of a bound contract
context's buffers. -/
def State.formeRegion (s : State) (i : Nat) : Bool :=
  s.slots.any (fun x => decide (2 ≤ x.st) && decide (x.region ≤ i) &&
    decide (i < x.region + x.pages.length + x.imp.storePages.length)) ||
  s.ctxs.any (fun e => s.isContract e.1 && decide (e.2.region ≤ i) && decide (i < e.2.region + e.2.jbPages.length))

/-- A write of REGION_ENTRY by master `m`. -/
def State.regionEntry (s : State) (m v : Nat) : Bool × State :=
  let i := s.rdc (1 + m) REGION_SEL_INDEX
  let old := (tget (fun _ => (0 : Word)) s.prot.region i).toNat
  let named := s.prot.region.any (fun e => e.1 != i && bit e.2.toNat 29 && bits e.2.toNat 0 13 == bits v 0 13)
  if pinBreaks old v 0 13 || (bit old 30 && bit old 29 != bit v 29) || (bit v 29 && (decide (1024 ≤ bits v 0 13) || named)) ||
      (bit old 30 && !bit v 30 && s.formeRegion i) then (false, s)
  else (true, { s with prot := { s.prot with region := tput (fun _ => (0 : Word)) s.prot.region i (BitVec.ofNat 32 v) } })

/-- A write of REGION_SUB by master `m`. -/
def State.regionSub (s : State) (m v : Nat) : Bool × State :=
  let i := s.rdc (1 + m) REGION_SUBSEL_TABLE * 32 + s.rdc (1 + m) REGION_SUBSEL_SUB
  let old := (tget (fun _ => (0 : Word)) s.prot.sub i).toNat
  if pinBreaks old v 0 18 then (false, s)
  else (true, { s with prot := { s.prot with sub := tput (fun _ => (0 : Word)) s.prot.sub i (BitVec.ofNat 32 v) } })

/-- REGION_ENTRY_WRITE. -/
def execRegionEntryWrite (m v : Nat) (s : State) : Out1 := .next (s.writeCmd m REGION_ENTRY_P.addr v (fun s => s.regionEntry m v))

/-- REGION_SUB_WRITE. -/
def execRegionSubWrite (m v : Nat) (s : State) : Out1 := .next (s.writeCmd m REGION_SUB_P.addr v (fun s => s.regionSub m v))

/-! ## Access tables (R255, R256) -/

/-- A write of ACCESS_CMD by master `m`: the staged entry written, or the selected one read back. -/
def State.accessCmd (s : State) (m v : Nat) : Bool × State :=
  let c := 1 + m
  let target := s.rdc c ACCESS_SEL_TARGET
  let e := s.rdc c ACCESS_SEL_ENTRY
  let s' := if bit v 0 then
      s.setAcc target e ⟨s.reg c ACCESS_E0_EN.addr, s.rdc c ACCESS_E1_BASE, s.rdc c ACCESS_E2_LIMIT⟩
    else s
  let refused := bit v 0 && (e == 63 || decide (s.rdc c ACCESS_E0_MASTER_HI < s.rdc c ACCESS_E0_MASTER_LO) ||
    decide (s.rdc c ACCESS_E2_LIMIT < s.rdc c ACCESS_E1_BASE) || decide (targetSize target ≤ s.rdc c ACCESS_E2_LIMIT * 64) ||
    s.rd ACCESS_CMD_BUSY == 1)
  if refused then (false, s)
  else if bit v 1 then
    let x := s'.accEntry target e
    (true, ((s'.setReg c ACCESS_E0_EN.addr x.e0).setReg c ACCESS_E1_BASE.addr x.e1).setReg c ACCESS_E2_LIMIT.addr x.e2)
  else (true, s')

/-- ACCESS_WRITE (R256). -/
def execAccessWrite (m : Nat) (s : State) : Out1 := .next (s.writeCmd m ACCESS_CMD_WRITE.addr 1 (fun s => s.accessCmd m 1))

/-- ACCESS_READ (R256). -/
def execAccessRead (m : Nat) (s : State) : Out1 := .next (s.writeCmd m ACCESS_CMD_READ.addr 2 (fun s => s.accessCmd m 2))

/-! ## The flip mask (R263) -/

/-- The address of ECC_FLIP_ADDR. -/
def State.flipAddr (s : State) : Nat := s.rd ECC_FLIP_ADDR_LO_ADDR * 4 + s.rd ECC_FLIP_ADDR_HI_ADDR * 2 ^ 32

/-- The flip mask. -/
def State.flipMask (s : State) : Nat := s.rd ECC_FLIP_MASK0_BITS + s.rd ECC_FLIP_MASK1_BITS * 2 ^ 32 + s.rd ECC_FLIP_MASK2_BITS * 2 ^ 64

/-- The memory of a code-word address, by the map alone. -/
def codeWord (a : Nat) : Option (MemId × Nat) :=
  match place a 4 with
  | .mem i off => if off % i.cw = 0 then some (i, off) else none
  | _ => none

/-- A write of ECC_FLIP_CTRL. -/
def State.flipCtrl (s : State) (v : Nat) : Bool × State :=
  if bit v 0 && bit v 1 then (false, s)
  else if bit v 0 then
    match codeWord s.flipAddr with
    | some (i, _) =>
      let n := if i.cw = 8 then 72 else 39
      if s.flipMask = 0 ∨ 2 ^ n ≤ s.flipMask ∨ s.rd ECC_FLIP_CTRL_ARMED = 1 then (false, s)
      else (true, s.wr ECC_FLIP_CTRL_ARMED 1)
    | none => (false, s)
  else if bit v 1 then
    (true, (((s.wr ECC_FLIP_MASK0_BITS 0).wr ECC_FLIP_MASK1_BITS 0).wr ECC_FLIP_MASK2_BITS 0).wr ECC_FLIP_CTRL_ARMED 0)
  else (true, s)

/-- ECC_FLIP_ARM (R263). -/
def execEccFlipArm (m : Nat) (s : State) : Out1 := .next (s.writeCmd m ECC_FLIP_CTRL_ARM.addr 1 (fun s => s.flipCtrl 1))

/-- ECC_FLIP_DISARM (R263). -/
def execEccFlipDisarm (m : Nat) (s : State) : Out1 := .next (s.writeCmd m ECC_FLIP_CTRL_DISARM.addr 2 (fun s => s.flipCtrl 2))

/-! ## Repairs (R267 to R271) -/

/-- An HBM row found hard: its frame is retired (R271). -/
def State.retireFrame (s : State) (a : Nat) : State :=
  let f := a / 0x200000
  if s.health.frames.contains f then s
  else
    let s := { s with health := { s.health with frames := s.health.frames ++ [f], mapDue := true } }
    s.raise EV_HBM_ROW_RETIRED s.heaCore 0 0 a

/-- A fault for which its bank has no free spare (R270): at once for an uncorrectable word, at the tile's next park for another;
a commons granule is retired. -/
def State.exhaust (s : State) (mem inst a : Nat) (uncorr : Bool) : State :=
  let s := s.raise EV_REPAIR_EXHAUSTED s.heaCore 0 0 a
  if mem = 3 then
    { s with health := { s.health with granules := s.health.granules ++ [(a - 0x0800000000) / 65536], mapDue := true } }
  else if uncorr then s.markUnusable inst 4
  else { s with health := { s.health with exhausted := s.health.exhausted ++ [inst] } }

/-- MC3's repair of one word, `bitPos` its failing bit where it is correctable (R269, R270): a column where three hard words in
different rows of the bank share the bit position, else a row. -/
def State.repair (s : State) (a : Nat) (bitPos : Option Nat) : State :=
  match repairPlace a with
  | none => if a < 0x0400000000 then s.retireFrame a else s
  | some (mem, inst, bank, row, word) =>
    let twins := s.health.hardSeen.filter (fun h => decide (2 ^ 40 ≤ h) && (match repairPlace (h % 2 ^ 40), bitPos with
      | some (m2, i2, b2, r2, _), some b => m2 == mem && i2 == inst && b2 == bank && r2 != row && h / 2 ^ 40 == b + 1
      | _, _ => false))
    let rows := (twins.map (fun h => (repairPlace (h % 2 ^ 40)).elim 0 (fun p => p.2.2.2.1))).eraseDups
    let col := bitPos.isSome && decide (2 ≤ rows.length)
    let mine := s.health.ledger.filter (fun e => e.memory == mem && e.inst == inst && e.bank == bank && e.kind == b2n col)
    let fail := if col then word * repairWidth mem + bitPos.getD 0 else row
    if mine.any (fun e => e.fail == fail) then s
    else
      let used := mine ++ s.otp.fuses.filter (fun e => e.memory == mem && e.inst == inst && e.bank == bank && e.kind == b2n col)
      match (List.range (if col then 2 else 4)).find? (fun k => used.all (fun e => e.spare != k)) with
      | none => s.exhaust mem inst a bitPos.isNone
      | some k =>
        let s := { s with health := { s.health with
          ledger := s.health.ledger ++
            [({ memory := mem, inst := inst, bank := bank, kind := b2n col, fail := fail, spare := k } : LedgerEnt)]
          ledgerDue := true
          stopped := if mem = 3 then s.health.stopped ++ [(a - 0x0800000000) / 65536] else s.health.stopped } }
        s.raise EV_REPAIR_RECORDED s.heaCore 0 0 a

/-- Every word that is due for repair, once: found hard, or seen uncorrectable in two reads (R269). -/
def State.repairDue (s : State) : State :=
  let l := s.health.hardSeen
  let fresh := fun (m : List Nat) => (m.filter (fun h => !s.health.handled.contains h)).eraseDups
  let hard := fresh (l.filter (fun h => decide (2 ^ 40 ≤ h)))
  let twice := fresh (l.filter (fun h => decide (h < 2 ^ 40) && decide (2 ≤ (l.filter (fun g => g == h)).length)))
  let s := hard.foldl (fun (s : State) h => s.repair (h % 2 ^ 40) (some (h / 2 ^ 40 - 1))) s
  let s := twice.foldl (fun (s : State) h => s.repair h none) s
  { s with health := { s.health with handled := s.health.handled ++ hard ++ twice } }

/-! ## The scrubber (R264 to R266) -/

/-- The first byte of the range set in the registers. -/
def State.scrubBase (s : State) : Nat := s.rd ECC_SCRUB_BASE_LO_ADDR * 64 + s.rd ECC_SCRUB_BASE_HI_ADDR * 2 ^ 32

/-- The memory and offset that an address lies at, for a scrub. -/
def scrubPlace (a : Nat) : Option (MemId × Nat) :=
  match place a 4 with
  | .mem i off => some (i, off)
  | _ => none

/-- Whether a START is accepted (R264). -/
def State.scrubOk (s : State) : Bool :=
  let a := s.scrubBase
  let n := s.rd ECC_SCRUB_LEN_UNITS * 64
  decide (1 ≤ n) && s.rd ECC_SCRUB_STATUS_BUSY == 0 && (match scrubPlace a, scrubPlace (a + n - 4) with
    | some (i, _), some (j, _) => i == j && (match i with
      | .hbm => (List.range (min 32 (n / 256 + 2))).all (fun k => decide (a + n ≤ a / 256 * 256 + 256 * k) ||
          s.hbmReady (a / 256 * 256 + 256 * k) 1)
      | .commons => true
      | .sram t => !s.unusable t && (s.tile t).st != .parked
      | .gsram t => !s.unusable t && (s.tile t).st != .parked
      | .prog t => !s.unusable t && (s.tile t).st != .parked
      | _ => false)
    | _, _ => false)

/-- One error recorded in the summary (R266). -/
def State.scrubNote (s : State) (a : Nat) (uncorr : Bool) : State :=
  let c := if uncorr then ECC_SCRUB_UNCORR_COUNT else ECC_SCRUB_CORR_COUNT
  let s := if s.rd c = 0xFFFFFFFF then s else s.inc c
  let hi := 2 ^ 31 + b2n uncorr * 2 ^ 30 + a / 2 ^ 32
  let s := if s.rd ECC_SCRUB_FIRST_HI_VALID = 1 then s
    else (s.wr ECC_SCRUB_FIRST_LO_ADDR a).setReg 0 ECC_SCRUB_FIRST_HI_VALID.addr hi
  (s.wr ECC_SCRUB_LAST_LO_ADDR a).setReg 0 ECC_SCRUB_LAST_HI_VALID.addr hi

/-- One code word scrubbed (R265); `hard` names the words whose second read is in error again. -/
def State.scrubWord (s : State) (hard : List Nat) (i : MemId) (w : Nat) : State :=
  let a := i.base + w * i.cw
  if !(s.mem i).isValid i w then s
  else
    match (s.mem i).look i w with
    | .good _ => s
    | .corr v =>
      let s := (s.correct i w v).scrubNote a false
      match hard.find? (fun h => h % 2 ^ 40 == a) with
      | some h =>
        let s := { s with health := { s.health with hardSeen := s.health.hardSeen ++ [a + (h / 2 ^ 40 + 1) * 2 ^ 40] } }
        s.raise EV_ECC_HARD (srcBlock 5) 0 0 a
      | none => s
    | .bad => (s.uncorrectable i w 0xFF).scrubNote a true

/-- `n` code words scrubbed from word `w` on. -/
def State.scrubWords (s : State) (hard : List Nat) (i : MemId) (w : Nat) : Nat → State
  | 0 => s
  | n + 1 => (s.scrubWord hard i w).scrubWords hard i (w + 1) n

/-- The scrub moved on by at most `n` code words. -/
def State.scrubOn (s : State) (x : Scrub) (n : Nat) : State :=
  match scrubPlace x.next with
  | some (i, off) =>
    let k := min n ((x.stop - x.next) / i.cw)
    let s := s.scrubWords x.hard i (off / i.cw) k
    { s with scrub := some { x with next := x.next + k * i.cw } }
  | none => s

/-- The scrub in progress ended. -/
def State.scrubEnd (s : State) (aborted : Bool) : State :=
  let s := ({ s with scrub := none }.wr ECC_SCRUB_STATUS_BUSY 0).wr ECC_SCRUB_STATUS_DONE 1
  let s := if aborted then s.wr ECC_SCRUB_STATUS_ABORTED 1 else s.raise EV_SCRUB_DONE (srcBlock 5) 0 0 0
  s.repairDue

/-- A write of ECC_SCRUB_CTRL; `hard` is what the environment's second reads would find, `words` the code words that the scrub has
come further before an ABORT finds it at one in progress. -/
def State.scrubCtrl (s : State) (v : Nat) (hard : List Nat) (words : Nat := 0) : Bool × State :=
  if bit v 0 ∧ !s.scrubOk then (false, s)
  else
    let s := if bit v 1 then (match s.scrub with
      | some x => (s.scrubOn x (words + 1)).scrubEnd true
      | none => s) else s
    if bit v 0 then
      let s := ((s.wr ECC_SCRUB_CORR_COUNT 0).wr ECC_SCRUB_UNCORR_COUNT 0).wr ECC_SCRUB_FIRST_HI_VALID 0
      let s := (s.wr ECC_SCRUB_LAST_HI_VALID 0).wr ECC_SCRUB_STATUS_BUSY 1
      (true, { s with scrub := some ⟨s.scrubBase, s.scrubBase + s.rd ECC_SCRUB_LEN_UNITS * 64, hard⟩ })
    else (true, s)

/-- SCRUB_START (R264, R266). -/
def execScrubStart (m : Nat) (hard : List Nat) (s : State) : Out1 :=
  .next (s.writeCmd m ECC_SCRUB_CTRL_START.addr 1 (fun s => s.scrubCtrl 1 hard))

/-- SCRUB_ABORT (R265). -/
def execScrubAbort (cut : ScrubCut) (s : State) : Out1 :=
  .next (s.writeCmd cut.m ECC_SCRUB_CTRL_ABORT.addr 2 (fun s => s.scrubCtrl 2 [] cut.words))

/-- SCRUB_DONE (R265): the rest of the range read, to its end. -/
def execScrubDone (s : State) : Out1 :=
  .next (match s.scrub with
    | some x => (s.scrubOn x (x.stop - x.next)).scrubEnd false
    | none => s)

end Sys2Proof.Machine
end

