-- ==== Sys2Proof/Machine/Resets.lean ====
section
/-! DEFINITION. The resets (17 R389 to R393, Tables 17-1 and 17-2): which register fields each kind restores, and what it does to
the rest of State. -/
namespace Sys2Proof.Machine

/-- Strength of a reset kind (00 R11). -/
def RKind.strength : RKind → Nat
  | .mcr => 0
  | .block => 1
  | .warm => 2
  | .cold => 3
  | .por => 4
  | .fixed => 5

/-- The word of a register after a reset of strength `n`. -/
def RegD.afterReset (r : RegD) (n w : Nat) : Nat :=
  r.fields.foldl (fun w f => if f.kind.strength ≤ n then setBits w f.lo (f.hi - f.lo + 1) f.reset else w) w

/-- The stored word of a key after a reset of strength `n`. -/
def keyAfterReset (n key : Nat) (w : Word) : Word :=
  match regAt (key % 0x10000000000) with
  | some r => BitVec.ofNat 32 (r.afterReset n w.toNat)
  | none => w

/-- Every register whose key satisfies `p` reset with strength `n`. -/
def State.resetRegs (s : State) (n : Nat) (p : Nat → Bool) : State :=
  { s with regs := s.regs.filterMap (fun e =>
      let w := if p e.1 then keyAfterReset n e.1 e.2 else e.2
      if w = regReset e.1 then none else some (e.1, w)) }

/-- The units whose self-test a reset ends are recorded UNTESTED (R401). -/
def State.endTests (s : State) : State :=
  (s.pwr.testing ++ s.pwr.queue.map (fun e => e.1)).foldl (fun (s : State) u =>
    { s with health := { s.health with units := modAt s.health.units u (fun x => if x.1 = 2 then x else (1, 0)) } }) s

/-- What every reset of the whole device does (R391, Table 17-2), the registers reset with strength `n`: galleys, tiles, fabric,
slots, contexts, tables, quoins, sessions and time return to their reset state, the memories on the die are cleared, and HBM,
flash, the key store, the log and what has left the device stay. -/
def State.wipe (s : State) (n : Nat) : State :=
  let s := s.resetRegs n (fun _ => true)
  let ports := [125, 126].filter (fun d => s.rd (NET_CFG_MODE.net (d - 125)) != 0)
  { State.reset with
    pending := s.pending
    freeCtr := s.freeCtr
    resp := s.resp
    regs := s.regs
    hbm := s.hbm
    flash := s.flash
    msram := s.msram
    net := if n ≤ 2 then s.net.map (fun (x : NetPort) => { seqs := x.seqs, ident := x.ident }) else List.replicate 2 {}
    io := { s.io with since := List.replicate 4 0 }
    host := { out := s.host.out }
    log := { s.log with last := [] }
    otp := s.otp
    health := s.health
    fw := { bootSel := s.fw.bootSel }
    pwr := { on := ports.map (fun d => (d, true)), resetLow := s.pwr.resetLow } }

/-- A warm reset by master `m` (R391): the ROM restarts at step 3, the identity key, debug mode and the health records stay. -/
def State.warmReset (s : State) (m : Nat) : State :=
  let s := s.endTests
  let w := s.wipe 2
  let w := { w with fw := { w.fw with fresh := false, attKey := s.fw.attKey, debugUsed := s.fw.debugUsed } }
  w.setReg 0 SYS_RESET_CAUSE_KIND.addr (m * 2 ^ 8 + 2)

/-- A cold reset (R389, R391): as a warm one, and the ROM starts at step 1. -/
def State.coldReset (s : State) (refclk : Bool) : State :=
  let w := s.endTests.wipe 3
  { w with health := {} }.setReg 0 SYS_RESET_CAUSE_KIND.addr (b2n refclk * 4 + 1)

/-- A power-on reset (R389): HBM and the management SRAM are lost too, and the log starts anew. -/
def State.powerReset (s : State) : State :=
  let w := s.wipe 4
  { w with health := {}, hbm := {}, msram := {}, log := { powerOns := s.log.powerOns + 1 } }

/-- POWER_ON_RESET (R389). -/
def execPowerOnReset (s : State) : Out1 := .next s.powerReset

/-- RESET_N (R414): low for `lowNs`, and still low where `held`; a low level shorter than 1 µs is ignored. BOOT_SEL is sampled when
the reset ends. -/
def execResetN (lowNs bootSel : Nat) (held : Bool) (s : State) : Out1 :=
  .next (if lowNs < 1000 ∧ !s.pwr.resetLow then s
    else
      let s := s.coldReset false
      { s with pwr := { s.pwr with resetLow := held }, fw := { s.fw with bootSel := if held then s.fw.bootSel else bootSel % 4 } })

/-- REFCLK_LOSS (R415): a stop of more than 10 µs acts as a cold reset. -/
def execRefclkLoss (ns : Nat) (s : State) : Out1 := .next (if 10000 < ns then s.coldReset true else s)

/-- A write of SYS_RESET by master `m` (Table 17-10), discarded while RESET_N is low (R390); OFF_READY ends only with a cold or
power-on reset (R404), and a warm reset waits for the flash write of a live update (R390). -/
def State.sysReset (s : State) (m v : Nat) : Bool × State :=
  if !bit v 0 ∨ s.pwr.resetLow then (true, s)
  else if bits v 16 16 ≠ 0x5752 then (false, s)
  else if s.power = 6 then (true, s)
  else if s.fw.upd.any (fun u => u.step == 7) then (true, { s with pwr := { s.pwr with warmDue := some (s.pwr.warmDue.getD m) } })
  else (true, s.warmReset m)

/-- SYS_RESET (R391). -/
def execSysReset (m v : Nat) (s : State) : Out1 := .next (s.writeCmd m SYS_RESET_GO.addr v (fun s => s.sysReset m v))

/-! ## Block reset (R392) -/

/-- The registers that belong to the unit of a domain, by key; none where a domain's unit has no registers of its own. To a tile belong
the copies of STREAM_GCFG and STREAM_GLIMIT of its galleys (12 Table 12-10). -/
def domainKey (d key : Nat) : Bool :=
  let a := key % 0x10000000000
  let c := key / 0x10000000000
  let blk := fun (b : Nat) => decide (0x0A00000000 + 0x10000 * b ≤ a) && decide (a < 0x0A00000000 + 0x10000 * (b + 1))
  if d < 104 then (decide (0x09001F0000 + 0x200000 * d ≤ a) && decide (a < 0x0900200000 + 0x200000 * d)) ||
    ((a == STREAM_GCFG_PKT.addr || a == STREAM_GLIMIT_MAX_BYTES.addr) && decide (1 + galKey 0 d 0 ≤ c) &&
      decide (c ≤ 1 + galKey 0 d 11))
  else if d = 124 then blk 4
  else if d = 125 then blk 9 && decide (a < 0x0A00091000) || (blk 9 && decide (0x0A00092000 ≤ a))
  else if d = 126 then blk 10
  else if d = 127 then blk 12 || blk 13
  else false

/-- The tile of a block reset: its core, platen, ports, tags and copier jobs as after reset; SRAM and the forme's number stay. -/
def Tile.blockReset (x : Tile) : Tile :=
  { sram := x.sram, gsram := x.gsram, prog := x.prog, imp := x.imp, logical := x.logical }

/-- What a block reset does to the unit of domain `d` beside its registers. -/
def State.unitReset (s : State) (d : Nat) : State :=
  if d < 104 then s.modTile d Tile.blockReset
  else if 107 ≤ d ∧ d < 123 then
    let mine := fun (c : Nat) => s.rdc (1 + c) NET_CTX_CFG_EN == 1 && s.rdc (1 + c) NET_CTX_DEC_DEC == d - 107 &&
      s.rdc (1 + c) NET_CTX_CFG_PAYLOAD != 2
    let at' := s.decNext (d - 107)
    { s with
      decQ := modAt s.decQ (d - 107) (fun (l : List Nat) => l.filter (fun i => some i != at'))
      ctxs := s.ctxs.map (fun e => if mine e.1 ∧ e.2.ing.st ≠ 0 then
        (e.1, { e.2 with
          bufs := match e.2.ing.part with
            | some (some b) => setAt e.2.bufs b .free
            | _ => e.2.bufs
          ing := { e.2.ing with
            st := 1, part := none, aus := e.2.ing.aus.filter (fun (u : Au) => some (u.seq * 4096 + e.1) != at') } }) else e) }
  else if d = 125 ∨ d = 126 then
    s.modNet (d - 125) (fun x => { seqs := x.seqs, ident := x.ident })
  else if d = 127 then { s with burl := {}, sport := {} }
  else s

/-- A write of PWR_BLOCK_RESET by master `m`: the unit's fields, and every field marked MCR, return to their reset values. -/
def State.blockResetCmd (s : State) (m v : Nat) : Bool × State :=
  let d := bits v 0 7
  let role := decide (104 ≤ d) && decide (d < 107) &&
    (s.rd LOAD_FE_ROLE_INPUT == d - 104 || s.rd LOAD_FE_ROLE_OUTPUT == d - 104)
  let held := decide (d < 104) && s.rd (TILE_CFG_HELD.tile d) == 1
  if m < 0x60 ∨ 0x64 < m ∨ role ∨ held then (false, s)
  else if !s.domainOn d then (true, s)
  else (true, ((s.unitReset d).resetRegs 1 (domainKey d)).resetRegs 0 (fun _ => true))

/-- PWR_BLOCK_RESET (R392). -/
def execPwrBlockReset (m v : Nat) (s : State) : Out1 :=
  .next (s.writeCmd m PWR_BLOCK_RESET_DOMAIN.addr v (fun s => s.blockResetCmd m v))

end Sys2Proof.Machine
end

