-- ==== Sys2Proof/WellFormed.lean ====
section
/-! DEFINITION. Well-formed commands: an operand that names a part of the device names one that exists (Table 0-1, 00 R6),
an operand that is a register word fits 32 bits, and an address fits the 64 bits of a request (Table 15-3). The meanings are
total: a command that is not well formed changes nothing or is answered with a bus error. -/
namespace Sys2Proof

/-- A tile number (R6: 104 tiles). -/
def tileNo (t : Nat) : Bool := decide (t < 104)

/-- A master ID (Table 11-8: 8 bits). -/
def masterNo (m : Nat) : Bool := decide (m < 256)

/-- A register word. -/
def wordFits (v : Nat) : Bool := decide (v < 2 ^ 32)

/-- A bus address. -/
def addrFits (a : Nat) : Bool := decide (a < 2 ^ 64)

/-- A forme slot (8 slots). -/
def slotNo (k : Nat) : Bool := decide (k < 8)

/-- A context (4,096 contexts). -/
def ctxNo (c : Nat) : Bool := decide (c < 4096)

/-- A quoin (131,072 quoins). -/
def quoinNo (i : Nat) : Bool := decide (i < 2 ^ 17)

/-- A node of the control routes that exists. -/
def Node.wf : Node → Bool
  | .tile t => tileNo t
  | .fe => true
  | .steer sw k => tileNo sw && decide (k < 4)
  | .spill slot _ => slotNo slot

/-- A request's header: a TAG of 16 bits, and a source of 6 bytes (Tables 15-3, 15-12). -/
def HostHdr.wf (h : HostHdr) : Bool := decide (h.tag < 2 ^ 16) && decide (h.src < 2 ^ 48)

/-- A record's header fields fit their bytes (R318). -/
def SpRec.wf (r : SpRec) : Bool := decide (r.ch < 256) && decide (r.seq < 65536) && wordFits r.crc

/-- A packet type of Table 12-6; the others are reserved, and no galley is given one. -/
def packetType (ty : Nat) : Bool := decide (ty ≤ 0x11) || (decide (0x20 ≤ ty) && decide (ty ≤ 0x23))

/-- A record, or words of at most four lanes with 2-bit headers and 64 bits each (R316). -/
def SpIn.wf : SpIn → Bool
  | .record r => r.wf
  | .words l => decide (l.length ≤ 4) && l.all (fun w => w.all (fun b => decide (b.1 < 4) && decide (b.2 < 2 ^ 64)))

/-- A command that is well formed. -/
def Instr.wf : Instr → Bool
  | .registerWrite m addr v => masterNo m && addrFits addr && wordFits v
  | .rcRead m addr => masterNo m && addrFits addr
  | .loadStart r => masterNo r.m && decide (r.pause.getD 0 ≤ 4)
  | .loadUnload m => masterNo m
  | .formeUnloaded slot => slotNo slot
  | .formeRelock slot => slotNo slot
  | .frameStart d c => d.wf && decide (c.flip < 2 ^ 17)
  | .frameTicket d c => d.wf && decide (c.flip < 2 ^ 17)
  | .frameEnd d c => d.wf && decide (c.flip < 2 ^ 17)
  | .frameEndAborted d c => d.wf && decide (c.flip < 2 ^ 17)
  | .tileFrameEnd t => tileNo t
  | .endOfStream d c => d.wf && decide (c.flip < 2 ^ 17)
  | .tagReset d c => d.wf && decide (c.flip < 2 ^ 17)
  | .abort d c => d.wf && decide (c.flip < 2 ^ 17)
  | .add t _ _ _ => tileNo t
  | .sub t _ _ _ => tileNo t
  | .and t _ _ _ => tileNo t
  | .or t _ _ _ => tileNo t
  | .xor t _ _ _ => tileNo t
  | .sll t _ _ _ => tileNo t
  | .srl t _ _ _ => tileNo t
  | .sra t _ _ _ => tileNo t
  | .mul t _ _ _ => tileNo t
  | .mulhs t _ _ _ => tileNo t
  | .mulhu t _ _ _ => tileNo t
  | .min t _ _ _ => tileNo t
  | .max t _ _ _ => tileNo t
  | .minu t _ _ _ => tileNo t
  | .maxu t _ _ _ => tileNo t
  | .slt t _ _ _ => tileNo t
  | .sltu t _ _ _ => tileNo t
  | .addi t _ _ _ => tileNo t
  | .andi t _ _ _ => tileNo t
  | .ori t _ _ _ => tileNo t
  | .xori t _ _ _ => tileNo t
  | .slli t _ _ _ => tileNo t
  | .srli t _ _ _ => tileNo t
  | .srai t _ _ _ => tileNo t
  | .lui t _ _ => tileNo t
  | .lw t _ _ _ => tileNo t
  | .sw t _ _ _ => tileNo t
  | .lc t _ _ => tileNo t
  | .mfs t _ _ => tileNo t
  | .mts t _ _ => tileNo t
  | .agwWrite t _ _ _ => tileNo t
  | .agwReset t _ => tileNo t
  | .agwRestore t _ => tileNo t
  | .loopi t _ _ => tileNo t
  | .loopc t _ _ => tileNo t
  | .loopEnd t => tileNo t
  | .br t _ => tileNo t
  | .blc t _ _ _ _ => tileNo t
  | .bck t _ _ _ => tileNo t
  | .endf t => tileNo t
  | .vadd t _ => tileNo t
  | .vsub t _ => tileNo t
  | .vmul t _ => tileNo t
  | .vmin t _ => tileNo t
  | .vmax t _ => tileNo t
  | .vand t _ => tileNo t
  | .vor t _ => tileNo t
  | .vxor t _ => tileNo t
  | .vmov t _ => tileNo t
  | .vmac t _ => tileNo t
  | .vdup t _ => tileNo t
  | .vshl t _ => tileNo t
  | .vsrl t _ => tileNo t
  | .vsra t _ => tileNo t
  | .vsrar t _ => tileNo t
  | .vwiden t _ => tileNo t
  | .vnarrow t _ => tileNo t
  | .vcvtf t _ => tileNo t
  | .vcvti t _ => tileNo t
  | .vact t _ => tileNo t
  | .vfcvt t _ => tileNo t
  | .vld t _ _ => tileNo t
  | .vst t _ _ _ => tileNo t
  | .vbc t _ _ _ => tileNo t
  | .fire t _ => tileNo t
  | .fireIssue t => tileNo t
  | .pfmt t _ _ _ => tileNo t
  | .wld t _ _ => tileNo t
  | .wswp t => tileNo t
  | .pscl t _ _ => tileNo t
  | .pbias t _ => tileNo t
  | .pscs t _ _ => tileNo t
  | .req t _ => tileNo t
  | .cclr t _ => tileNo t
  | .cpy t _ => tileNo t
  | .copierJob u => tileNo u.t && decide (1 ≤ u.units)
  | .cpyw t => tileNo t
  | .qopSignal t _ _ _ => tileNo t
  | .qopWait t _ _ _ => tileNo t
  | .qopTest t _ _ _ => tileNo t
  | .qopReset t _ _ _ => tileNo t
  | .gdrop t _ => tileNo t
  | .nop t => tileNo t
  | .tileHalt m t => masterNo m && tileNo t
  | .tileStep m t => masterNo m && tileNo t
  | .tileResume m t => masterNo m && tileNo t
  | .tileClear m t => masterNo m && tileNo t
  | .tokenArrival t port _ => tileNo t && decide (port < 8)
  | .loopTokenLanding t p => tileNo t && decide (p.port < 8)
  | .galleyEgress _ => true
  | .creditReturn _ _ => true
  | .steeringFire x k => tileNo x && decide (k < 4)
  | .deadlockSuspect slot => slotNo slot
  | .scaleWatchReport => true
  | .scaleSlotFlip => true
  | .feInputFrame => true
  | .feOutputFrame => true
  | .facingFault e => decide (e < 3)
  | .roundOpen slot => slotNo slot
  | .roundEnd slot => slotNo slot
  | .spillDone slot _ => slotNo slot
  | .refillStart slot _ => slotNo slot
  | .tileReconfigure t => tileNo t
  | .governorWindow _ _ _ => true
  | .admissionDecision => true
  | .admitWaitExpired => true
  | .deadlineExpired _ => true
  | .thermalShed _ => true
  | .timeStep m v => masterNo m && wordFits v
  | .regionEntryWrite m v => masterNo m && wordFits v
  | .regionSubWrite m v => masterNo m && wordFits v
  | .accessWrite m => masterNo m
  | .accessRead m => masterNo m
  | .eccFlipArm m => masterNo m
  | .eccFlipDisarm m => masterNo m
  | .scrubStart m _ => masterNo m
  | .scrubAbort x => masterNo x.m
  | .scrubDone => true
  | .streamStart m e => masterNo m && decide (e < 36)
  | .streamStop m e => masterNo m && decide (e < 36)
  | .streamResume m e => masterNo m && decide (e < 36)
  | .streamSkip m e => masterNo m && decide (e < 36)
  | .streamKick m e => masterNo m && decide (e < 36)
  | .streamWaitq e => decide (e < 36)
  | .streamDescDone e => decide (e < 36)
  | .streamPageAbsent e => decide (e < 36)
  | .streamDescError f => decide (f.e < 36)
  | .mergeTransfer c => decide (c < 4)
  | .galleyDrop m => masterNo m
  | .galleyReset m => masterNo m
  | .ingressGalleyWrite g _ _ way => decide (g < 16) && packetType way.ty
  | .netCfgWrite m port v => masterNo m && decide (port < 2) && wordFits v
  | .netLinkChange port link _ _ => decide (port < 2) && decide (link < 4)
  | .netFrameReceive port link way _ => decide (port < 2) && decide (link < 4) && decide (way.held ≤ 524288)
  | .auRelease ctx => ctxNo ctx
  | .jitterBufferCheck => true
  | .auDecode d _ => decide (d < 16)
  | .pictureWhole ctx => ctxNo ctx
  | .ptpSend m port v => masterNo m && decide (port < 2) && wordFits v
  | .ptpTxDone port => decide (port < 2)
  | .ptpRxqPop m port => masterNo m && decide (port < 2)
  | .timePps => true
  | .resultDatagramSend port g => decide (port < 2) && decide (g < 256)
  | .ctxCfgWrite m off v => masterNo m && decide (off % 4 = 0) && decide (off < 65536) && wordFits v
  | .sportLinkChange _ => true
  | .sportRecordReceive x => x.wf
  | .sportRecTimeout => true
  | .sportRecordSend g => decide (g < 256)
  | .spXoffIn _ => true
  | .sportXoffStuck => true
  | .burlLoad m => masterNo m
  | .burlRelease m => masterNo m
  | .burlUnload m => masterNo m
  | .burlGalleyPacket q => decide (q < 8)
  | .burlBridgeTimeout q => decide (q < 8)
  | .burlPictureWhole q => decide (q < 8)
  | .burlCaptureArm m v => masterNo m && wordFits v
  | .burlCaptureDone => true
  | .ioInputChange c _ => decide (c < 32)
  | .bankSupplyChange g v => decide (g < 4) && decide (v < 3)
  | .sessionOpen h version => h.wf && wordFits version
  | .sessionClose h => h.wf
  | .regRead h addr _ => h.wf && addrFits addr
  | .regWrite h addr words => h.wf && addrFits addr && words.all wordFits
  | .memRead h addr _ => h.wf && addrFits addr
  | .memWrite h addr _ => h.wf && addrFits addr
  | .quoin h i op operand timeout => h.wf && wordFits i && decide (op < 256) && wordFits operand && wordFits timeout
  | .quoinRequestTimeout _ => true
  | .eventMask h mask => h.wf && wordFits mask
  | .mgmtSessionTimeout => true
  | .usbBusReset _ => true
  | .usbEventTransfer => true
  | .mgmtEventDatagram => true
  | .usbResultTransfer => true
  | .eventsLost _ => true
  | .quoinSignal m i n => masterNo m && quoinNo i && wordFits n
  | .quoinTest m i => masterNo m && quoinNo i
  | .quoinReset m i v => masterNo m && quoinNo i && wordFits v
  | .quoinWaitSuccess i => quoinNo i
  | .ctxBind m => masterNo m
  | .ctxStart m => masterNo m
  | .ctxStop m => masterNo m
  | .ctxUnbind m => masterNo m
  | .contextStopped ctx => ctxNo ctx
  | .usbCtrlWrite m v => masterNo m && wordFits v
  | .mgmtCfgWrite m v => masterNo m && wordFits v
  | .mgmtAddrWrite m off v => masterNo m && (decide (off = 8) || decide (off = 12) || decide (off = 16)) && wordFits v
  | .boot _ => true
  | .recoveryStart => true
  | .fwUpdateStart r => masterNo r.m
  | .fwCommit m => masterNo m
  | .fwFlashWrite m _ => masterNo m
  | .mcRestart core _ => decide (core < 5)
  | .ledgerWriteRetry _ => true
  | .attest m => masterNo m
  | .attestDone => true
  | .debugUnlock m => masterNo m
  | .powerOnReset => true
  | .resetN _ bootSel _ => decide (bootSel < 4)
  | .refclkLoss _ => true
  | .sysReset m v => masterNo m && wordFits v
  | .pwrBlockReset m v => masterNo m && wordFits v
  | .pwrBudgetWrite m v => masterNo m && wordFits v
  | .pwrSlotPark m v => masterNo m && wordFits v
  | .tilePark t => tileNo t
  | .bistGroupStart => true
  | .bistDone u r => decide (u < 133) && decide (r.cause ≤ 8) && r.lanes.all (fun l => decide (l.1 < 16)) &&
    r.rows.all (fun f => decide (f < 8192))
  | .bistWaitTimeout u => decide (u < 133)
  | .pwrRetain m => masterNo m
  | .retainEnter => true
  | .pwrRun m => masterNo m
  | .pwrShutdown m => masterNo m
  | .pmbusPoll _ => true
  | .pwrTrip _ => true
  | .tripAutoReturn _ => true
  | .steer d c => d.wf && decide (c.flip < 2 ^ 17)
  | .sportLaneLock lane _ => decide (lane < 4)
  | .sportAbortBlock => true
  | .burlClockEdge clk => decide (clk < 4)
  | .usbAttach _ speed _ => decide (speed < 5)
  | .mgmtLinkChange _ speed => decide (speed < 3)
  | .dhcpLease ip mask gw => wordFits ip && wordFits mask && wordFits gw
  | .tapInstruction _ => true
  | .funcReady b n => decide (b < 32) && decide (n < 104)

end Sys2Proof
end

