-- ==== Sys2Proof/Machine/GalleyWrite.lean ====
section
/-! DEFINITION. Writers of ingress and result galleys: assembly of packets, truncation and overflow (12 R283 to R286), and the DROP
and RESET commands (R287, R290). -/
namespace Sys2Proof.Machine

/-- One of the counters of a galley raised. -/
def State.galCount (s : State) (kind t n : Nat) (f : Fld) : State := s.incc (1 + galKey kind t n) f

/-- The packet being assembled is complete: its length word goes into its header slot, the rest of its slots is zero, and its slots
become readable (R284, R285); a packet of which nothing is held leaves nothing. False where a word could not be written. -/
def State.finishAsm (s : State) (kind n : Nat) (drop : Bool) (m : Nat) : Bool × State :=
  let c := s.cgalCfg kind n
  let g := s.cgal kind n
  match g.asm with
  | none => (true, s)
  | some a =>
    if a.len = 0 then (true, s.modCgal kind n (fun x => { x with asm := none }))
    else
      let k := packetSlots 4 c.pad a.len
      let trunc := decide (0 < a.dropped)
      let w := s.ringWrite kind n (4 * g.wptr) (leBytes 4 (lengthWord trunc drop a.ty a.len)) m
      let z := w.2.ringWrite kind n (4 * g.wptr + a.len) (zeros (4 * k - a.len)) m
      let s := z.2.modCgal kind n (fun x => { x with
        wptr := if c.cap = 0 then 0 else (x.wptr + k) % (c.cap / 4)
        pkts := x.pkts ++ [⟨k, a.len, 0, false⟩]
        asm := none })
      let s := s.watermark kind n
      (w.1 && z.1, if trunc then
          (s.galCount kind 0 n STREAM_GCNT_TRUNC_COUNT).raise EV_GALLEY_TRUNCATED (srcBlock 8) n a.dropped 0
        else s)

/-- The packet being assembled closed early with what it holds, the rest of it to be discarded on arrival (R286, R287). -/
def State.cutAsm (s : State) (kind n m : Nat) : Bool × State :=
  let f := s.finishAsm kind n true m
  let s := f.2.galCount kind 0 n STREAM_GCNT_DROP_COUNT
  (f.1, s.modCgal kind n (fun x => { x with asm := some { len := 0, discard := true } }))

/-- What a write that was carried out answers: whether every word of it could be written. -/
def putEnd (ok : Bool) : PutEnd := if ok then .done else .failed

/-- Bytes of a packet being assembled, the ones before it included, for which galley `n` has slots. -/
def State.asmRoom (s : State) (kind n : Nat) (a : Asm) : Nat :=
  let c := s.cgalCfg kind n
  let free := c.cap - ((s.cgal kind n).level - 4 * ceilDiv a.len 4)
  if c.en then free / 4 / c.pad * c.pad * 4 else 0

/-- Bytes added to a galley in packet mode whose packet being assembled is `a` (R285, R286); a writer that need not wait loses the words
that find no slot, and the packet is closed with those that do. `last` is the writer's end of packet. -/
def State.asmWrite (s : State) (kind n : Nat) (a : Asm) (bs : List Byte) (last wait : Bool) (m : Nat) : PutEnd × State :=
  let c := s.cgalCfg kind n
  let at' := 4 * (s.cgal kind n).wptr + a.len
  if a.discard ∧ a.len = 0 then
    (.done, s.modCgal kind n (fun x => { x with asm := if last then none else some a }))
  else
    let max := c.max / 4 * 4
    let keep := if a.discard then [] else if c.max < a.len + bs.length then bs.take (max - a.len) else bs
    let drop := bs.length - keep.length
    let room := s.asmRoom kind n a
    if keep ≠ [] ∧ room < a.len + keep.length then
      if wait then (.waits, s)
      else
        let part := keep.take (room - a.len)
        let w := s.ringWrite kind n at' part m
        let s := w.2.modCgal kind n (fun x => { x with asm := some { a with len := a.len + part.length } })
        let f := s.cutAsm kind n m
        let s := f.2.raise EV_GALLEY_OVERFLOW (srcBlock 8) n 0 0
        (putEnd (w.1 && f.1), s.modCgal kind n (fun x => { x with asm := if last then none else x.asm }))
    else
      let w := s.ringWrite kind n at' keep m
      let s := w.2.modCgal kind n (fun x => { x with asm := some { a with
        len := a.len + keep.length, dropped := a.dropped + drop, discard := a.discard || decide (0 < drop) } })
      let f := if last then s.finishAsm kind n false m else (true, s.watermark kind n)
      (putEnd (w.1 && f.1), f.2)

/-- Bytes written into galley `n` of a kind by its writer `m`, as packets of type `ty` where it is in packet mode (R283, R285,
R286). -/
def State.galleyPut (s : State) (kind n : Nat) (bs : List Byte) (last wait : Bool) (ty m : Nat) : PutEnd × State :=
  let c := s.cgalCfg kind n
  let g := s.cgal kind n
  let free := if c.en then s.cgalFree kind n / 4 * 4 else 0
  if c.pkt then s.asmWrite kind n (g.asm.getD { len := 0, ty := ty }) bs last wait m
  else if wait ∧ free < bs.length then (.waits, s)
  else
    let bs := bs.take free
    let k := ceilDiv bs.length 4
    let w := s.ringWrite kind n (4 * g.wptr) (bs ++ zeros (4 * k - bs.length)) m
    let s := w.2.modCgal kind n (fun x => { x with
      wptr := if c.cap = 0 then 0 else (x.wptr + k) % (c.cap / 4), raw := x.raw + 4 * k })
    (putEnd w.1, s.watermark kind n)

/-! ## Pointer checking (R289) -/

/-- The copies of a pointer of an ingress or result galley differ: what it holds is lost and counted, the rest of a packet being
assembled is discarded as it comes, and the pointers stand at the start of bank 0 (R289, R290). -/
def State.galleyMismatch (s : State) (kind n : Nat) : State :=
  let g := s.cgal kind n
  let lost := g.pkts.length + (if g.asm.any (fun a => decide (0 < a.len)) then 1 else 0)
  let s := s.modCgal kind n (fun x => { mismatch := true, lastDrop := x.lastDrop, dropped := x.dropped, seq := x.seq
                                        asm := x.asm.map (fun a => { len := 0, discard := true, ty := a.ty }) })
  let s := (List.range lost).foldl (fun (s : State) _ => s.galCount kind 0 n STREAM_GCNT_DROP_COUNT) s
  (s.watermark kind n).raise EV_GALLEY_PTR_MISMATCH (srcBlock 8) n 0 0

/-- Bytes of a galley that a reader may take now: whole packets, or all bytes outside packet mode (R285). -/
def State.galleyReadable (s : State) (kind n : Nat) : Nat :=
  let g := s.cgal kind n
  listSum (g.pkts.map (fun (p : Pkt) => 4 * p.slots - p.drained)) + g.raw

/-- `k` bytes of slots leave the packets at the head of a galley. -/
def takeBytes (k : Nat) : List Pkt → Nat × List Pkt
  | [] => (k, [])
  | p :: ps =>
    let here := 4 * p.slots - p.drained
    if k < here then (0, { p with drained := p.drained + k } :: ps)
    else takeBytes (k - here) ps

/-- `k` bytes taken from the head of a galley by reader `m`, none where a slot is uncorrectable; its slots are freed. -/
def State.galleyTake (s : State) (kind n k m : Nat) : Option (List Byte) × State :=
  let c := s.cgalCfg kind n
  let g := s.cgal kind n
  let off := match g.pkts with
    | p :: _ => p.drained
    | [] => 0
  let r := s.ringRead kind n (4 * g.rptr + off) k m
  let t := takeBytes k g.pkts
  let off' := match t.2 with
    | p :: _ => p.drained
    | [] => 0
  let s := r.2.modCgal kind n (fun x => { x with
    rptr := if c.cap = 0 then 0 else ((4 * x.rptr + off + k - off') / 4) % (c.cap / 4)
    pkts := t.2, raw := x.raw - t.1 })
  (r.1, s.watermark kind n)

/-- INGRESS_GALLEY_WRITE (R286): words from an external writer that cannot wait; none comes with a reserved TYPE (Table 12-6). -/
def execIngressGalleyWrite (g : Nat) (data : List Byte) (last : Bool) (way : IngressIn) (s : State) : Out1 :=
  .next (if g < 16 ∧ packetType way.ty then
      let s := (s.galleyPut 1 g data last false way.ty 0x38).2
      if way.ptrBad then s.galleyMismatch 1 g else s
    else s)

/-! ## Commands of the selected galley -/

/-- What DROP does to the selected galley (R287). -/
def State.galleyDrop (s : State) (kind t n : Nat) : State :=
  if kind = 0 then
    if n < 8 then
      let r := s.dropPacket t n
      if r.1 then r.2.galCount 0 t n STREAM_GCNT_DROP_COUNT else r.2
    else if (s.portCfg t n).pkt ∧ 0 < ((s.tile t).ports.gal n).asm then
      (s.closePacket t n true).galCount 0 t n STREAM_GCNT_DROP_COUNT
    else s
  else if (s.cgalCfg kind n).pkt ∧ ((s.cgal kind n).asm.any (fun a => decide (0 < a.len))) then
    (s.cutAsm kind n (if kind = 1 then 0x38 else s.outMaster)).2
  else s

/-- What RESET does to the selected galley; false where it is enabled (R290). -/
def State.galleyReset (s : State) (kind t n : Nat) : Bool × State :=
  if kind = 0 then
    if (s.portCfg t n).en then (false, s) else (true, s.emptyGalley t n)
  else if (s.cgalCfg kind n).en then (false, s)
  else (true, s.modCgal kind n (fun x => { mismatch := x.mismatch, lastDrop := x.lastDrop, dropped := x.dropped, seq := x.seq }))

/-- A write of STREAM_GCMD by master `m`. -/
def State.galleyCmd (s : State) (m v : Nat) : Bool × State :=
  let c := 1 + m
  let kind := s.rdc c STREAM_GSEL_KIND
  let t := s.rdc c STREAM_GSEL_TILE
  let n := s.rdc c STREAM_GSEL_NUM
  let s' := if bit v 0 then s.galleyDrop kind t n else s
  if bit v 1 then
    let r := s'.galleyReset kind t n
    if r.1 then r else (false, s)
  else (true, s')

/-- GALLEY_DROP. -/
def execGalleyDrop (m : Nat) (s : State) : Out1 :=
  .next (s.writeCmd m STREAM_GCMD_DROP.addr 1 (fun s => s.galleyCmd m 1))

/-- GALLEY_RESET. -/
def execGalleyReset (m : Nat) (s : State) : Out1 :=
  .next (s.writeCmd m STREAM_GCMD_RESET.addr 2 (fun s => s.galleyCmd m 2))

end Sys2Proof.Machine
end

