-- ==== Sys2Proof/Machine/Sport.lean ====
section
/-! DEFINITION. The stream port (14 R317 to R324): link, records received and their errors, and egress. -/
namespace Sys2Proof.Machine

/-! ## Burl queues as the stream port fills them (R331) -/

/-- Queue `q`. -/
def State.bq (s : State) (q : Nat) : BQueue := s.burl.q.getD q {}

/-- Queue `q` changed. -/
def State.modQ (s : State) (q : Nat) (f : BQueue → BQueue) : State :=
  { s with burl := { s.burl with q := modAt s.burl.q q f } }

/-- A field of the registers of queue `q`. -/
def State.qf (s : State) (q : Nat) (f : Fld) : Nat := s.rdc (1 + q) f

/-- A word with its tag pushed at the tail. -/
def BQueue.push (x : BQueue) (w tag : Nat) : BQueue :=
  { x with mem := tput (fun _ => 0) x.mem ((x.rptr + x.level) % 4096) (w % 2 ^ 32 + tag * 2 ^ 32), level := x.level + 1 }

/-- The word at the head, data and tag. -/
def BQueue.head (x : BQueue) : Nat × Nat :=
  let w := tget (fun _ => 0) x.mem x.rptr
  (w % 2 ^ 32, w / 2 ^ 32)

/-- The head popped. -/
def BQueue.pop (x : BQueue) : BQueue := { x with rptr := (x.rptr + 1) % 4096, level := x.level - 1 }

/-- The XOFF state of queue `q` after its level has changed (R321). -/
def State.qWater (s : State) (q : Nat) : State :=
  if s.qf q BURL_QCFG_MODE = 1 then
    let hi := s.qf q BURL_QWM_HI
    let lo := s.qf q BURL_QWM_LO
    s.modQ q (fun x => { x with xoff := decide (hi ≤ x.level) || (decide (lo < x.level) && x.xoff) })
  else s

/-! ## Link -/

/-- Lanes in use. -/
def State.lanes (s : State) : Nat := 2 ^ s.rd SPORT_CFG_LANES

/-- An error of the receive path: counted, and reported at most once per millisecond (R320). -/
def State.spError (s : State) (i : Nat) : State :=
  (s.inc (SPORT_CNT_COUNT.idx i)).raiseOnce 0x60000 1000000 EV_SPORT_RECORD_ERROR (srcBlock 12) 0 0 0

/-- The destination of a channel: galley or queue. -/
def State.spGalley (s : State) (ch : Nat) : Option Nat :=
  if s.rd (SPORT_CH_DEST.idx ch) = 0 then some (s.rd (SPORT_CH_GALLEY.idx ch)) else none

/-- The record in progress withdrawn: nothing of it stays in its destination (R320). -/
def State.spWithdraw (s : State) (i : Nat) : State :=
  match s.sport.cur with
  | none => s
  | some r =>
    let s := { s with sport := { s.sport with cur := none, tail := [] } }
    let s := match s.spGalley r.ch with
      | some g => if s.rd (SPORT_CH_EN.idx r.ch) = 1 then (s.modCgal 1 g (fun x => { x with asm := none })).watermark 1 g else s
      | none => s
    s.spError i

/-- A record of which a part has left is given up, and stays whole in its galley (R323); DESIGN CHOICE (log entry 82). -/
def State.spUnsend (s : State) : State :=
  match s.sport.sending with
  | none => s
  | some g =>
    let s := s.setDrained g 0
    { s with sport := { s.sport with sending := none, cut := false } }

/-- The link enters or leaves ALIGNED (R317); leaving it withdraws the record in progress. -/
def State.setAligned (s : State) (b : Bool) : State :=
  if (s.rd SPORT_STATUS_ALIGNED == 1) = b then s
  else
    let s := s.wr SPORT_STATUS_ALIGNED (b2n b)
    let s := if b then { s with sport := { s.sport with turn := 0, stray := false } } else (s.spWithdraw 2).spUnsend
    s.raise EV_SPORT_LINK_CHANGE (srcBlock 12) 0 0 0

/-- Receiving lane `l`. -/
def State.lane (s : State) (l : Nat) : SpLane := s.sport.rx.getD l {}

/-- Receiving lane `l` changed. -/
def State.modLane (s : State) (l : Nat) (f : SpLane → SpLane) : State :=
  { s with sport := { s.sport with rx := modAt s.sport.rx l f } }

/-- Whether every enabled lane is locked. -/
def State.allLocked (s : State) : Bool := s.rd SPORT_STATUS_LOCK % 2 ^ s.lanes == 2 ^ s.lanes - 1

/-- LOCK of a lane set or cleared (R317): a lane without lock starts to count anew, and the loss of an enabled lane's ends alignment. -/
def State.setLock (s : State) (l : Nat) (lock : Bool) : State :=
  let s := s.wr SPORT_STATUS_LOCK (setBits (s.rd SPORT_STATUS_LOCK) l 1 (b2n lock))
  if lock then s.modLane l (fun x => { x with good := 64, recent := List.replicate 64 true })
  else
    let s := s.modLane l (fun x => { scr := x.scr, slot := x.slot })
    { s with sport := { s.sport with rounds := 0 } }.setAligned false

/-- SPORT_LINK_CHANGE (R317): alignment needs every enabled lane locked; it stands for the two ALIGN rounds that have matched, or for
one that has not. -/
def execSportLinkChange (aligned : Bool) (s : State) : Out1 :=
  .next (if s.rd SPORT_CFG_EN = 0 ∨ (aligned ∧ !s.allLocked) then s
    else { s with sport := { s.sport with rounds := if aligned then 2 else 0 } }.setAligned aligned)

/-- SPORT_LANE_LOCK (R317). -/
def execSportLaneLock (lane : Nat) (lock : Bool) (s : State) : Out1 :=
  .next (if s.rd SPORT_CFG_EN = 0 ∨ s.lanes ≤ lane then s else s.setLock lane lock)

/-- The port disabled: every lane loses lock, the receive path holds nothing. -/
def State.sportStop (s : State) : State :=
  let s := (s.setAligned false).wr SPORT_STATUS_LOCK 0
  { s with sport := { s.sport with rx := List.replicate 4 {}, rounds := 0, turn := 0, tail := [], stray := false } }

/-! ## Receiving (R318 to R320) -/

/-- One byte into the CRC-32 of IEEE 802.3, bits least significant first. -/
def crcByte (c b : Nat) : Nat :=
  (List.range 8).foldl (fun c _ => if c % 2 = 1 then (c / 2).xor 0xEDB88320 else c / 2) (c.xor b)

/-- The CRC-32 of IEEE 802.3. -/
def crc32 (bs : List Byte) : Nat := (bs.foldl (fun c b => crcByte c b.toNat) 0xFFFFFFFF).xor 0xFFFFFFFF

/-- The CRC of a record: over bytes 1 to 3 of its SOR and its payload. -/
def spCrc (ch seq : Nat) (payload : List Byte) : Nat := crc32 (leBytes 1 ch ++ leBytes 2 seq ++ payload)

/-- 32-bit words written into an ingress galley as parts of one packet, none of which waits; `ends` says that the packet ends with
the last of them. -/
def State.galleyWords (s : State) (g ty : Nat) (ends : Bool) : List (List Byte) → State
  | [] => if ends then (s.finishAsm 1 g false 0xFF).2 else s
  | [w] => (s.galleyPut 1 g w ends false ty 0xFF).2
  | w :: ws => ((s.galleyPut 1 g w false false ty 0xFF).2).galleyWords g ty ends ws

/-- Words of a record pushed into queue `q`, the last tagged LAST; one that would take the last free word is written as ERR and the
rest discarded (R331). Its second part says whether that happened. -/
def State.queueWords (s : State) (q : Nat) : List Nat → Bool × State
  | [] => (false, s)
  | w :: ws =>
    let free := 4096 - (s.bq q).level
    if free = 0 then (true, s)
    else if free = 1 then (true, (s.modQ q (fun x => x.push w 3)).qWater q)
    else ((s.modQ q (fun x => x.push w (if ws.isEmpty then 2 else 0))).qWater q).queueWords q ws

/-- The word that stands for channel and SEQ. -/
def spHead (r : SpRec) : Nat := r.ch % 16 + r.seq % 65536 * 65536

/-- A record's payload as words. -/
def spWords (bs : List Byte) : List Nat := (chunks 4 (bs.length + 1) bs).map leNat

/-- A record pushed whole into queue `q` in FROM_SPORT mode; `cut` says that it was closed early and ends with an ERR word. Before the
fabric's writes are released (Table 14-5) nothing is pushed. -/
def State.spQueue (s : State) (q : Nat) (r : SpRec) (cut : Bool) : State :=
  if s.qf q BURL_QCFG_EN = 0 ∨ s.qf q BURL_QCFG_MODE ≠ 1 ∨ !s.burl.writes then s
  else if 4096 ≤ (s.bq q).level then s.spError 2
  else if (s.bq q).level = 4095 then ((s.modQ q (fun x => x.push (spHead r) 3)).qWater q).spError 2
  else
    let s := (s.modQ q (fun x => x.push (spHead r) 1)).qWater q
    let t := s.queueWords q (spWords r.payload)
    let s := if t.1 then t.2.spError 2 else t.2
    if cut ∧ !t.1 then (s.modQ q (fun x => if x.level < 4096 then x.push 0 3 else x)).qWater q else s

/-- The bytes of a record that a galley's packet holds beyond the `before` payload bytes already there; where none of it is there yet
(none), the length word's place and the header word come first. -/
def spBytes (r : SpRec) : Option Nat → List Byte
  | none => zeros 4 ++ leBytes 4 (spHead r) ++ r.payload
  | some off => r.payload.drop off

/-- What of `r` is not yet in its destination written there; `ends` says that the record is whole. -/
def State.spWrite (s : State) (r : SpRec) (before : Option Nat) (ends : Bool) : State :=
  match s.spGalley r.ch with
  | some g =>
    let bs := spBytes r before
    s.galleyWords g 0x10 ends (chunks 4 (bs.length + 1) bs)
  | none => if ends then s.spQueue (s.rd (SPORT_CH_QUEUE.idx r.ch)) r false else s

/-- Whether `r` goes on with the record in progress, and how much of it has come before. -/
def State.spBefore (s : State) (r : SpRec) : Option Nat :=
  match s.sport.cur with
  | some o => if o.ch = r.ch ∧ o.seq = r.seq ∧ o.payload.length ≤ r.payload.length ∧ r.payload.take o.payload.length = o.payload then
      some o.payload.length else none
  | none => none

/-- A record, or the part of one that has come, on an aligned link (R318 to R320). A record whose SOR comes inside another one withdraws
that one. -/
def State.spRecord (s : State) (r : SpRec) : State :=
  let before := s.spBefore r
  let s := if before.isNone then s.spWithdraw 2 else s
  let ok := decide (r.ch < 16) && decide (4 ≤ r.payload.length) && decide (r.payload.length ≤ 65532) && r.payload.length % 4 == 0
  let open_ := s.sport.cur.isSome
  match r.kind with
  | .opened =>
    if 16 ≤ r.ch ∨ 65532 < r.payload.length then (if open_ then s.spWithdraw 2 else s.spError 2)
    else
      let s := { s with sport := { s.sport with cur := some r, tail := [], since := if open_ then s.sport.since else s.base } }
      if s.rd (SPORT_CH_EN.idx r.ch) = 0 then s
      else if before.getD 0 % 4 = 0 ∧ r.payload.length % 4 = 0 then s.spWrite r before false
      else s.spWithdraw 2
  | .broken => if open_ then s.spWithdraw 2 else s.spError 2
  | .whole =>
    if !ok then (if open_ then s.spWithdraw 2 else s.spError 2)
    else if spCrc r.ch r.seq r.payload ≠ r.crc then (if open_ then s.spWithdraw 1 else s.spError 1)
    else
      let s := { s with sport := { s.sport with cur := none, tail := [] } }
      if s.rd (SPORT_CH_EN.idx r.ch) = 0 then s.inc (SPORT_CNT_COUNT.idx 4)
      else (s.spWrite r before true).inc (SPORT_CNT_COUNT.idx 0)

/-- An ABORT block (R320). -/
def State.spAbort (s : State) : State := if s.sport.cur.isSome then s.spWithdraw 5 else s.inc (SPORT_CNT_COUNT.idx 5)

/-! ## Lanes and blocks (R316 to R318, Table 14-1) -/

/-- What the self-synchronous scrambler x^58 + x^39 + 1 adds to a bit, `h` being the last 58 bits on the line, the newest in bit 0. -/
def scramMask (h : Nat) : Bool := h.testBit 38 != h.testBit 57

/-- The 64 bits `w` of a block through the descrambler, least significant first: its state after them, and what they stand for. -/
def descramble (h w : Nat) : Nat × Nat :=
  (List.range 64).foldl (fun (a : Nat × Nat) i =>
    ((a.1 * 2 + b2n (w.testBit i)) % 2 ^ 58, a.2 + b2n (w.testBit i != scramMask a.1) * 2 ^ i)) (h, 0)

/-- The 64 bits `w` of a block through the scrambler. -/
def scramble (h w : Nat) : Nat × Nat :=
  (List.range 64).foldl (fun (a : Nat × Nat) i =>
    let b := w.testBit i != scramMask a.1
    ((a.1 * 2 + b2n b) % 2 ^ 58, a.2 + b2n b * 2 ^ i)) (h, 0)

/-- A block in error (R318): it withdraws the record in progress, the rest of which is passed over; outside a record it is an error of
its own. -/
def State.spBad (s : State) : State :=
  let s := if s.sport.cur.isSome then s.spWithdraw 2 else if s.sport.stray then s else s.spError 2
  { s with sport := { s.sport with stray := true } }

/-- The record in progress goes on with its last data block, the first `n` bytes of it, in a form of kind `k`; where that withdraws it,
the rest of it is passed over. -/
def State.spGrow (s : State) (n crc : Nat) (k : SpKind) : State :=
  match s.sport.cur with
  | none => s
  | some r =>
    let s := s.spRecord { r with payload := r.payload ++ s.sport.tail.take n, crc := crc, kind := k }
    { s with sport := { s.sport with stray := k == .opened && s.sport.cur.isNone } }

/-- A control block of type `ty` whose bytes 1 to 7 are `v` (Table 14-1). -/
def State.spControl (s : State) (ty v : Nat) : State :=
  let zero := fun (lo n : Nat) => bits v lo n == 0
  if ty = 0x1E then (if v = 0 then s else s.spBad)
  else if ty = 0x78 then
    if zero 4 4 && zero 24 32 then
      let s := (s.spWithdraw 2).spRecord ⟨bits v 0 4, bits v 8 16, [], 0, .opened⟩
      { s with sport := { s.sport with stray := false } }
    else s.spBad
  else if ty = 0x87 then
    if !(zero 1 7 && zero 40 16) then s.spBad
    else if s.sport.cur.isNone then
      let s := if s.sport.stray then s else s.spError 2
      { s with sport := { s.sport with stray := false } }
    else s.spGrow (if bit v 0 then 4 else 8) (bits v 8 32) .whole
  else if ty = 0xB4 then
    if v = 0 then
      let s := s.spAbort
      { s with sport := { s.sport with stray := false } }
    else s.spBad
  else s.spBad

/-- A block of the stripe, as sync header and 64 bits: data, or control. The last data block is kept back until what follows says
whether all of it counts. -/
def State.spBlock (s : State) (b : Nat × Nat) : State :=
  if b.1 = 1 then
    if s.sport.cur.isNone then s.spBad
    else
      let s := if s.sport.tail.isEmpty then s else s.spGrow 8 0 .opened
      if s.sport.cur.isSome then { s with sport := { s.sport with tail := leBytes 8 b.2 } } else s
  else if b.1 = 2 then s.spControl (bits b.2 0 8) (b.2 / 256)
  else s.spBad

/-- The blocks that the lanes hold taken in turn while the link is aligned; `fuel` bounds them. -/
def State.stripe (s : State) : Nat → State
  | 0 => s
  | fuel + 1 =>
    match s.rd SPORT_STATUS_ALIGNED, (s.lane s.sport.turn).held with
    | 1, b :: bs =>
      let s := s.modLane s.sport.turn (fun x => { x with held := bs })
      ({ s with sport := { s.sport with turn := (s.sport.turn + 1) % s.lanes } }.spBlock b).stripe fuel
    | _, _ => s

/-- An ALIGN round once every enabled lane has had its block: it matches with a skew of at most 16 blocks, and two in a row align the
link (R317). -/
def State.alignRound (s : State) : State :=
  let marks := (List.range s.lanes).filterMap (fun l => (s.lane l).mark)
  if marks.length < s.lanes then s
  else
    let ok := decide (listMax marks ≤ listMin 0 marks + 16)
    let n := if ok then min 2 (s.sport.rounds + 1) else 0
    let s := { s with sport := { s.sport with rounds := n, rx := s.sport.rx.map (fun (x : SpLane) => { x with mark := none }) } }
    if n = 2 ∧ s.allLocked then s.setAligned true
    else { s with sport := { s.sport with rx := s.sport.rx.map (fun (x : SpLane) => { x with held := [] }) } }.setAligned false

/-- An ALIGN block on lane `l`, its bytes 1 to 7 being `v`; one that comes before the other lanes had theirs, or names another lane,
breaks the round (R317). -/
def State.laneAlign (s : State) (l v : Nat) : State :=
  let early := (s.lane l).mark.isSome
  let s := if bits v 8 48 = 0 then s else s.spBad
  let s := if early ∨ bits v 0 8 ≠ l then
      { s with sport := { s.sport with rounds := 0, rx := s.sport.rx.map (fun (x : SpLane) => { x with mark := none }) } }.setAligned
        false
    else s
  let up := s.rd SPORT_STATUS_ALIGNED == 1
  (s.modLane l (fun x => { x with mark := some x.slot, held := if up then x.held else [] })).alignRound

/-- A 66-bit word on lane `l`, as sync header and 64 scrambled bits (R316, R317). -/
def State.laneWord (s : State) (l : Nat) (w : Nat × Nat) : State :=
  let valid := w.1 == 1 || w.1 == 2
  let d := descramble (s.lane l).scr w.2
  let s := s.modLane l (fun x => { x with
    scr := d.1, slot := x.slot + 1, good := if valid then min 64 (x.good + 1) else 0, recent := (valid :: x.recent).take 64 })
  let x := s.lane l
  if !(s.rd SPORT_STATUS_LOCK).testBit l then (if x.good = 64 then s.setLock l true else s)
  else if 16 ≤ (x.recent.filter (fun b => !b)).length then s.setLock l false
  else if w.1 = 2 ∧ bits d.2 0 8 = 0x4B then s.laneAlign l (d.2 / 256)
  else if s.rd SPORT_STATUS_ALIGNED = 1 ∨ x.mark.isSome then s.modLane l (fun x => { x with held := x.held ++ [(w.1, d.2)] })
  else s

/-- Words on the lanes in use, the first of every lane first. -/
def State.laneWords (s : State) (lanes : List (List (Nat × Nat))) : State :=
  (List.range (listMax (lanes.map (fun l => l.length)))).foldl (fun (s : State) i =>
    let s := (List.range s.lanes).foldl (fun (s : State) l => match (lanes.getD l [])[i]? with
      | some w => s.laneWord l w
      | none => s) s
    s.stripe (listSum (s.sport.rx.map (fun (x : SpLane) => x.held.length)))) s

/-- SPORT_RECORD_RECEIVE (R316 to R320): a record as its blocks spell it, or what comes over the lanes. -/
def execSportRecordReceive (come : SpIn) (s : State) : Out1 :=
  .next (match come with
    | .record r => if s.rd SPORT_CFG_EN = 0 ∨ s.rd SPORT_STATUS_ALIGNED = 0 then s else s.spRecord r
    | .words lanes => if s.rd SPORT_CFG_EN = 0 then s else s.laneWords lanes)

/-- SPORT_REC_TIMEOUT (R320): the record closed with what it holds, the rest of its blocks to be passed over. -/
def execSportRecTimeout (s : State) : Out1 :=
  .next (match s.sport.cur with
    | none => s
    | some r =>
      if s.base < s.sport.since + s.rd SPORT_CFG_REC_TIMEOUT * 1000 then s
      else
        let r' := { r with payload := (r.payload ++ s.sport.tail).take 65532 }
        let s := { s with sport := { s.sport with cur := none, tail := [], stray := true } }
        let s := if s.rd (SPORT_CH_EN.idx r.ch) = 0 then s
          else
            match s.spGalley r.ch with
            | some g => ((s.spWrite r' (some r.payload.length) false).finishAsm 1 g true 0xFF).2
            | none => s.spQueue (s.rd (SPORT_CH_QUEUE.idx r.ch)) r' true
        s.spError 3)

/-- SPORT_ABORT_BLOCK (R320). -/
def execSportAbortBlock (s : State) : Out1 :=
  .next (if s.rd SPORT_CFG_EN = 0 ∨ s.rd SPORT_STATUS_ALIGNED = 0 then s else s.spAbort)

/-! ## Egress (R323, R324) -/

/-- The data blocks of payload bytes. -/
def spData (bs : List Byte) : List (Nat × Nat) := (chunks 8 (bs.length + 1) bs).map (fun c => (1, leNat c))

/-- One lane's next word put behind those that are to leave. -/
def State.laneOut (s : State) (l : Nat) (b : Nat × Nat) (out : List (List (Nat × Nat))) : List (List (Nat × Nat)) × State :=
  let d := scramble (s.sport.tx.getD l 0) b.2
  (modAt out l (fun ws => ws ++ [(b.1, d.2)]), { s with sport := { s.sport with tx := setAt s.sport.tx l d.1 } })

/-- Blocks striped over the lanes, with an ALIGN block on every lane each 16,384 blocks (R317). -/
def State.blocksOut (s : State) (out : List (List (Nat × Nat))) : List (Nat × Nat) → List (List (Nat × Nat)) × State
  | [] => (out, s)
  | b :: bs =>
    let t := s.sport.txTurn
    let a := if t = 0 ∧ s.sport.txSlot % 16384 = 0 then
        let r := (List.range s.lanes).foldl (fun (p : List (List (Nat × Nat)) × State) l => p.2.laneOut l (2, 0x4B + l * 256) p.1)
          (out, s)
        (r.1, { r.2 with sport := { r.2.sport with txSlot := r.2.sport.txSlot + 1 } })
      else (out, s)
    let r := a.2.laneOut t b a.1
    let last := decide (r.2.lanes ≤ t + 1)
    ({ r.2 with sport := { r.2.sport with
        txTurn := if last then 0 else t + 1, txSlot := if last then r.2.sport.txSlot + 1 else r.2.sport.txSlot } }).blocksOut r.1 bs

/-- Blocks sent over the lanes; the IDLE blocks between are not shown (log entry 82). -/
def State.spEmit (s : State) (bs : List (Nat × Nat)) : State :=
  let r := s.blocksOut (List.replicate s.lanes []) bs
  r.2.emit (.sportWords r.1)

/-- The SOR block of a record. -/
def spSor (ch seq : Nat) : Nat × Nat := (2, 0x78 + ch * 2 ^ 8 + seq * 2 ^ 16)

/-- The EOR block of a record of payload `p`. -/
def spEor (ch seq : Nat) (p : List Byte) : Nat × Nat := (2, 0x87 + b2n (p.length % 8 == 4) * 2 ^ 8 + spCrc ch seq p * 2 ^ 16)

/-- An ABORT block sent. -/
def State.spSendAbort (s : State) : State := (s.emit .sportAbort).spEmit [(2, 0xB4)]

/-- The payload of a record of galley bytes `bs`: zero bytes up to a multiple of 4 follow them. -/
def spPayload (bs : List Byte) : List Byte := bs ++ zeros (4 * ceilDiv bs.length 4 - bs.length)

/-- The oldest record of galley `g` leaves as one Klotal record, with its SEQ (R323), or what is left of one that has paused. -/
def State.spSend (s : State) (g : Nat) : State :=
  let ch := s.rdc (1 + g) SPORT_RES_CFG_CH
  let gone := if s.sport.sending = some g then ((s.cgal 2 g).pkts.head?).elim 0 (fun (p : Pkt) => p.drained) else 0
  let r := s.headPacket 2 g 0xFF
  let seq := r.2.sport.seqs.getD ch 0
  let s := match r.1 with
    | some bs =>
      let p := spPayload bs
      let s := (r.2.emit (.sportRecord ch seq p)).spEmit
        ((if gone = 0 then [spSor ch seq] else []) ++ spData (p.drop gone) ++ [spEor ch seq p])
      { s with sport := { s.sport with seqs := setAt s.sport.seqs ch ((seq + 1) % 65536) } }.inc (SPORT_CNT_COUNT.idx 6)
    | none => if gone = 0 then r.2 else r.2.spSendAbort
  let s := { s with sport := { s.sport with sending := none, galTurn := g } }
  s.popPacket 2 g

/-- The first `k` bytes of the oldest record of galley `g` leave, and the record pauses. -/
def State.spPause (s : State) (g k : Nat) : State :=
  let ch := s.rdc (1 + g) SPORT_RES_CFG_CH
  let r := s.headPacket 2 g 0xFF
  match r.1 with
  | none => r.2.popPacket 2 g
  | some bs =>
    let s := (r.2.spEmit (spSor ch (r.2.sport.seqs.getD ch 0) :: spData ((spPayload bs).take k))).setDrained g k
    { s with sport := { s.sport with left := 0, sending := some g } }

/-- The galley whose record leaves next, in round robin (R323). -/
def State.spTurn (s : State) : Option Nat :=
  ((List.range 256).map (fun k => (s.sport.galTurn + 1 + k) % 256)).find? (fun g =>
    s.rdc (1 + g) SPORT_RES_CFG_EN == 1 && (s.cgal 2 g).pkts != [])

/-- SPORT_RECORD_SEND (R323): the oldest record of a bound galley whose turn it is. While SP_XOFF_IN is high it leaves only as far as
the data blocks still allowed reach, and pauses there (R324). -/
def execSportRecordSend (g : Nat) (s : State) : Out1 :=
  .next (if s.rd SPORT_CFG_EN = 0 ∨ s.rd SPORT_STATUS_ALIGNED = 0 ∨ s.rd SPORT_STATUS_STALLED = 1 ∨ s.spTurn ≠ some g ∨
      s.sport.sending.isSome then s
    else
      let n := ((s.cgal 2 g).pkts.head?).elim 0 (fun (p : Pkt) => 4 * ceilDiv p.len 4)
      if s.rd SPORT_STATUS_XOFF_IN = 0 then s.spSend g
      else if n ≤ s.sport.left then { s with sport := { s.sport with left := s.sport.left - n } }.spSend g
      else if s.sport.left < 8 then s
      else s.spPause g (s.sport.left / 8 * 8))

/-- SP_XOFF_IN (R324): rising, at most 512 payload bytes may still leave; falling, a record that pauses goes on, or ends with an
ABORT block where the port has stalled. -/
def execSpXoffIn (level : Bool) (s : State) : Out1 :=
  .next (if (s.rd SPORT_STATUS_XOFF_IN == 1) = level then s
    else
      let s := s.wr SPORT_STATUS_XOFF_IN (b2n level)
      if level then { s with sport := { s.sport with xoffSince := some s.base, left := 512 } }
      else
        let cut := s.sport.cut
        let s := { s with sport := { s.sport with xoffSince := none, left := 0, cut := false } }
        match s.sport.sending with
        | none => s
        | some g =>
          if cut then s.spUnsend.spSendAbort else s.spSend g)

/-- SPORT_XOFF_STUCK (R324): SP_XOFF_IN has been high for XOFF_TIMEOUT. -/
def execSportXoffStuck (s : State) : Out1 :=
  .next (match s.sport.xoffSince with
    | none => s
    | some t =>
      if s.base < t + s.rd SPORT_EGR_XOFF_TIMEOUT * 1000 then s
      else
        let s := s.wr SPORT_STATUS_STALLED 1
        let s := { s with sport := { s.sport with xoffSince := none, cut := s.sport.sending.isSome } }
        s.raise EV_SPORT_XOFF_STUCK (srcBlock 12) 0 0 0)

end Sys2Proof.Machine
end

