-- ==== Sys2Proof/Machine/Firmware.lean ====
section
/-! DEFINITION. The firmware's start (16 R360 to R368, R387; 11 R268; 17 R405), roles and core restarts (R374, R375), the
functions' readiness (15 R357) and the ledger and health map files. -/
namespace Sys2Proof.Machine

/-! ## The image and its checks (R366, R367, Tables 16-3 and 16-4) -/

/-- The offset of the protected image area in management SRAM (Table 16-6). -/
def imageArea : Nat := 0x40000

/-- The entries of an image's compatibility table. -/
def compatOf (img : List Byte) : List (Nat × Nat × Nat) :=
  let off := fieldAt img 0x2C 4
  (List.range (fieldAt img 0x28 2)).map (fun i =>
    (fieldAt img (off + 12 * i) 4, fieldAt img (off + 12 * i + 4) 4, fieldAt img (off + 12 * i + 8) 4))

/-- Whether no two of the spans, as first byte and length, overlap and all lie within `n` bytes. -/
def spansOk (n : Nat) : List (Nat × Nat) → Bool
  | [] => true
  | x :: l => decide (x.1 + x.2 ≤ n) && l.all (fun y => decide (x.1 + x.2 ≤ y.1) || decide (y.1 + y.2 ≤ x.1)) && spansOk n l

/-- Whether every byte of a span is zero. -/
def zeroSpan (bs : List Byte) (off n : Nat) : Bool := (slice bs off n).all (fun b => b == 0)

/-- Check 2: offsets, lengths, sections and zero fields. -/
def imageForm (img : List Byte) : Bool :=
  let u := fieldAt img
  let sig := u 0x30 4
  spansOk (u 0x34 4) [(0, 256), (u 0x1C 4, u 0x20 4), (u 0x2C 4, 12 * u 0x28 2), (sig, 7856)] &&
  decide (u 0x24 4 < u 0x20 4) && decide (1 ≤ u 0x28 2) && decide (u 0x28 2 ≤ 64) && decide (u 6 1 < 4) && decide (u 7 1 < 4) &&
  decide (u 0x10 2 ≤ 64) && zeroSpan img 0x2A 2 && zeroSpan img 0x38 200 && (compatOf img).all (fun e => decide (e.1 < 2))

/-- The first check of Table 16-4 that an image fails, by its cause; none where it passes them all. -/
def State.imageCause (s : State) (img : Option (List Byte)) : Option Nat :=
  match img with
  | none => some 1
  | some img =>
    let u := fieldAt img
    let n := u 0x34 4
    let sig := u 0x30 4
    let slot := u 6 1
    let key := s.otp.fwKeys.getD slot 0
    if img.length < 256 ∨ u 0 4 ≠ 0x49574641 ∨ u 4 2 ≠ 1 ∨ n ≠ sig + 7856 ∨ 393216 < n ∨ img.length < n then some 1
    else if !imageForm img then some 2
    else if !bit (u 7 1) (s.rd SYS_ID_STEPPING % 2) then some 3
    else if bit s.otp.revoke slot ∨ key = 0 then some 4
    else if u 0x10 2 < popCount 64 s.otp.rollback then some 5
    else if !Config.slhVerify key (img.take sig) (slice img sig 7856) then some 6
    else none

/-- An image cut to its IMAGE_LENGTH. -/
def wholeImage (img : List Byte) : List Byte := img.take (fieldAt img 0x34 4)

/-- The eight words of a digest or key written to a register array. -/
def State.putWords8 (s : State) (f : Fld) (bs : List Byte) : State :=
  (List.range 8).foldl (fun (s : State) i => s.wr (f.idx i) (fieldAt bs (4 * i) 4)) s

/-! ## The repair ledger (11 R267, R268) and the health map (17 R405, Table 17-9) -/

/-- The ledger as a file (Table 11-17). -/
def State.ledgerBytes (s : State) : List Byte :=
  let es := s.health.ledger.flatMap (fun (e : LedgerEnt) => leBytes 1 e.memory ++ leBytes 1 e.inst ++ leBytes 1 e.bank ++
    leBytes 1 e.kind ++ leBytes 2 e.fail ++ leBytes 1 e.spare ++ [0])
  leBytes 4 0x4744454C ++ leBytes 2 1 ++ leBytes 2 s.health.ledger.length ++ leBytes 4 s.health.ledgerSeq ++
  leBytes 16 s.otp.uid ++ padded (Config.sha false es) 32 ++ zeros 4 ++ es

/-- The entries of a ledger file. -/
def ledgerEntries (f : List Byte) : List LedgerEnt :=
  (List.range (fieldAt f 6 2)).map (fun i =>
    let u := fun (o n : Nat) => fieldAt f (64 + 8 * i + o) n
    ⟨u 0 1, u 1 1, u 2 1, u 3 1, u 4 2, u 6 1⟩)

/-- Whether a ledger file is valid (R268). -/
def State.ledgerOk (s : State) (f : List Byte) : Bool :=
  let n := fieldAt f 6 2
  fieldAt f 0 4 == 0x4744454C && fieldAt f 0xC 16 == s.otp.uid % 2 ^ 128 && decide (n ≤ 9216) && decide (64 + 8 * n ≤ f.length) &&
  slice f 0x1C 32 == padded (Config.sha false (slice f 64 (8 * n))) 32

/-- A unit byte. -/
def unitByte (u : Nat × Nat) : List Byte := leBytes 1 (u.1 + 4 * u.2)

/-- Bits of a map, `n` bytes. -/
def mapBits (l : List Nat) (n : Nat) : List Byte :=
  (List.range n).flatMap (fun i => leBytes 1 (listSum ((List.range 8).map (fun j => if l.contains (8 * i + j) then 2 ^ j else 0))))

/-- The health map as a file (Table 17-9), its FLAGS.CLEAN given. -/
def State.mapBytes (s : State) (clean : Bool) : List Byte :=
  let u := fun (lo n : Nat) => (List.range n).flatMap (fun i => unitByte (s.health.units.getD (lo + i) (1, 0)))
  let body := u 0 104 ++ u 104 3 ++ u 107 16 ++ u 128 5 ++ mapBits s.health.granules 64 ++ mapBits s.health.frames 1024 ++
    leBytes 8 s.health.shutdownTime ++ u 123 5 ++ zeros 51
  leBytes 4 0x48544C48 ++ leBytes 2 1 ++ leBytes 2 (b2n clean) ++ leBytes 4 s.health.seq ++ leBytes 16 s.otp.uid ++
  padded (Config.sha false body) 32 ++ zeros 4 ++ body

/-- Whether a health map file is valid. -/
def State.mapOk (s : State) (f : List Byte) : Bool :=
  fieldAt f 0 4 == 0x48544C48 && fieldAt f 0xC 16 == s.otp.uid % 2 ^ 128 && decide (0x540 ≤ f.length) &&
  slice f 0x1C 32 == padded (Config.sha false (slice f 0x40 0x500)) 32

/-- The numbers of the set bits of `n` bytes of a file. -/
def setBitsAt (f : List Byte) (off n : Nat) : List Nat :=
  (List.range (8 * n)).filter (fun i => (fieldAt f (off + i / 8) 1).testBit (i % 8))

/-- The health records of a map: without CLEAN every usable unit counts as UNTESTED (R405). -/
def healthOf (f : List Byte) (h : Health) : Health :=
  let clean := fieldAt f 6 2 % 2 == 1
  let u := fun (off n : Nat) => (List.range n).map (fun i =>
    let b := fieldAt f (off + i) 1
    if b % 4 = 2 then (2, b / 4) else if clean then (b % 4, b / 4) else (1, 0))
  { h with
    units := u 0x40 104 ++ u 0xA8 3 ++ u 0xAB 16 ++ u 0x508 5 ++ u 0xBB 5
    granules := setBitsAt f 0xC0 64, frames := setBitsAt f 0x100 1024, seq := fieldAt f 8 4
    shutdownTime := fieldAt f 0x500 8, clean := clean }

/-- Of two copies in flash, the valid one with the higher SEQUENCE (Table 16-2). -/
def newer (ok : List Byte → Bool) (a b : List Byte) : Option (List Byte) :=
  match ok a, ok b with
  | true, true => if fieldAt a 8 4 < fieldAt b 8 4 then some b else some a
  | true, false => some a
  | false, true => some b
  | false, false => none

/-- The offset of the copy that a rewrite replaces: the older one, or one that is not valid. -/
def older (ok : List Byte → Bool) (offA offB : Nat) (a b : List Byte) : Nat :=
  match ok a, ok b with
  | true, true => if fieldAt a 8 4 < fieldAt b 8 4 then offA else offB
  | true, false => offB
  | _, _ => offA

/-- `n` bytes of flash. -/
def State.flashAt (s : State) (off n : Nat) : List Byte := s.flash.bytesAt off n

/-- Bytes written to flash. -/
def State.flashPut (s : State) (off : Nat) (bs : List Byte) : State := { s with flash := s.flash.putBytes off bs }

/-- The ledger and the health map that a source holds, the valid ones; `src` as FW_STATUS.SOURCE. -/
def State.records (s : State) (src : Nat) (net : BootSrc) : Option (List Byte) × Option (List Byte) :=
  if src = 1 then (net.ledger.filter s.ledgerOk, net.health.filter s.mapOk)
  else (newer s.ledgerOk (s.flashAt 0x80000 73792) (s.flashAt 0xA0000 73792),
    newer s.mapOk (s.flashAt 0xC0000 0x540) (s.flashAt 0xD0000 0x540))

/-- Whether a ledger entry names the spare of a factory repair (11 R267): it is ignored. -/
def LedgerEnt.clashes (e f : LedgerEnt) : Bool :=
  e.memory == f.memory && e.inst == f.inst && e.bank == f.bank && e.kind == f.kind && e.spare == f.spare

/-- Step 7 of Table 16-1 after power-on or cold reset: the records loaded, with LEDGER_INVALID, LEDGER_CONFLICT and
HEALTH_INVALID; the repairs of commons, management SRAM and HBM lanes are in force from then on (11 R267, R271). -/
def State.loadRecords (s : State) (src : Nat) (net : BootSrc) : State :=
  let r := s.records src net
  let s := match r.1 with
    | some f =>
      let clash := fun (e : LedgerEnt) => s.otp.fuses.any e.clashes
      let s := { s with health := { s.health with
        ledger := (ledgerEntries f).filter (fun e => !clash e), ledgerSeq := fieldAt f 8 4 } }
      ((ledgerEntries f).filter clash).foldl (fun (s : State) _ => s.raise EV_LEDGER_CONFLICT s.heaCore 0 0 0) s
    | none => s.raise EV_LEDGER_INVALID s.heaCore 0 0 0
  let s := s.applyRepairs (fun e => decide (3 ≤ e.memory))
  let s := { s with health := { s.health with stopped := [] } }
  match r.2 with
  | some f => { s with health := healthOf f s.health }
  | none => s.raise EV_HEALTH_INVALID s.heaCore 0 0 0

/-- The health map and ledger written to where they are kept, SEQUENCE raised; `clean` is the map's FLAGS.CLEAN. -/
def State.writeRecords2 (s : State) (map ledger clean : Bool) : State :=
  let s := if map then { s with health := { s.health with seq := s.health.seq + 1, clean := clean, mapDue := false } } else s
  let s := if ledger then
      { s with health := { s.health with ledgerSeq := (s.health.ledgerSeq + 1) % 2 ^ 32, ledgerDue := false } }
    else s
  let net := s.rd FW_STATUS_SOURCE = 1
  let m := s.mapBytes clean
  let l := s.ledgerBytes
  let s := if !map then s
    else if net then s.emit (.serverWrite true m)
    else s.flashPut (older s.mapOk 0xC0000 0xD0000 (s.flashAt 0xC0000 0x540) (s.flashAt 0xD0000 0x540)) m
  if !ledger then s
  else if net then s.emit (.serverWrite false l)
  else s.flashPut (older s.ledgerOk 0x80000 0xA0000 (s.flashAt 0x80000 73792) (s.flashAt 0xA0000 73792)) l

/-- LEDGER_WRITE_RETRY (R388, 11 R269): repairs that are due are recorded, and the files that have changed are written; a write
that fails is repeated later. -/
def execLedgerWriteRetry (ok : Bool) (s : State) : Out1 :=
  .next (if !s.fw.running || !s.roleHeld s.heaCore then s
    else
      let s := s.repairDue
      if !s.health.mapDue && !s.health.ledgerDue then s
      else if ok then s.writeRecords2 s.health.mapDue s.health.ledgerDue false
      else s.raise EV_LEDGER_WRITE_FAILED s.heaCore 0 0 0)

/-! ## Roles (R360, R374, R375) -/

/-- The physical core that holds role `r`: 0 security, 1 power, 2 admission, 3 health. -/
def State.role (s : State) (r : Nat) : Nat := bits (s.reg 0 FW_ROLE_SPARE.addr) (4 * r) 3

/-- Role `r` given to a core. -/
def State.giveRole (s : State) (r c : Nat) : State := s.setReg 0 FW_ROLE_SPARE.addr (setBits (s.reg 0 FW_ROLE_SPARE.addr) (4 * r) 3 c)

/-- The usable management cores. -/
def State.coresUp (s : State) : List Nat := (List.range 5).filter (fun c => !s.unusable (128 + c))

/-- Role `r` passes from core `a` to core `b`, with MC_HANDOVER (Table 16-7, Table 16-8). -/
def State.handOver (s : State) (r a b : Nat) : State := (s.giveRole r b).raise EV_MC_HANDOVER (0x60 + b) r a b

/-- The roles of a core that is lost with no spare to take them (R375): with three cores security and health share one, with two
power joins admission as well, and a last one holds them all. -/
def State.shareRoles (s : State) (lost : Nat) : State :=
  let sec := s.role 0
  let pow := s.role 1
  let adm := s.role 2
  let hea := s.role 3
  let n := s.coresUp.length
  let give := fun (s : State) (l : List (Nat × Nat)) => l.foldl (fun (s : State) x =>
    if s.role x.1 = x.2 then s else s.handOver x.1 (s.role x.1) x.2) s
  if n = 3 then
    if lost = sec then give s [(0, hea)]
    else if lost = hea then give s [(3, sec)]
    else if lost = pow then give s [(1, hea), (3, sec)]
    else if lost = adm then give s [(2, hea), (3, sec)]
    else s
  else if n = 2 then
    if lost = sec then give s [(0, pow), (3, pow), (1, adm)]
    else if lost = pow then give s [(1, adm)]
    else if lost = adm then give s [(2, pow)]
    else s
  else
    match s.coresUp with
    | [c] => give s [(0, c), (1, c), (2, c), (3, c)]
    | _ => s

/-- A role of a failed core passed to the spare, if the core holds one and there is a spare (step 2). -/
def State.spareTakes (s : State) (c : Nat) : State :=
  let sp := s.rd FW_ROLE_SPARE
  if sp = 7 ∨ sp = c then s
  else
    match (List.range 4).find? (fun r => s.role r == c) with
    | some r => (s.handOver r c sp).wr FW_ROLE_SPARE 7
    | none => s

/-- A core lost for good (step 5): out of the spare's place, its roles with the cores that remain. -/
def State.loseCore (s : State) (c : Nat) : State :=
  let s := if s.rd FW_ROLE_SPARE = c then s.wr FW_ROLE_SPARE 7 else s
  if (List.range 4).any (fun r => s.role r == c) then s.shareRoles c else s

/-- The running image in the protected image area. -/
def State.storedImage (s : State) : Option (List Byte) × State := s.read .msram imageArea s.fw.length 0x60

/-- Whether the image that a failed core reloads has the digest that it must have (Table 16-7, step 3): the staged image during steps 4
to 7 of an update (R378), else the one in the protected image area. -/
def State.reloads (s : State) : Bool × State :=
  match s.fw.upd.filter (fun u => decide (3 ≤ u.step) && decide (u.step < 7)) with
  | some u =>
    let img := u.img.getD []
    let r := s.read .commons (u.granule * 65536) img.length s.secCore
    (r.1.any (fun b => Config.sha false b == Config.sha false img), r.2)
  | none =>
    let img := s.storedImage
    let digest := (List.range 8).flatMap (fun i => leBytes 4 (img.2.rd (SEC_FW_DIGEST_DIGEST.idx i)))
    (img.1.any (fun b => padded (Config.sha false b) 32 == digest), img.2)

/-- The mailbox of a core, among the handover mailboxes of Table 16-6: its words of management SRAM. The spec does not say where in
those 64 KiB each core's mailbox lies, so both ends are FREE (log entry 52). -/
def mailboxWords (core : Nat) : Nat × Nat :=
  let lo := Config.mailboxAt core % 0x10000
  ((0xF0000 + lo) / 8, min 0x100000 (0xF0000 + lo + Config.mailboxBytes core) / 8)

/-- Step 1 of Table 16-7: the core held in reset, its private area and its mailbox cleared. -/
def State.coreFails (s : State) (core cause : Nat) : State :=
  let s := (s.resetRegs 0 (fun _ => true)).inc FW_MC_RESTARTS_COUNT
  let s := s.clearMem .msram ((0xA0000 + 0x10000 * core) / 8) ((0xB0000 + 0x10000 * core) / 8)
  let s := s.clearMem .msram (mailboxWords core).1 (mailboxWords core).2
  { s.raise EV_MC_RESTART (0x60 + core) core cause 0 with fw := { s.fw with down := some core } }

/-- An attestation in progress ends FAILED (R374). -/
def State.attestFails (s : State) : State :=
  if s.fw.report.isNone then s
  else
    let s := ({ s with fw := { s.fw with report := none } }.wr SEC_ATTEST_CTRL_BUSY 0).wr SEC_ATTEST_CTRL_STATUS 2
    s.raise EV_ATTEST_REFUSED s.secCore 0 0 0

/-- Step 2 for a failed core: its role passes to the spare; a load of the admission role is abandoned (R34), an attestation of the
security role FAILED. -/
def State.rolesPass (s : State) (core sec adm : Nat) : State :=
  let s := s.spareTakes core
  let s := if adm = core then s.loadAbandon else s
  if sec = core then s.attestFails else s

/-- Failures of a core within the last 60 s of base time. -/
def State.failures (s : State) (core : Nat) : List (Nat × Nat) :=
  s.fw.restarts.filter (fun (e : Nat × Nat) => e.1 == core && decide (s.base < e.2 + 60000000000))

/-- A failure of a core noted. -/
def State.noteFailure (s : State) (core : Nat) : State :=
  { s with fw := { s.fw with
    restarts := s.failures core ++ s.fw.restarts.filter (fun (e : Nat × Nat) => e.1 != core) ++ [(core, s.base)] } }

/-- Step 5: the core is unusable, with the cause in the health map, and its roles go to the others. -/
def State.coreLost (s : State) (core cause : Nat) : State :=
  let s := s.markUnusable (128 + core) cause
  (s.raise EV_MC_CORE_LOST s.heaCore core 0 0).loseCore core

/-- Step 4, or its role kept where no spare could take it (R375). -/
def State.coreRejoins (s : State) (core spare : Nat) (held : Bool) : State :=
  if held && (spare == 7 || spare == core) then s.raise EV_MC_SPARE_LOST s.heaCore core 0 0 else s.wr FW_ROLE_SPARE core

/-- Steps 2 to 5 for the core held in reset: its role passes to the spare; it becomes the spare, or, at its third failure within 60 s or
where the digests differ, it is lost (R375). -/
def State.coreReturns (s : State) : State :=
  match s.fw.down with
  | none => s
  | some core =>
    let spare := s.rd FW_ROLE_SPARE
    let held := (List.range 4).any (fun r => s.role r == core)
    let old := (s.failures core).length
    let s := ({ s with fw := { s.fw with down := none } }.rolesPass core (s.role 0) (s.role 2)).noteFailure core
    let r := s.reloads
    if 2 ≤ old then r.2.coreLost core 7
    else if r.1 then r.2.coreRejoins core spare held
    else r.2.coreLost core 6

/-- MC_RESTART (R374, R375, Table 16-7): core `core` fails. The rest of the table follows at once, or, where `hold` is set, with the
next failure or while no command waits (log entry 52). -/
def execMcRestart (core : Nat) (f : McFail) (s : State) : Out1 :=
  .next (if 5 ≤ core ∨ s.unusable (128 + core) ∨ !s.fw.running ∨ s.fw.down = some core then s
    else
      let s := s.coreReturns.coreFails core f.cause
      if f.hold then s else s.coreReturns)

/-! ## Start of the firmware (Table 16-1) -/

/-- A bit of SYS_FUNC_READY set, with FUNC_READY where it was 0. -/
def State.funcSet (s : State) (b : Nat) : State :=
  let w := s.reg 0 SYS_FUNC_READY_REGS.addr
  if bit w b then s else (s.setReg 0 SYS_FUNC_READY_REGS.addr (setBits w b 1 1)).raise EV_FUNC_READY (srcBlock 0) b 1 0

/-- A RETURNED device destroys its seed and runs in debug mode with every scope from its start on (R387). -/
def State.returnedStart (s : State) : State :=
  if s.otp.returned = 0 ∨ (s.rd SEC_DEBUG_STATUS_ACTIVE = 1 ∧ s.rd SEC_DEBUG_STATUS_SCOPE = 15) then s
  else
    let s := { s with otp := { s.otp with seed := 2 ^ 256 - 1 }, fw := { s.fw with attKey := false, debugUsed := true } }
    let s := s.putWords8 SEC_IDKEY_KEY (zeros 32)
    ((s.wr SEC_DEBUG_STATUS_ACTIVE 1).wr SEC_DEBUG_STATUS_SCOPE 15).raise EV_DEBUG_ENTERED s.secCore 0 0 0

/-- Steps 1 and 2: the key store's effects, the identity key, and the functions REGS and USB. -/
def State.romStart (s : State) : State :=
  let s := if !s.fw.fresh then s
    else ({ s with fw := { s.fw with fresh := false, attKey := true } }).putWords8 SEC_IDKEY_KEY (Config.slhPublic s.otp.seed)
  (s.returnedStart.funcSet 0).funcSet 1

/-- The management port's settings as a flash configuration block gives them, DHCP over 1000BASE-X where it is not valid (Table
16-2, 15 R359). -/
def State.mgmtSettings (s : State) : State :=
  let b := s.flashAt 0xE0000 4096
  let ok := crc32 (b.take 4092) == fieldAt b 4092 4
  let u := fun (o : Nat) => if ok then fieldAt b o 4 else 0
  let static := bit (u 0) 1
  let s := s.setReg 0 MGMT_CFG_STATIC.addr (u 0 % 4)
  if static then
    ((((s.wr MGMT_IP4_ADDR (u 4)).wr MGMT_MASK_MASK (u 8)).wr MGMT_GW_ADDR (u 12)).wr MGMT_STATUS_ADDR_VALID 1)
  else s

/-- The access entries that the firmware writes at every start: the log mirror (R380), the host's quoins (15 R348), SYS_RESET (17
Table 17-10) and the reading of SYS. -/
def State.startAcc (s : State) : State :=
  s.addAcc [(0, ⟨2 ^ 31 + 2 ^ 30 + 0x7170, mirrorBase' / 64, 0x03FFFFFFFF / 64⟩),
    (2, ⟨2 ^ 31 + 6 * 2 ^ 28 + 0x7170, 129024 * 16 / 64, 131072 * 16 / 64 - 1⟩),
    (3, ⟨2 ^ 31 + 2 ^ 29 + 0x7170, 0, 0⟩), (3, ⟨2 ^ 31 + 2 ^ 30 + 0x7170, 0, 1023⟩)]
where mirrorBase' : Nat := 0x03FC000000

/-- The manifest fields of the image that runs from now on. -/
def State.takeManifest (s : State) (img : List Byte) : State :=
  let u := fieldAt img
  let s := (s.wr FW_VERSION_RUN_VERSION (u 8 4)).wr FW_IF_VERSION_VERSION (u 0xC 4)
  { s with fw := { s.fw with
    secVersion := u 0x10 2, formats := u 0x12 2, revoke := u 0x18 4, keySlot := u 6 1, compat := compatOf img, length := u 0x34 4 } }

/-- Steps 6 to 8: the image runs; `first` says that power-on or cold reset came before. -/
def State.startImage (s : State) (img : List Byte) (src : Nat) (net : BootSrc) (first : Bool) : State :=
  let img := wholeImage img
  let s := (s.write .msram imageArea img 0x60).2
  let s := s.putWords8 SEC_FW_DIGEST_DIGEST (padded (Config.sha false img) 32)
  let s := (s.wr FW_STATUS_SOURCE src).takeManifest img
  let s := if first then
      let s := (s.loadRecords src net).mgmtSettings
      ((List.range 5).filter (fun c => s.unusable (128 + c))).foldl (fun (s : State) c => (s.spareTakes c).loseCore c) s
    else s
  let s := { s with fw := { s.fw with running := true, recovery := false } }
  let s := { s with host := { s.host with usb := {}, mgmt := {} } }
  let s := s.startAcc
  s.raise EV_BOOT_COMPLETE s.secCore src (s.rd FW_VERSION_RUN_VERSION) 0

/-- The sources that BOOT_SEL selects, in order (R361). -/
def bootSources (sel : Nat) : List Nat :=
  match sel with
  | 0 => [0]
  | 1 => [1]
  | 2 => [0, 1]
  | _ => []

/-- Steps 3 to 5 over the sources left: the first image that passes every check starts; with none, USB recovery. -/
def State.trySources (s : State) (net : BootSrc) (first : Bool) : List Nat → State
  | [] => { s with fw := { s.fw with recovery := true } }
  | src :: rest =>
    let img := if src = 0 then some (s.flashAt 0 (min 0x80000 (max 256 (fieldAt (s.flashAt 0 256) 0x34 4)))) else net.image
    match s.imageCause img with
    | some c => (s.wr FW_STATUS_BOOT_CAUSE c).trySources net first rest
    | none => s.startImage (img.getD []) src net first

/-- BOOT (R362): the ROM runs Table 16-1; `net` is what the network boot server delivers. -/
def execBoot (net : BootSrc) (s : State) : Out1 :=
  .next (if s.fw.running || s.fw.recovery || s.pwr.resetLow then s
    else
      let first := s.fw.fresh
      let s := s.romStart
      s.trySources net first (bootSources s.fw.bootSel))

/-- START in USB recovery (R365): the checks of Table 16-4 on the image written to the protected image area, and its start. -/
def State.recoverRun (s : State) : State :=
  if !s.fw.recovery then s
  else
    let h := s.read .msram imageArea 256 0x60
    let n := min 393216 (max 256 (fieldAt (h.1.getD []) 0x34 4))
    let r := h.2.read .msram imageArea n 0x60
    match r.2.imageCause r.1 with
    | some c => r.2.wr FW_STATUS_BOOT_CAUSE c
    | none => r.2.startImage (r.1.getD []) 2 ⟨none, none, none⟩ (s.rd SYS_RESET_CAUSE_KIND != 2)

/-- RECOVERY_START (R365). -/
def execRecoveryStart (s : State) : Out1 := .next s.recoverRun

/-! ## FUNC_READY (15 R357) -/

/-- HBM pseudo-channel `n` has finished its training. -/
def State.channelReady (s : State) (n : Nat) : State :=
  let s := (s.setDomain 124 true).wr HBMC_CH_READY_READY (setBits (s.rd HBMC_CH_READY_READY) n 1 1)
  let s := s.funcSet 3
  if s.rd HBMC_CH_READY_READY = 0xFFFFFFFF then s.funcSet 4 else s

/-- The health record of tile `t` has been read: it joins TILES where it is usable. -/
def State.tileJoins (s : State) (t : Nat) : State :=
  if s.pwr.joined.contains t then s
  else
    let s := ({ s with pwr := { s.pwr with joined := s.pwr.joined ++ [t] } }).setDomain t (!s.unusable t)
    let n := s.usableTiles
    if s.rd SYS_FUNC_READY_TILES = n then s
    else (s.wr SYS_FUNC_READY_TILES n).raise EV_FUNC_READY (srcBlock 0) 16 1 0

/-- The facing roles filled with usable engines, if there are two (08 R191, R201); roles that usable engines hold stay. -/
def State.facingStart (s : State) : State :=
  let inp := s.rd LOAD_FE_ROLE_INPUT
  let out := s.rd LOAD_FE_ROLE_OUTPUT
  if inp < 3 ∧ out < 3 ∧ !s.unusable (104 + inp) ∧ !s.unusable (104 + out) then
    let s := if s.unusable (104 + s.rd LOAD_FE_ROLE_SPARE) then s.wr LOAD_FE_ROLE_SPARE 3 else s
    ((s.setDomain (104 + inp) true).setDomain (104 + out) true).funcSet 7
  else
  match (List.range 3).filter (fun e => !s.unusable (104 + e)) with
  | a :: b :: rest =>
    let s := (s.wr LOAD_FE_ROLE_INPUT a).wr LOAD_FE_ROLE_OUTPUT b
    let s := s.wr LOAD_FE_ROLE_SPARE (rest.headD 3)
    (((s.setDomain (104 + a) true).setDomain (104 + b) true)).funcSet 7
  | _ => s

/-- FUNC_READY (R357): the function at bit `b` of SYS_FUNC_READY completes its bring-up; `n` is the pseudo-channel or the tile. The
firmware brings functions up once it runs. -/
def execFuncReady (b n : Nat) (s : State) : Out1 :=
  .next (if !s.fw.running then s
    else if b = 3 ∨ b = 4 then (if n < 32 ∧ !s.unusable 124 then s.channelReady n else s)
    else if b = 5 then (if s.unusable 123 then s else (s.setDomain 123 true).funcSet 5)
    else if b = 7 then (if s.rd SYS_FUNC_READY_FACING = 1 then s else s.facingStart)
    else if b = 10 then (if (List.range 16).all (fun d => s.unusable (107 + d)) then s else s.funcSet 10)
    else if b = 2 then (if s.rd MGMT_STATUS_ADDR_VALID = 1 then s.funcSet 2 else s)
    else if b = 15 then s
    else if 16 ≤ b ∧ b ≤ 22 then (if n < 104 then s.tileJoins n else s)
    else if b < 15 then s.funcSet b
    else s)

end Sys2Proof.Machine
end

