-- ==== Sys2Proof/Machine/Security.lean ====
section
/-! DEFINITION. Live update, commit and flash write (16 R371, R376 to R379), attestation (R382, R383), debug mode (R384 to R387)
and the test access port (R386). -/
namespace Sys2Proof.Machine

/-- Bytes of HBM or commons read by master `m`; none where the access is denied, uncorrectable or elsewhere. -/
def State.masterRead (s : State) (m a n : Nat) : Option (List Byte) × State :=
  let g := s.accessCheck m a n rightR
  match g.1, place a n with
  | true, .mem .hbm off => g.2.read .hbm off n m
  | true, .mem .commons off => g.2.read .commons off n m
  | _, _ => (none, g.2)

/-- Bytes of HBM or commons written by master `m`; false where the write is denied, fails or lies elsewhere. -/
def State.masterWrite (s : State) (m a : Nat) (bs : List Byte) : Bool × State :=
  let g := s.accessCheck m a bs.length rightW
  match g.1, place a bs.length with
  | true, .mem .hbm off => g.2.write .hbm off bs m
  | true, .mem .commons off => g.2.write .commons off bs m
  | _, _ => (false, g.2)

/-! ## The flash image (R379) -/

/-- The image region of flash erased and rewritten with the running image; on failure FLASH_STALE is set, and the first 64 bytes of
the region are free (log entry 25). -/
def State.flashWrite (s : State) (ok : Bool) : State :=
  let r := s.storedImage
  let s := { r.2 with flash := { r.2.flash with cells := r.2.flash.cells.filter (fun c => decide (0x80000 ≤ c.1)) } }
  let s := s.flashPut 0 (r.1.getD [])
  if ok then s.wr FW_STATUS_FLASH_STALE 0
  else
    let f := s.takeFree
    ((f.2.flashPut 0 (leBytes 64 f.1)).wr FW_STATUS_FLASH_STALE 1).raise EV_FLASH_WRITE_FAILED f.2.secCore 0 0 0

/-- The flash write with an outcome that the spec leaves to the board: free. -/
def State.flashWriteFree (s : State) : State :=
  let f := s.takeFree
  f.2.flashWrite (f.1 % 2 == 0)

/-! ## COMMIT (R371) -/

/-- The lowest clear bits of a 64-bit word set until `n` bits are set. -/
def fillBits (n : Nat) : Nat → Nat → Nat
  | 0, w => w
  | k + 1, w =>
    let i := 63 - k
    fillBits n k (if popCount 64 w < n ∧ !bit w i then w + 2 ^ i else w)

/-- COMMIT: false where R371 refuses it. -/
def State.commitFw (s : State) : Bool × State :=
  let rev := s.otp.revoke.lor s.fw.revoke
  let live := (List.range 4).any (fun i => !bit rev i && s.otp.fwKeys.getD i 0 != 0)
  if s.rd FW_UPDATE_CTRL_BUSY = 1 ∨ s.rd FW_STATUS_FLASH_STALE = 1 ∨ bit s.fw.revoke s.fw.keySlot ∨ !live then (false, s)
  else
    let s := { s with otp := { s.otp with rollback := fillBits s.fw.secVersion 64 s.otp.rollback, revoke := rev } }
    (true, s.raise EV_ROLLBACK_COMMITTED s.secCore 0 0 0)

/-- A write of FW_CTRL; `ok` is the outcome of a flash write where the environment gives it. -/
def State.fwCtrl (s : State) (v : Nat) (ok : Option Bool) : Bool × State :=
  let r := if bit v 0 then s.commitFw else (true, s)
  if !r.1 then r
  else if bit v 1 then (true, (match ok with
    | some b => r.2.flashWrite b
    | none => r.2.flashWriteFree))
  else r

/-- FW_COMMIT (R371). -/
def execFwCommit (m : Nat) (s : State) : Out1 := .next (s.writeCmd m FW_CTRL_COMMIT.addr 1 (fun s => s.fwCtrl 1 none))

/-- FW_FLASH_WRITE (R379). -/
def execFwFlashWrite (m : Nat) (ok : Bool) (s : State) : Out1 :=
  .next (s.writeCmd m FW_CTRL_COMMIT.addr 2 (fun s => s.fwCtrl 2 (some ok)))

/-! ## Live update (R376 to R378, Table 16-8) -/

/-- Whether a compatibility table admits host interface version `h` (R368). -/
def hostOk (compat : List (Nat × Nat × Nat)) (h : Nat) : Bool :=
  compat.any (fun e => e.1 == 0 && decide (e.2.1 ≤ h) && decide (h ≤ e.2.2))

/-- Whether the forme of a slot is compatible with an image's version, table and formats (R368). -/
def formeFits (compat : List (Nat × Nat × Nat)) (v formats : Nat) (x : Slot) : Bool :=
  decide (x.ifMin ≤ v) && decide (v ≤ x.ifMax) && bit formats x.version &&
  compat.any (fun e => e.1 == 1 && decide (e.2.1 ≤ x.ifMin) && decide (v ≤ e.2.2))

/-- The cause for which a staged image is refused (R367, R377). -/
def State.updateCause (s : State) (img : Option (List Byte)) : Option Nat :=
  match s.imageCause img with
  | some c => some c
  | none =>
    let b := img.getD []
    let c := compatOf b
    let v := fieldAt b 0xC 4
    let sessions := [s.host.usb, s.host.mgmt].all (fun q => !q.isOpen || hostOk c q.version)
    let formes := s.slots.all (fun x => decide (x.st < 2) || formeFits c v (fieldAt b 0x12 2) x)
    if s.rd FW_VERSION_RUN_VERSION < fieldAt b 0x14 4 then some 7
    else if !sessions || !formes then some 8
    else none

/-- Step 1: the image copied into a staging area of commons, which the management cores alone reach; its first granule and the image,
none where it cannot be read or staged. -/
def State.stage (s : State) : (Nat × Option (List Byte)) × State :=
  let a := s.rd FW_UPDATE_ADDR_LO_ADDR * 256 + s.rd FW_UPDATE_ADDR_HI_ADDR * 2 ^ 32
  let h := s.masterRead s.secCore a 256
  match h.1 with
  | none => ((0, none), h.2)
  | some hd =>
    let r := h.2.masterRead h.2.secCore a (min 393216 (max 256 (fieldAt hd 0x34 4)))
    match r.1, r.2.freeGranules 6 with
    | some img, some g => ((g, some img), ((r.2.takeGranules g 6).write .commons (g * 65536) img r.2.secCore).2)
    | _, _ => ((0, none), r.2)

/-- The staging area released. -/
def State.unstage (s : State) (u : Upd) : State := if u.img.isSome then s.giveGranules u.granule 6 else s

/-- The update in progress changed; STEP shows the step of Table 16-8 that comes next. -/
def State.setUpd (s : State) (u : Option Upd) : State :=
  { s with fw := { s.fw with upd := u } }.wr FW_UPDATE_CTRL_STEP (u.elim 0 (fun x => x.step + 1))

/-- The compatibility table that a new session is compared with: the staged image's during steps 4 to 9 of an update (R377). -/
def State.openCompat (s : State) : List (Nat × Nat × Nat) :=
  match s.fw.upd with
  | some u => if 3 ≤ u.step then compatOf (u.img.getD []) else s.fw.compat
  | none => s.fw.compat

/-- Steps 2 and 3: the checks, and the refusal of an image that fails one. -/
def State.updCheck (s : State) (u : Upd) : State :=
  match s.updateCause u.img with
  | some c =>
    let s := (((s.unstage u).setUpd none).wr FW_UPDATE_CTRL_CAUSE c).wr FW_UPDATE_CTRL_BUSY 0
    s.raise EV_FW_UPDATE_REFUSED s.secCore c 0 0
  | none => s.setUpd (some { u with step := 3, img := u.img.map wholeImage })

/-- One pass of step 5: the next role, health first, passes to the core that runs the staged image, and its holder reloads; with no
spare left the holder reloads and keeps it (R375, R378). -/
def State.updPass (s : State) (u : Upd) : State :=
  let r := 3 - u.pass
  let from' := s.role r
  let to' := s.rd FW_ROLE_SPARE
  let s := if to' = 7 then s else (s.handOver r from' to').wr FW_ROLE_SPARE from'
  s.setUpd (some { u with pass := u.pass + 1, step := if u.pass = 3 then 5 else 4 })

/-- The next step of the update in progress (Table 16-8). -/
def State.updStep (s : State) : State :=
  match s.fw.upd with
  | none => s
  | some u =>
    let img := u.img.getD []
    match u.step with
    | 1 => s.updCheck u
    | 3 => s.setUpd (some { u with step := 4 })
    | 4 => s.updPass u
    | 5 => (s.putWords8 SEC_FW_DIGEST_DIGEST (padded (Config.sha false img) 32)).setUpd (some { u with step := 6 })
    | 6 => ((((s.write .msram imageArea img s.secCore).2).takeManifest img).unstage u).setUpd (some { u with step := 7 })
    | 7 => (if s.fw.bootSel = 0 ∨ s.fw.bootSel = 2 then s.flashWriteFree else s).setUpd (some { u with step := 8 })
    | _ =>
      let s := (s.setUpd none).wr FW_UPDATE_CTRL_BUSY 0
      s.raise EV_FW_UPDATE_DONE s.secCore (s.rd FW_VERSION_RUN_VERSION) 0 0

/-- `n` further steps of the update in progress. -/
def State.updSteps (s : State) : Nat → State
  | 0 => s
  | n + 1 => s.updStep.updSteps n

/-- START of an update, accepted: step 1, and the further steps as far as `pause` says (log entry 53). -/
def State.update (s : State) (pause : Option Nat) : State :=
  let s := ((s.wr FW_UPDATE_CTRL_CAUSE 0).wr FW_UPDATE_CTRL_BUSY 1).raise EV_FW_UPDATE_STARTED s.secCore 0 0 0
  let st := s.stage
  (st.2.setUpd (some { step := 1, granule := st.1.1, img := st.1.2 })).updSteps (pause.getD 10)

/-- A write of FW_UPDATE_CTRL. -/
def State.updateCtrl (s : State) (v : Nat) (pause : Option Nat := none) : Bool × State :=
  if !bit v 31 then (true, s)
  else if s.rd FW_UPDATE_CTRL_BUSY = 1 ∨ s.coresUp.length < 5 then (false, s)
  else (true, s.update pause)

/-- FW_UPDATE_START (R376). -/
def execFwUpdateStart (r : UpdReq) (s : State) : Out1 :=
  .next (s.writeCmd r.m FW_UPDATE_CTRL_START.addr (2 ^ 31) (fun s => s.updateCtrl (2 ^ 31) r.pause))

/-! ## Attestation (R383, Table 16-9) -/

/-- The eight words of a register array. -/
def State.words8 (s : State) (f : Fld) : List Byte := (List.range 8).flatMap (fun i => leBytes 4 (s.rd (f.idx i)))

/-- The report without its signature. -/
def State.attestReport (s : State) : List Byte :=
  leBytes 4 0x54545341 ++ leBytes 2 1 ++ leBytes 2 (b2n s.fw.debugUsed) ++ leBytes 8 s.now ++
  leBytes 4 (s.reg 0 SYS_ID_STEPPING.addr) ++ leBytes 4 (s.rd FW_VERSION_RUN_VERSION) ++ leBytes 4 (s.rd FW_IF_VERSION_VERSION) ++
  leBytes 2 s.fw.secVersion ++ leBytes 2 (popCount 64 s.otp.rollback) ++ leBytes 16 s.otp.uid ++ s.words8 SEC_ATTEST_NONCE_NONCE ++
  s.words8 SEC_FW_DIGEST_DIGEST ++ (if s.burl.st = 0 then zeros 32 else padded (Config.sha false s.burl.image) 32) ++
  (List.range 8).flatMap (fun k =>
    let x := s.slot k
    leBytes 4 x.st ++ zeros 12 ++ leBytes 16 x.formeId ++ padded x.digest 32)

/-- A write of SEC_ATTEST_CTRL. -/
def State.attestCtrl (s : State) (v : Nat) : Bool × State :=
  if !bit v 31 then (true, s)
  else if s.rd SEC_ATTEST_CTRL_BUSY = 1 then (false, s)
  else
    let a := s.rd SEC_ATTEST_ADDR_LO_ADDR * 64 + s.rd SEC_ATTEST_ADDR_HI_ADDR * 2 ^ 32
    let s := { s with fw := { s.fw with report := some (a, s.attestReport) } }
    (true, (s.wr SEC_ATTEST_CTRL_BUSY 1).wr SEC_ATTEST_CTRL_STATUS 0)

/-- ATTEST (R383). -/
def execAttest (m : Nat) (s : State) : Out1 :=
  .next (s.writeCmd m SEC_ATTEST_CTRL_ATTEST.addr (2 ^ 31) (fun s => s.attestCtrl (2 ^ 31)))

/-- ATTEST_DONE (R383): the report that waits signed and written, or the request FAILED. -/
def execAttestDone (s : State) : Out1 :=
  .next (match s.fw.report with
    | none => s
    | some (a, rep) =>
      let s := { s with fw := { s.fw with report := none } }.wr SEC_ATTEST_CTRL_BUSY 0
      let sig := padded (Config.slhSign s.otp.seed rep) 17088
      let w := if s.fw.attKey && s.otp.returned == 0 then s.masterWrite s.secCore a (rep ++ sig) else (false, s)
      if w.1 then (w.2.wr SEC_ATTEST_CTRL_STATUS 1).raise EV_ATTEST_DONE w.2.secCore 0 0 0
      else (w.2.wr SEC_ATTEST_CTRL_STATUS 2).raise EV_ATTEST_REFUSED w.2.secCore 0 0 0)

/-! ## Debug mode (R384, R385, R387) -/

/-- The cause for which a token is refused, 0 where it is accepted. -/
def State.tokenCause (s : State) (tok : Option (List Byte)) : Nat :=
  match tok with
  | none => 1
  | some b =>
    let h := b.take 64
    let keys := (List.range 2).filter (fun i => !bit s.otp.revoke (16 + i) && s.otp.debugKeys.getD i 0 != 0)
    let nonce := (List.range 4).flatMap (fun i => leBytes 4 (s.rd (SEC_DEBUG_NONCE_NONCE.idx i)))
    let form := fieldAt h 0 4 == 0x47554244 && fieldAt h 4 2 == 1 && zeroSpan h 40 24
    if !form || !keys.any (fun i => Config.slhVerify (s.otp.debugKeys.getD i 0) h (b.drop 64)) then 1
    else if fieldAt h 8 16 ≠ s.otp.uid % 2 ^ 128 ∨ slice h 24 16 ≠ nonce then 2
    else if s.ctxs.any (fun e => e.2.st != 0 && s.rdc (1 + e.1) CTX_BIND0_CONTRACT == 1) then 3
    else 0

/-- Debug mode entered with a scope (R385): the key registers are cleared, the identity key is absent. -/
def State.enterDebug (s : State) (scope : Nat) : State :=
  let s := { s with fw := { s.fw with attKey := false, debugUsed := true } }
  let s := s.putWords8 SEC_IDKEY_KEY (zeros 32)
  ((s.wr SEC_DEBUG_STATUS_ACTIVE 1).wr SEC_DEBUG_STATUS_SCOPE (scope % 16)).raise EV_DEBUG_ENTERED s.secCore 0 0 0

/-- A write of SEC_DEBUG_CTRL: a new nonce is drawn whatever the outcome. -/
def State.debugCtrl (s : State) (v : Nat) : Bool × State :=
  if !bit v 0 then (true, s)
  else
    let a := s.rd SEC_DEBUG_ADDR_LO_ADDR * 64 + s.rd SEC_DEBUG_ADDR_HI_ADDR * 2 ^ 32
    let r := s.masterRead s.secCore a (64 + 7856)
    let cause := r.2.tokenCause r.1
    let f := r.2.takeFree
    let s := (List.range 4).foldl (fun (s : State) i => s.wr (SEC_DEBUG_NONCE_NONCE.idx i) (bits f.1 (32 * i) 32)) f.2
    if cause ≠ 0 then (true, (s.wr SEC_DEBUG_STATUS_CAUSE cause).raise EV_DEBUG_REFUSED s.secCore cause 0 0)
    else
      let scope := fieldAt (r.1.getD []) 6 2
      let s := if bit scope 3 then { s with otp := { s.otp with returned := 1 } } else s
      (true, s.enterDebug scope)

/-- DEBUG_UNLOCK (R384). -/
def execDebugUnlock (m : Nat) (s : State) : Out1 :=
  .next (s.writeCmd m SEC_DEBUG_CTRL_UNLOCK.addr 1 (fun s => s.debugCtrl 1))

/-- Whether the test access port accepts an instruction (R386). -/
def State.tapAccepts (s : State) (i : TapIns) : Bool :=
  match i with
  | .bypass => true
  | .idcode => true
  | .sample => true
  | .extest => s.pwr.resetLow
  | .clamp => s.pwr.resetLow
  | .highz => s.pwr.resetLow
  | .other _ => s.rd SEC_DEBUG_STATUS_ACTIVE == 1 && bit (s.rd SEC_DEBUG_STATUS_SCOPE) 0

/-- TAP_INSTRUCTION (R386): a refused instruction selects the bypass register. -/
def execTapInstruction (i : TapIns) (s : State) : Out1 :=
  .next (s.emit (.tapSelect (if s.tapAccepts i then i else .bypass)))

end Sys2Proof.Machine
end

