-- ==== Sys2Proof/Machine/Attach.lean ====
section
/-! DEFINITION. The USB port's attachment (15 R344, R358), the management port's link, address and settings (R359, 16 R364), and the
end of a session (R342 to R345). -/
namespace Sys2Proof.Machine

/-- The end of a transport's session: a WAIT that holds it is abandoned, and requests kept behind it find no session (R342, R343). -/
def State.endSession (s : State) (mgmt : Bool) : State :=
  ((s.dropWaits (.host mgmt)).unhold mgmt).setSess mgmt {}

/-! ## USB -/

/-- The speed that the cap of USB_CTRL leaves of what the link can do (R358). -/
def State.usbSpeed (s : State) (link : Nat) : Nat := min link (4 - s.rd USB_CTRL_MAX_SPEED)

/-- USB_ATTACH (R344): VBUS as USB_VBUS_DET reads it; once the port can enumerate, the speed reached and whether the host has
selected the configuration. -/
def execUsbAttach (vbus : Bool) (speed : Nat) (configured : Bool) (s : State) : Out1 :=
  let v := if vbus && s.rd SYS_FUNC_READY_USB == 1 && decide (speed ≤ 4) then s.usbSpeed speed else 0
  let s := (s.wr USB_STATUS_VBUS (b2n vbus)).wr USB_STATUS_SPEED v
  let s := s.wr USB_STATUS_CONFIGURED (b2n (configured && decide (0 < v)))
  .next (if vbus then s else s.endSession false)

/-- USB_BUS_RESET (R344): the session ends; the host has yet to select the configuration again. -/
def execUsbBusReset (disconnect : Bool) (s : State) : Out1 :=
  let s := (s.endSession false).inc USB_BUS_RESETS_COUNT
  let s := s.wr USB_STATUS_CONFIGURED 0
  .next (if disconnect then s.wr USB_STATUS_SPEED 0 else s.wr USB_STATUS_SPEED (s.usbSpeed (s.rd USB_STATUS_SPEED)))

/-- USB_CTRL_WRITE (R358). -/
def execUsbCtrlWrite (m v : Nat) (s : State) : Out1 :=
  .next (s.writeCmd m USB_CTRL_MAX_SPEED.addr v (fun s => (true, s.setFields m USB_CTRL_MAX_SPEED.addr v)))

/-! ## The management port -/

/-- The flash configuration block (16 Table 16-2) of the settings that run. -/
def State.mgmtBlock (s : State) : List Byte :=
  let b := leBytes 4 (s.reg 0 MGMT_CFG_STATIC.addr) ++ leBytes 4 (s.rd MGMT_IP4_ADDR) ++ leBytes 4 (s.rd MGMT_MASK_MASK) ++
    leBytes 4 (s.rd MGMT_GW_ADDR) ++ zeros 4076
  b ++ leBytes 4 (crc32 b)

/-- The new settings written to the flash configuration block when BOOT_SEL is 0 or 2 (R359); whether the write succeeds is FREE, as
are the first 64 bytes of the block after one that fails (log entries 2, 25). -/
def State.saveMgmt (s : State) : State :=
  if s.fw.bootSel = 0 ∨ s.fw.bootSel = 2 then
    let f := s.takeFree
    let s := f.2.flashPut 0xE0000 f.2.mgmtBlock
    if f.1 % 2 = 0 then s
    else
      let g := s.takeFree
      (g.2.flashPut 0xE0000 (leBytes 64 g.1)).raise EV_FLASH_WRITE_FAILED g.2.secCore 0 0 0
  else s

/-- A write of MGMT_CFG by master `m`: the link goes down and the session ends; without a static address a DHCP exchange starts. -/
def State.mgmtCfg (s : State) (m v : Nat) : Bool × State :=
  if m = 0x71 then (false, s)
  else
    let s := (s.setFields m MGMT_CFG_STATIC.addr v).wr MGMT_STATUS_LINK_UP 0
    (true, ((s.wr MGMT_STATUS_ADDR_VALID (bits v 1 1)).endSession true).saveMgmt)

/-- Whether the ones of a mask are contiguous from bit 31. -/
def maskOk (v : Nat) : Bool := (List.range 33).any (fun n => v == 2 ^ 32 - 2 ^ n)

/-- A write of MGMT_IP4, MGMT_MASK or MGMT_GW at `a` by master `m`. -/
def State.mgmtAddr (s : State) (m a v : Nat) : Bool × State :=
  if m = 0x71 ∨ s.rd MGMT_CFG_STATIC = 0 ∨ (a = MGMT_MASK_MASK.addr ∧ !maskOk v) then (false, s)
  else (true, ((s.setFields m a v).endSession true).saveMgmt)

/-- MGMT_CFG_WRITE (R359). -/
def execMgmtCfgWrite (m v : Nat) (s : State) : Out1 :=
  .next (s.writeCmd m MGMT_CFG_STATIC.addr v (fun s => s.mgmtCfg m v))

/-- MGMT_ADDR_WRITE (R359): `off` is the offset from MGMT of MGMT_IP4, MGMT_MASK or MGMT_GW. -/
def execMgmtAddrWrite (m off v : Nat) (s : State) : Out1 :=
  .next (if off = 8 ∨ off = 12 ∨ off = 16 then
      s.writeCmd m (MGMT_CFG_STATIC.addr + off) v (fun s => s.mgmtAddr m (MGMT_CFG_STATIC.addr + off) v)
    else s)

/-- MGMT_LINK_CHANGE (R359): 1000BASE-X runs at 1,000 Mb/s. -/
def execMgmtLinkChange (up : Bool) (speed : Nat) (s : State) : Out1 :=
  let s := s.wr MGMT_STATUS_LINK_UP (b2n up)
  .next (s.wr MGMT_STATUS_SPEED (if s.rd MGMT_CFG_SGMII = 1 ∧ speed < 3 then speed else 2))

/-- DHCP_LEASE (16 R364): the firmware's exchange ends with a lease while no static address is set. -/
def execDhcpLease (ip mask gw : Nat) (s : State) : Out1 :=
  .next (if s.fw.running ∧ s.rd MGMT_CFG_STATIC = 0 ∧ s.rd MGMT_STATUS_LINK_UP = 1 then
      let s := ((s.wr MGMT_IP4_ADDR ip).wr MGMT_MASK_MASK mask).wr MGMT_GW_ADDR gw
      (s.wr MGMT_STATUS_ADDR_VALID 1).funcSet 2
    else s)

/-- MGMT_SESSION_TIMEOUT (R345): 30 s of base time without a request. -/
def execMgmtSessionTimeout (s : State) : Out1 :=
  .next (if s.host.mgmt.isOpen ∧ s.host.mgmt.lastReq + 30000000000 ≤ s.base then s.endSession true else s)

end Sys2Proof.Machine
end

