-- ==== Sys2Proof/Machine/BurlFabric.lean ====
section
/-! DEFINITION. The Burl fabric's logic (14 R325 to R329, R334, R338): the configuration image and its checks, the routing pool,
product terms, macrocells and multiplexers, and what an I/O cell drives. -/
namespace Sys2Proof.Machine

/-! ## The image (Tables 14-3 and 14-4) -/

/-- Place of block `b`. -/
def blkAt (b : Nat) : Nat := 0x40 + 1024 * b

/-- Place of the global frame. -/
def globalAt : Nat := 0x10040

/-- Input select `i` of block `b`. -/
def inSel (img : List Byte) (b i : Nat) : Nat := fieldAt img (blkAt b + 2 * i) 2

/-- Product term `t` of block `b`. -/
def ptWord (img : List Byte) (b t : Nat) : Nat := fieldAt img (blkAt b + 72 + 9 * t) 9

/-- The word of macrocell `m` of block `b`. -/
def mcWord (img : List Byte) (b m : Nat) : Nat := fieldAt img (blkAt b + 0x318 + 8 * m) 8

/-- The multiplexer word of block `b`. -/
def muxWord (img : List Byte) (b : Nat) : Nat := fieldAt img (blkAt b + 0x398) 8

/-- The word of I/O cell `c`. -/
def cellWord (img : List Byte) (c : Nat) : Nat := fieldAt img (globalAt + 4 * c) 4

/-- The word of clock `k`. -/
def clkWord (img : List Byte) (k : Nat) : Nat := fieldAt img (globalAt + 0x80 + 4 * k) 4

/-- Source `i` of queue `q`: 0 PUSH, 1 POP, then the 34 bits of the write word. -/
def queueSel (img : List Byte) (q i : Nat) : Nat := fieldAt img (globalAt + 0x100 + 72 * q + 2 * i) 2

/-- The multiplexer's select inputs. -/
def muxSel (w j : Nat) : Nat := bits w (8 + 8 * j) 6

/-- The terms that macrocell word `w` owns: those of its OR, and those of CE, SET and RST. -/
def ownedTerms (w : Nat) : List Nat :=
  (List.range (bits w 7 5)).map (fun i => bits w 0 7 + i) ++ (if bit w 24 then [bits w 17 7] else []) ++
  (if bit w 32 then [bits w 25 7] else []) ++ (if bit w 40 then [bits w 33 7] else [])

/-- Whether a source index exists (Table 14-2). -/
def sourceOk (i : Nat) : Bool := decide (i < 1148) || (decide (1152 ≤ i) && decide (i < 1424))

/-- The format of an input or queue select: its zero bits. -/
def selForm (v : Nat) : Bool := bits v 11 4 == 0

/-- The format of a macrocell word; `last` says that it is macrocell 15. -/
def mcForm (w : Nat) (last : Bool) : Bool :=
  bits w 43 21 == 0 && decide (bits w 7 5 ≤ 20) && decide (bits w 0 7 + bits w 7 5 ≤ 80) && decide (bits w 13 2 < 3) &&
  (!bit w 24 || decide (bits w 17 7 < 80)) && (!bit w 32 || decide (bits w 25 7 < 80)) && (!bit w 40 || decide (bits w 33 7 < 80)) &&
  (!bit w 42 || last)

/-- The format of the multiplexer word of block `b` (R327). -/
def muxForm (img : List Byte) (b : Nat) : Bool :=
  let w := muxWord img b
  let full := fun (v : Nat) => bit v 0 && bits v 1 2 == 3
  bits w 4 4 == 0 && bits w 14 2 == 0 && bits w 22 2 == 0 && bits w 30 2 == 0 && bits w 38 2 == 0 && bits w 46 18 == 0 &&
  (!bit w 0 || (List.range 5).all (fun j => decide (muxSel w j < 36))) &&
  (!bit w 3 || (b % 2 == 0 && full w && full (muxWord img (b + 1))))

/-- Whether `n` bytes from `off` on are zero. -/
def zeroAt (img : List Byte) (off n : Nat) : Bool := (slice img off n).all (fun x => x == 0)

/-- The format of an image with its signature (R329, Tables 14-3 and 14-4). -/
def burlForm (img : List Byte) : Bool :=
  let flags := fieldAt img 6 2
  let sig := fieldAt img 8 4
  fieldAt img 0 4 == 0x4C525542 && fieldAt img 4 2 == 1 && decide (flags ≤ 1) &&
  sig == 0x11040 + flags * 131072 && fieldAt img 12 4 == sig + 7856 && img.length == sig + 7856 && zeroAt img 0x20 32 &&
  (List.range 64).all (fun b => (List.range 36).all (fun i => selForm (inSel img b i)) &&
    (List.range 16).all (fun m => mcForm (mcWord img b m) (m == 15)) && muxForm img b && zeroAt img (blkAt b + 0x3A0) 0x60) &&
  (List.range 32).all (fun c => bits (cellWord img c) 10 6 == 0 && bits (cellWord img c) 26 4 == 0) &&
  (List.range 4).all (fun k => let w := clkWord img k
    bits w 13 2 == 0 && bits w 16 16 == 0 && (bit w 15 || decide (2 ≤ bits w 0 8))) &&
  (List.range 8).all (fun q => (List.range 36).all (fun i => selForm (queueSel img q i))) &&
  zeroAt img (globalAt + 0x90) 0x70 && zeroAt img (globalAt + 0x340) 0xCC0

/-- Whether every source that an image names exists. -/
def burlSources (img : List Byte) : Bool :=
  let ok := fun (v : Nat) => !bit v 15 || sourceOk (bits v 0 11)
  (List.range 64).all (fun b => (List.range 36).all (fun i => ok (inSel img b i))) &&
  (List.range 8).all (fun q => (List.range 36).all (fun i => ok (queueSel img q i)))

/-- Whether each product term has at most one owner (R326). -/
def burlOwners (img : List Byte) : Bool :=
  (List.range 64).all (fun b =>
    let l := (List.range 16).flatMap (fun m => ownedTerms (mcWord img b m))
    l.eraseDups.length == l.length)

/-! ## The routing pool (Table 14-2) -/

/-- The image that the fabric holds. -/
def State.bimg (s : State) : List Byte := s.burl.image

/-- The filtered input of cell `c` after INV (R337). -/
def State.ioIn (s : State) (c : Nat) : Bool := s.io.filt.getD c false != (s.rd (BURL_IO_INV.idx c) == 1)

/-- Flag `f` of queue `q` (R331). -/
def State.qFlag (s : State) (q f : Nat) : Bool :=
  let n := (s.bq q).level
  match f with
  | 0 => n == 0
  | 1 => n == 4096
  | 2 => decide (n ≤ s.qf q BURL_QWM_LO)
  | _ => decide (s.qf q BURL_QWM_HI ≤ n)

/-- Source `i` of the pool for a user on clock `clk`, the macrocell values given. -/
def State.pool (s : State) (mc : List Bool) (clk i : Nat) : Bool :=
  let last := s.burl.lastEdge.getD clk 0
  if i < 1024 then mc.getD i false
  else if i < 1056 then s.ioIn (i - 1024)
  else if i < 1096 then
    let t := s.burl.taps.getD ((i - 1056) / 5) {}
    if (i - 1056) % 5 = 4 then t.strobe else t.bits.testBit ((i - 1056) % 5)
  else if i < 1128 then s.qFlag ((i - 1096) / 4) ((i - 1096) % 4)
  else if i < 1144 then (s.rd BURL_SOFT_BITS).testBit (i - 1128)
  else if i = 1145 then true
  else if i = 1146 then s.base / 1000 != last / 1000
  else if i = 1147 then s.base / 1000000 != last / 1000000
  else if 1152 ≤ i ∧ i < 1424 then
    let w := (s.bq ((i - 1152) / 34)).head
    (w.1 + w.2 * 2 ^ 32).testBit ((i - 1152) % 34)
  else false

/-- The value of a select word. -/
def State.selVal (s : State) (mc : List Bool) (clk sel : Nat) : Bool := bit sel 15 && s.pool mc clk (bits sel 0 11)

/-- The 36 inputs of block `b`. -/
def State.blockIns (s : State) (mc : List Bool) (b clk : Nat) : List Bool :=
  (List.range 36).map (fun i => s.selVal mc clk (inSel s.bimg b i))

/-! ## Macrocells (R326, R327) -/

/-- A product term over the inputs: the AND of the literals it selects. -/
def termVal (w : Nat) (ins : List Bool) : Bool :=
  (List.range 36).all (fun i => let x := ins.getD i false
    (!bit w (2 * i) || x) && (!bit w (2 * i + 1) || !x))

/-- Product term `t` of block `b` over its inputs. -/
def State.term (s : State) (b t : Nat) (ins : List Bool) : Bool := termVal (ptWord s.bimg b t) ins

/-- The OR of macrocell `m` of block `b` after XOR. -/
def State.orVal (s : State) (b m : Nat) (ins : List Bool) : Bool :=
  let w := mcWord s.bimg b m
  ((List.range (bits w 7 5)).any (fun i => s.term b (bits w 0 7 + i) ins)) != bit w 12

/-- The output of the multiplexer of block `b` alone. -/
def State.muxVal (s : State) (b : Nat) (ins : List Bool) : Bool :=
  let w := muxWord s.bimg b
  let sel := listSum ((List.range (bits w 1 2 + 1)).map (fun j => b2n (ins.getD (muxSel w j) false) * 2 ^ j))
  s.orVal b sel ins

/-- What reaches macrocell 15 of block `b` from its multiplexer, or from two that are joined. -/
def State.muxOut (s : State) (mc : List Bool) (b clk : Nat) : Bool :=
  let ins := s.blockIns mc b clk
  if b % 2 = 1 ∧ bit (muxWord s.bimg (b - 1)) 3 then
    if ins.getD (muxSel (muxWord s.bimg b) 4) false then s.muxVal b ins else s.muxVal (b - 1) (s.blockIns mc (b - 1) clk)
  else s.muxVal b ins

/-- The D or T input of macrocell `m` of block `b`. -/
def State.cellIn (s : State) (mc : List Bool) (b m : Nat) : Bool :=
  let w := mcWord s.bimg b m
  let clk := bits w 15 2
  if bit w 42 ∧ bit (muxWord s.bimg b) 0 then s.muxOut mc b clk else s.orVal b m (s.blockIns mc b clk)

/-- A macrocell's value from the values of all: a COMB cell passes its OR; a registered one is at INIT under the global reset, and
obeys RST, then SET. -/
def State.cellNow (s : State) (mc : List Bool) (i : Nat) : Bool :=
  let b := i / 16
  let w := mcWord s.bimg b (i % 16)
  let ins := s.blockIns mc b (bits w 15 2)
  if bits w 13 2 = 0 then s.orVal b (i % 16) ins
  else if !s.burl.run then bit w 41
  else if bit w 40 && s.term b (bits w 33 7) ins then false
  else if bit w 32 && s.term b (bits w 25 7) ins then true
  else mc.getD i false

/-- All macrocells one round on. -/
def State.mcRound (s : State) (mc : List Bool) : List Bool := (List.range 1024).map (s.cellNow mc)

/-- Rounds until nothing changes; `fuel` bounds them. -/
def State.mcSettle (s : State) (mc : List Bool) : Nat → List Bool
  | 0 => mc
  | fuel + 1 =>
    let n := s.mcRound mc
    if n = mc then mc else s.mcSettle n fuel

/-- The fabric's logic settled for its inputs as they stand. -/
def State.settleBurl (s : State) : State :=
  if 2 ≤ s.burl.st then { s with burl := { s.burl with mc := s.mcSettle s.burl.mc 1024 } } else s

/-- The registered macrocells after an edge of clock `k`, from the values before it. -/
def State.mcEdge (s : State) (mc : List Bool) (k : Nat) : List Bool :=
  (List.range 1024).map (fun i =>
    let b := i / 16
    let w := mcWord s.bimg b (i % 16)
    let q := mc.getD i false
    if bits w 13 2 = 0 ∨ bits w 15 2 ≠ k ∨ !s.burl.run then q
    else if bit w 24 && !s.term b (bits w 17 7) (s.blockIns mc b k) then q
    else
      let d := s.cellIn mc b (i % 16)
      if bits w 13 2 = 2 then q != d else d)

/-! ## What an I/O cell drives (R338, R418) -/

/-- Whether the cells of bank `g` work: its supply lies in a range, and has for 100 µs (R418). -/
def State.bankLive (s : State) (g : Nat) : Bool :=
  s.io.bank.getD g 0 != 0 && decide (s.io.since.getD g 0 + 100000 ≤ s.base)

/-- The level that cell `c` drives, or none where it is high impedance. -/
def State.ioPin (s : State) (c : Nat) : Option Bool :=
  let w := cellWord s.bimg c
  let mc := fun (i : Nat) => s.burl.mc.getD i false
  if !s.bankLive (c / 8) then none
  else if s.burl.outs && bit w 31 then
    let v := mc (bits w 0 10)
    if (bit w 30 && !mc (bits w 16 10)) || (s.rd (BURL_IO_OD.idx c) == 1 && v) then none else some v
  else
    match s.rd (BURL_IO_SAFE.idx c) with
    | 0 => some false
    | 1 => some true
    | _ => none

end Sys2Proof.Machine
end

