-- ==== Sys2Proof/Machine/NetRx.lean ====
section
/-! DEFINITION. The Ethernet ports' configuration and links, and their receive path (13 R291 to R296, R299 to R301, R310): the
checks of Table 13-2 up to the jitter buffer. -/
namespace Sys2Proof.Machine

/-- Whether a VLAN identifier is in the range that Tables 13-8 and 13-10 give it where VLAN_EN is 1. -/
def vidOk (en vid : Nat) : Bool := en == 0 || (decide (1 ≤ vid) && decide (vid ≤ 4094))

/-! ## Configuration and links (R291, R292) -/

/-- Links of a mode (Table 13-1). -/
def modeLinks (mode : Nat) : Nat := if mode = 0 then 0 else if mode ≤ 2 then 1 else if mode ≤ 5 then 4 else 0

/-- Whether the FEC values fit the mode (Table 13-1); with the port off there is no link that they could fail to fit. -/
def fecFits (mode fec : Nat) : Bool :=
  let l := fun i => bits fec (2 * i) 2
  if mode = 0 then true
  else if mode ≤ 2 then fec == 3
  else (List.range 4).all (fun i => decide (l i ≤ if mode = 5 then 1 else 2))

/-- Link `l` of port `p` comes up or goes down: NET_LINK_CHANGE where its state changes (R292). -/
def State.setLink (s : State) (p l : Nat) (up fec : Bool) : State :=
  let was := (s.rd (NET_STATUS_LINK_UP.net p)).testBit l
  let put := fun (s : State) (f : Fld) (b : Bool) => s.wr (f.net p) (setBits (s.rd (f.net p)) l 1 (b2n b))
  let s := put (put s NET_STATUS_LINK_UP up) NET_STATUS_FEC_LOCK (fec && up)
  if was = up then s else s.raise EV_NET_LINK_CHANGE (0x51 + p) p l (b2n up)

/-- A write of NETn_CFG: a change of MODE, FEC or AN_EN takes every link of the port down; a nonzero MODE needs power for the port
(17 R395) and a port that is not unusable (Table 17-7), and MODE 0 switches it off. -/
def State.netCfg (s : State) (m p v : Nat) : Bool × State :=
  let mode := bits v 0 3
  if !fecFits mode (bits v 10 8) ∨ (mode ≠ 0 ∧ s.unusable (125 + p)) then (false, s)
  else
    let on := if mode = 0 then (true, s.powerDown (125 + p)) else s.powerUp [125 + p]
    if !on.1 then on
    else
      let same := mode == s.rd (NET_CFG_MODE.net p) && bits v 10 8 == s.rd (NET_CFG_FEC.net p) &&
        bits v 4 1 == s.rd (NET_CFG_AN_EN.net p)
      let s := on.2.setFields m (NET_CFG_MODE.net p).addr v
      (true, if same then s else (List.range 4).foldl (fun (s : State) l => s.setLink p l false false) s)

/-- NET_CFG_WRITE (R292). -/
def execNetCfgWrite (m port v : Nat) (s : State) : Out1 :=
  .next (if port < 2 then s.writeCmd m (NET_CFG_MODE.net port).addr v (fun s => s.netCfg m port v) else s.answer .busError)

/-- Whether the function of port `p` is ready (R357). -/
def State.netReady (s : State) (p : Nat) : Bool := s.blockReady (9 + p)

/-- NET_LINK_CHANGE (R292): a link that the mode has changes state. -/
def execNetLinkChange (port link : Nat) (up fec : Bool) (s : State) : Out1 :=
  .next (if port < 2 ∧ link < modeLinks (s.rd (NET_CFG_MODE.net port)) then s.setLink port link up fec else s)

/-- Whether link `l` of port `p` is up. -/
def State.linkUp (s : State) (p l : Nat) : Bool := (s.rd (NET_STATUS_LINK_UP.net p)).testBit l

/-! ## Addresses -/

/-- The MAC address of a link, in transmission order. -/
def State.linkMac (s : State) (p l : Nat) : Nat :=
  s.rdc (1 + l) (NET_MAC_HI_MAC.net p) * 2 ^ 32 + s.rdc (1 + l) (NET_MAC_LO_MAC.net p)

/-- Four words of an address of copy `c`, the first the most significant. -/
def State.addr128 (s : State) (c : Nat) (f : Fld) : Nat :=
  (List.range 4).foldl (fun a k => a * 2 ^ 32 + s.rdc c (f.idx k)) 0

/-- The address of a link: IPv4 or IPv6; 0 says that it has none. -/
def State.linkIp (s : State) (p l : Nat) (v6 : Bool) : Nat :=
  if v6 then s.addr128 (1 + l) (NET_IP6_ADDR.net p) else s.rdc (1 + l) (NET_IP4_ADDR.net p)

/-- The multicast MAC of a group. -/
def groupMac (v6 : Bool) (g : Nat) : Nat := if v6 then 0x333300000000 + g % 2 ^ 32 else 0x01005E000000 + g % 2 ^ 23

/-- The PTP multicast groups (R310). -/
def ptpGroup (v6 : Bool) (g : Nat) : Bool :=
  if v6 then g / 2 ^ 116 == 0xFF0 && (g % 2 ^ 112 == 0x181 || g % 2 ^ 116 == 2 * 2 ^ 112 + 0x6B)
  else g == 0xE0000181 || g == 0xE000006B

/-- The contexts whose ingest is enabled. -/
def State.enabledCtxs (s : State) : List Nat :=
  s.regs.filterMap (fun e => if e.1 % 0x10000000000 = NET_CTX_CFG_EN.addr ∧ 1 ≤ e.1 / 0x10000000000 ∧ bit e.2.toNat 31
    then some (e.1 / 0x10000000000 - 1) else none)

/-- A field of the ingest registers of context `c`. -/
def State.ictx (s : State) (c : Nat) (f : Fld) : Nat := s.rdc (1 + c) f

/-- The group of context `c`. -/
def State.ctxGroup (s : State) (c : Nat) : Nat :=
  if s.ictx c NET_CTX_CFG_IPV6 = 1 then s.addr128 (1 + c) NET_CTX_GROUP_ADDR else s.ictx c NET_CTX_GROUP_ADDR

/-- Whether a destination MAC is accepted on a link: the link's own, or a multicast address that PTP or an enabled context accepts. -/
def State.macOk (s : State) (p l mac : Nat) : Bool :=
  mac == s.linkMac p l ||
  (s.rd (NET_CFG_PTP_EN.net p) == 1 && ([0x011B19000000, 0x0180C200000E, 0x01005E000181, 0x01005E00006B, 0x333300000181,
    0x33330000006B] : List Nat).contains mac) ||
  s.enabledCtxs.any (fun c => s.ictx c NET_CTX_CFG_MCAST == 1 && s.ictx c NET_CTX_CFG_PORT == p && s.ictx c NET_CTX_CFG_LINK == l &&
    mac == groupMac (s.ictx c NET_CTX_CFG_IPV6 == 1) (s.ctxGroup c))

/-! ## Frames (R293) -/

/-- The sum of big-endian 16-bit words. -/
def sum16 : List Byte → Nat
  | a :: b :: t => a.toNat * 256 + b.toNat + sum16 t
  | [a] => a.toNat * 256
  | [] => 0

/-- A sum folded to 16 bits with end-around carry. -/
def fold16 (n : Nat) : Nat :=
  let m := n % 65536 + n / 65536
  m % 65536 + m / 65536

/-- The big-endian field of `n` bytes at `off`. -/
def beAt (bs : List Byte) (off n : Nat) : Nat := beNat (slice bs off n)

/-- A frame's tag and type: VID, EtherType, and what follows; a frame that Table 13-2 discards as badly tagged has none. -/
def untag (f : List Byte) : Option (Option Nat × Nat × List Byte) :=
  let other := fun t => ([0x88A8, 0x9100, 0x9200, 0x9300] : List Nat).contains t
  let t := beAt f 12 2
  if other t then none
  else if t = 0x8100 then
    let t2 := beAt f 16 2
    if other t2 ∨ t2 = 0x8100 then none else some (some (beAt f 14 2 % 4096), t2, f.drop 18)
  else some (none, t, f.drop 14)

/-- A UDP datagram: IP version, addresses, ports and payload. -/
structure Udp where
  v6 : Bool
  src : Nat
  dst : Nat
  sport : Nat
  dport : Nat
  data : List Byte
deriving DecidableEq, Repr

/-- The sum over the pseudo-header and the datagram `u`. -/
def udpSum (v6 : Bool) (src dst : Nat) (u : List Byte) : Nat :=
  let n := if v6 then 16 else 4
  fold16 (sum16 (beBytes n src) + sum16 (beBytes n dst) + 17 + u.length + sum16 u)

/-- The UDP checks (cause 8) of the `n` bytes `u` that IP carries. -/
def udpOf (v6 : Bool) (src dst : Nat) (u : List Byte) : Except Nat Udp :=
  let ck := beAt u 6 2
  if u.length < 8 ∨ beAt u 4 2 ≠ u.length then .error 8
  else if (ck = 0 ∧ v6) ∨ (ck ≠ 0 ∧ udpSum v6 src dst u ≠ 0xFFFF) then .error 8
  else .ok ⟨v6, src, dst, beAt u 0 2, beAt u 2 2, u.drop 8⟩

/-- The IP checks (causes 5 to 9) of a packet of EtherType `t`. -/
def ipOf (t : Nat) (b : List Byte) : Except Nat Udp :=
  if t = 0x0800 then
    let ihl := bits (beAt b 0 1) 0 4 * 4
    let len := beAt b 2 2
    if beAt b 0 1 / 16 ≠ 4 ∨ ihl < 20 ∨ len < ihl ∨ b.length < len ∨ fold16 (sum16 (b.take ihl)) ≠ 0xFFFF then .error 5
    else if beAt b 6 2 % 0x4000 ≠ 0 then .error 6
    else if beAt b 9 1 ≠ 17 then .error 9
    else udpOf false (beAt b 12 4) (beAt b 16 4) ((b.take len).drop ihl)
  else if t = 0x86DD then
    let len := beAt b 4 2
    let next := beAt b 6 1
    if beAt b 0 1 / 16 ≠ 6 ∨ b.length < 40 + len ∨ ([0, 43, 44, 50, 51, 60, 135, 139, 140] : List Nat).contains next then .error 7
    else if next ≠ 17 then .error 9
    else udpOf true (beAt b 8 16) (beAt b 24 16) ((b.drop 40).take len)
  else .error 9

/-! ## RTP (R295, R296, R299 to R301) -/

/-- An RTP packet: marker, payload type, sequence number, timestamp, SSRC, payload. -/
structure Rtp where
  marker : Bool
  pt : Nat
  seq : Nat
  ts : Nat
  ssrc : Nat
  data : List Byte
deriving DecidableEq, Repr

/-- The RTP header taken off: CSRC entries, header extension and padding are skipped. -/
def rtpOf (u : List Byte) : Option Rtp :=
  let b0 := beAt u 0 1
  let h := 12 + 4 * bits b0 0 4
  let h2 := if bit b0 4 then h + 4 + 4 * beAt u (h + 2) 2 else h
  let pad := if bit b0 5 then (u.getLastD 0).toNat else 0
  if u.length < 12 ∨ b0 / 64 ≠ 2 ∨ u.length < h2 + pad ∨ (bit b0 5 ∧ pad = 0) then none
  else some ⟨bit (beAt u 1 1) 7, beAt u 1 1 % 128, beAt u 2 2, beAt u 4 4, beAt u 8 4, (u.drop h2).take (u.length - h2 - pad)⟩

/-- One line segment of RFC 4175: field bit, line, offset in pixels, bytes. -/
structure RawSeg where
  field : Bool
  line : Nat
  off : Nat
  data : List Byte
deriving DecidableEq, Repr

/-- The segment headers of a payload, the first at `u`, as (length, field, line, offset), and what follows them. -/
def segHeads (u : List Byte) : Nat → Option (List (Nat × Bool × Nat × Nat) × List Byte)
  | 0 => none
  | fuel + 1 =>
    if u.length < 6 then none
    else
      let h := (beAt u 0 2, bit (beAt u 2 2) 15, beAt u 2 2 % 32768, beAt u 4 2 % 32768)
      if bit (beAt u 4 2) 15 then (segHeads (u.drop 6) fuel).map (fun r => (h :: r.1, r.2))
      else some ([h], u.drop 6)

/-- The segments of a payload of RFC 4175; none where it is malformed. -/
def rawSegs (u : List Byte) : Option (List RawSeg) :=
  match segHeads (u.drop 2) u.length with
  | none => none
  | some (hs, d) =>
    if listSum (hs.map (·.1)) ≠ d.length then none
    else some (hs.foldl (fun (a : List RawSeg × List Byte) h => (a.1 ++ [⟨h.2.1, h.2.2.1, h.2.2.2, a.2.take h.1⟩], a.2.drop h.1))
      ([], d)).1

/-- Sample depth, samples per group, pixels per group and rows per group of CTX_RAW_FMT. -/
def rawFmt (fmt : Nat) : Nat × Nat × Nat × Nat :=
  match fmt with
  | 0 => (8, 4, 2, 1)
  | 1 => (10, 4, 2, 1)
  | 2 => (8, 6, 2, 2)
  | 3 => (10, 6, 2, 2)
  | _ => (8, 3, 1, 1)

/-- Pixels of a segment. -/
def RawSeg.pixels (g : RawSeg) (fmt : Nat) : Nat :=
  let f := rawFmt fmt
  g.data.length * 8 / (f.1 * f.2.1) * f.2.2.1

/-- Whether a segment lies within a picture of `w` × `h` (R301). -/
def RawSeg.inside (g : RawSeg) (fmt w h : Nat) : Bool :=
  decide (g.line + (rawFmt fmt).2.2.2 ≤ h) && decide (g.off + g.pixels fmt ≤ w)

/-- Whether the packetization of a payload is one that the context supports (cause 12). -/
def payloadOk (kind : Nat) (u : List Byte) : Bool :=
  match kind with
  | 0 =>
    let t := beAt u 0 1 % 32
    u != [] && decide (1 ≤ t) && (decide (t ≤ 24) || t == 28)
  | 1 => decide (2 ≤ u.length) && decide (bits (beAt u 0 1) 1 6 ≤ 49)
  | _ => (rawSegs u).any (fun l => l.all (fun g => !g.field))

/-- The frame passes to PTP, to a context with its RTP packet, or is discarded under a cause. -/
inductive RxEnd where
  | ptp
  | rtp (c : Nat) (r : Rtp)
  | drop (cause : Nat)
deriving DecidableEq, Repr

/-- The enabled context whose key a datagram on a link with a tag matches (R295). -/
def State.rxCtx (s : State) (p l : Nat) (vid : Option Nat) (u : Udp) : Option Nat :=
  s.enabledCtxs.find? (fun c =>
    let f := s.ictx c
    f NET_CTX_CFG_PORT == p && f NET_CTX_CFG_LINK == l && (if f NET_CTX_CFG_VLAN_EN = 1 then vid == some (f NET_CTX_CFG_VID) else
      vid.isNone) && f NET_CTX_CFG_IPV6 == b2n u.v6 &&
    (if f NET_CTX_CFG_MCAST = 1 then u.dst == s.ctxGroup c else u.dst == s.linkIp p l u.v6 && u.dst != 0) &&
    u.dport == f NET_CTX_UDP_DST_PORT &&
    (f NET_CTX_CFG_SSRC_EN == 0 || (decide (12 ≤ u.data.length) && beAt u.data 8 4 == f NET_CTX_SSRC_SSRC)))

/-- The checks of a context on a datagram (causes 10 to 12; in Retain every context packet goes under cause 10, 17 R397). -/
def State.rxRtp (s : State) (c : Nat) (u : Udp) : RxEnd :=
  let x := s.ctx c
  if x.st ≠ 2 ∨ s.rdc (1 + c) CTX_BIND0_SOURCE ≠ 0 ∨ s.power = 2 then .drop 10
  else
    match rtpOf u.data with
    | none => .drop 11
    | some r =>
      if r.pt ≠ s.ictx c NET_CTX_CFG_PT ∨ (x.ing.ssrc.any (fun v => v != r.ssrc)) then .drop 11
      else if !payloadOk (s.ictx c NET_CTX_CFG_PAYLOAD) r.data then .drop 12
      else .rtp c r

/-- The checks of Table 13-2 in order. -/
def State.rxCheck (s : State) (p l : Nat) (fcsOk : Bool) (f : List Byte) : RxEnd :=
  let tagged := decide (beAt f 12 2 = 0x8100)
  let ptp := s.rd (NET_CFG_PTP_EN.net p) == 1
  if !fcsOk then .drop 0
  else if f.length + 4 < 64 ∨ s.rd (NET_CFG_MAX_FRAME.net p) + 4 * b2n tagged < f.length + 4 then .drop 1
  else if beAt f 12 2 = 0x8808 then .drop 2
  else
    match untag f with
    | none => .drop 3
    | some (vid, t, b) =>
      if !s.macOk p l (beAt f 0 6) then .drop 4
      else if t = 0x88F7 then (if ptp then .ptp else .drop 9)
      else
        match ipOf t b with
        | .error k => .drop k
        | .ok u =>
          if ptp ∧ (u.dport = 319 ∨ u.dport = 320) ∧ ((u.dst = s.linkIp p l u.v6 ∧ u.dst ≠ 0) ∨ ptpGroup u.v6 u.dst) then .ptp
          else
            match s.rxCtx p l vid u with
            | none => .drop 9
            | some c => s.rxRtp c u

/-- A frame discarded under a cause of Table 13-2 at port `p`. -/
def State.netDrop (s : State) (p cause : Nat) : State := s.inc ((NET_DROP_COUNT.idx cause).net p)

/-- A PTP frame stamped and queued (R310, Table 13-6), or discarded where the queue is full. -/
def State.ptpQueue (s : State) (p l : Nat) (f : List Byte) : State :=
  let x := s.port p
  if 64 ≤ x.rxCount then s.netDrop p 15
  else
    let i := (x.head + x.rxCount) % 64
    let bs := leBytes 8 s.now ++ leBytes 2 f.length ++ leBytes 1 l ++ leBytes 1 (b2n (decide (240 < f.length))) ++ zeros 4 ++
      slice f 0 240
    let s := (List.range 64).foldl (fun (s : State) k =>
      s.wr ((NET_PTP_RXE_WORD.idx (64 * i + k)).net p) (fieldAt bs (4 * k) 4)) s
    s.modNet p (fun y => { y with rxCount := y.rxCount + 1 })

end Sys2Proof.Machine
end

