-- ==== Sys2Proof/Machine/Resize.lean ====
section
/-! DEFINITION. The resize-and-convert unit (13 R307, R308): cropping, resampling and the picture formats. -/
namespace Sys2Proof.Machine

/-- One plane, as rows of samples. -/
abbrev Plane := List (List Nat)

/-- Which weights are rounded up, so that they sum to 4,096: `rest` are the remainders and `d` how many are rounded up. The choice is
free (log entry 20); only a weight that is not a multiple of 2^-12 may be. -/
def roundUps (inn out k d : Nat) (rest : List Nat) : List Bool :=
  let f := Config.tapUp inn out k
  if f.length = rest.length ∧ (f.filter (fun b => b)).length = d ∧ (f.zip rest).all (fun (p : Bool × Nat) => !p.1 || p.2 != 0) then f
  else
    (rest.foldl (fun (a : List Bool × Nat) r => if r ≠ 0 ∧ 0 < a.2 then (a.1 ++ [true], a.2 - 1) else (a.1 ++ [false], a.2))
      ([], d)).1

/-- Weights in units of 2^-12 of exact weights `nums` over `den`, which sum to 1. -/
def weights12 (inn out k den : Nat) (nums : List Nat) : List Nat :=
  let lows := nums.map (fun n => n * 4096 / den)
  let ups := roundUps inn out k (4096 - listSum lows) (nums.map (fun n => n * 4096 % den))
  (lows.zip ups).map (fun (p : Nat × Bool) => p.1 + b2n p.2)

/-- The input samples of output sample `k` of an axis that goes from `inn` to `out` samples, with their weights in units of 2^-12
(R307): bilinear where r ≤ 1, else by overlap. -/
def taps (inn out k : Nat) : List (Nat × Nat) :=
  if inn = 0 ∨ out = 0 then []
  else if inn ≤ out then
    let num : Int := (2 * k + 1 : Int) * inn - out
    let lo := num / (2 * (out : Int))
    let frac := (num % (2 * (out : Int))).toNat
    let at_ := fun (x : Int) => min (inn - 1) x.toNat
    [at_ lo, at_ (lo + 1)].zip (weights12 inn out k (2 * out) [2 * out - frac, frac])
  else
    let a := k * inn
    let b := a + inn
    let is := (List.range ((b - 1) / out + 1 - a / out)).map (fun i => a / out + i)
    is.zip (weights12 inn out k inn (is.map (fun i => min b ((i + 1) * out) - max a (i * out))))

/-- A plane cropped: `w` × `h` samples from column `x`, row `y` on. -/
def cropPlane (p : Plane) (x y w h : Nat) : Plane :=
  (List.range h).map (fun j => let row := p.getD (y + j) []
    (List.range w).map (fun i => row.getD (x + i) 0))

/-- A plane of `w` × `h` samples resampled to `ow` × `oh` (R307). -/
def resample (p : Plane) (w h ow oh : Nat) : Plane :=
  (List.range oh).map (fun j =>
    let ys := taps h oh j
    (List.range ow).map (fun i =>
      let xs := taps w ow i
      roundShift false (listSum (ys.map (fun (a : Nat × Nat) => let row := p.getD a.1 []
        a.2 * listSum (xs.map (fun (b : Nat × Nat) => b.2 * row.getD b.1 0))))) 24))

/-- An 8-bit sample of a sample of `bits` bits (R308). -/
def to8 (bits v : Nat) : Nat := if bits = 10 then min 255 (roundShift false v 2) else v

/-- A 16-bit sample: the 10-bit value in bits [15:6] (R308). -/
def to16 (bits v : Nat) : Nat := (if bits = 10 then v else 4 * v) * 64

/-- Rows of bytes, each from a 64-byte boundary on. -/
def packRows (rows : List (List Byte)) : List Byte :=
  rows.flatMap (fun r => r ++ zeros (rowPitch r.length - r.length))

/-- Samples of two planes side by side, the first plane's first. -/
def pairUp : List Nat → List Nat → List Nat
  | a :: as, b :: bs => a :: b :: pairUp as bs
  | _, _ => []

/-- What a context asks of the unit (Table 13-10). -/
structure ResizeCfg where
  x : Nat
  y : Nat
  w : Nat
  h : Nat
  ow : Nat
  oh : Nat
  fmt : Nat
deriving DecidableEq, Repr

/-- Plane `i` of a picture cropped and resampled to `ow` × `oh`: a plane narrower or lower than the picture is cropped on its own
grid. -/
def planeOut (pic : Picture) (c : ResizeCfg) (i ow oh : Nat) : Plane :=
  let p := pic.planes.getD i []
  let sx := if (p.headD []).length < pic.width then 2 else 1
  let sy := if p.length < pic.height then 2 else 1
  let w := c.w / sx
  let h := c.h / sy
  resample (cropPlane p (c.x / sx) (c.y / sy) w h) w h ow oh

/-- The bytes of a picture as the unit writes it (R308). -/
def convert (pic : Picture) (c : ResizeCfg) : List Byte :=
  let p := planeOut pic c
  if c.fmt = 2 then
    packRows ([0, 1, 2].flatMap (fun i => (p i c.ow c.oh).map (fun (r : List Nat) =>
      r.map (fun v => BitVec.ofNat 8 (to8 pic.bits v)))))
  else
    let cw := c.ow / 2
    let ch := c.oh / 2
    let rows := p 0 c.ow c.oh ++ ((p 1 cw ch).zip (p 2 cw ch)).map (fun (q : List Nat × List Nat) => pairUp q.1 q.2)
    packRows (rows.map (fun r => r.flatMap (fun v =>
      if c.fmt = 1 then leBytes 2 (to16 pic.bits v) else [BitVec.ofNat 8 (to8 pic.bits v)])))

end Sys2Proof.Machine
end

