-- ==== Sys2Proof/Machine/NetIngest.lean ====
section
/-! DEFINITION. Jitter buffers, access units, decoders and picture buffers (13 R297, R298, R302 to R309). -/
namespace Sys2Proof.Machine

/-- Whether the source of context `c` is a network stream that a decoder decodes (R305). -/
def State.compressed (s : State) (c : Nat) : Bool :=
  s.rdc (1 + c) CTX_BIND0_SOURCE == 0 && s.ictx c NET_CTX_CFG_PAYLOAD != 2

/-- The ingest of context `c` changed. -/
def State.modIng (s : State) (c : Nat) (f : Ingest → Ingest) : State := s.modCtx c (fun x => { x with ing := f x.ing })

/-- A context counter of Table 13-11 raised. -/
def State.ctxCount (s : State) (c i : Nat) : State := s.incc (1 + c) (NET_CTX_CNT_COUNT.idx i)

/-- The master ID of the port that feeds context `c`. -/
def State.ingMaster (s : State) (c : Nat) : Nat := 0x51 + s.ictx c NET_CTX_CFG_PORT

/-! ## Access units (R298) -/

/-- The packets of the unit `au`, in sequence order. -/
def Ingest.unit (g : Ingest) (au : Nat) : List JPkt :=
  let l := g.held.filter (fun (p : JPkt) => p.au == au)
  l.foldl (fun acc p => acc.takeWhile (fun (q : JPkt) => decide (q.xseq ≤ p.xseq)) ++ p ::
    acc.dropWhile (fun (q : JPkt) => decide (q.xseq ≤ p.xseq))) []

/-- The numbers of the units held. -/
def Ingest.units (g : Ingest) : List Nat := (g.held.map (fun (p : JPkt) => p.au)).eraseDups

/-- Lowest and highest sequence number of packets in sequence order. -/
def spanOf (l : List JPkt) : Nat × Nat := ((l.head?).elim 0 (·.xseq), (l.getLast?).elim 0 (·.xseq))

/-- Whether the first packet of a unit is known: the packet before its lowest belongs to another timestamp (held, or the last that
left the buffer), or its lowest is the first since the start or resynchronisation. -/
def Ingest.firstKnown (g : Ingest) (l : List JPkt) : Bool :=
  let lo := (spanOf l).1
  let ts := (l.head?).elim 0 (·.ts)
  g.firstSeq == some lo || g.released == some (lo - 1) || g.lost.any (fun e => e.2 == lo - 1) ||
  g.held.any (fun (p : JPkt) => p.xseq == lo - 1 && p.ts != ts)

/-- Whether a unit is complete (R298): up to its marker packet without a gap, its first packet known. -/
def Ingest.complete (g : Ingest) (au : Nat) : Bool :=
  let l := g.unit au
  match l.find? (fun (p : JPkt) => p.marker) with
  | none => false
  | some m => (l.filter (fun (p : JPkt) => decide (p.xseq ≤ m.xseq))).length == m.xseq - (spanOf l).1 + 1 && g.firstKnown l

/-- The unit that comes first in sequence order. -/
def Ingest.first (g : Ingest) : Option Nat :=
  let lo := listMin 0 (g.held.map (fun (p : JPkt) => p.xseq))
  (g.held.find? (fun (p : JPkt) => p.xseq == lo)).map (fun (p : JPkt) => p.au)

/-- Unit `au` of context `c` takes its turn with the context's decoder (R304). -/
def State.queueAu (s : State) (c au : Nat) : State :=
  { s with decQ := modAt s.decQ (s.ictx c NET_CTX_DEC_DEC) (fun l => l ++ [au * 4096 + c]) }

/-- With SLICE = 1 the NAL units of the first unit in sequence order go to the decoder once its first packet is known (R302). -/
def State.handEarly (s : State) (c : Nat) : State :=
  let g := (s.ctx c).ing
  match g.first with
  | none => s
  | some au =>
    if s.ictx c NET_CTX_CFG_SLICE = 1 ∧ s.compressed c ∧ g.early = none ∧ g.firstKnown (g.unit au) then
      (s.modIng c (fun g => { g with early := some au })).queueAu c au
    else s

/-- The partial picture of a unit that the decoder got early discarded, and its buffer freed (R302). -/
def State.dropPart (s : State) (c : Nat) : State :=
  let s' := s.modIng c (fun g => { g with part := none })
  match (s.ctx c).ing.part with
  | some (some b) => s'.freeBuf c b
  | _ => s'

/-- A unit declared lost (R298). -/
def State.loseAu (s : State) (c au : Nat) : State :=
  let g := (s.ctx c).ing
  let l := g.unit au
  let s := if g.early = some au then s.dropPart c else s
  let s := s.modIng c (fun g => { g with
    held := g.held.filter (fun (p : JPkt) => p.au != au)
    lost := g.lost ++ [((l.head?).elim 0 (·.ts), (spanOf l).2)]
    early := if g.early = some au then none else g.early
    st := 1 })
  let s := { s with decQ := s.decQ.map (fun (q : List Nat) => q.filter (fun i => i != au * 4096 + c)) }
  ((s.ctxCount c 3).raiseOnce (0x40000 + c) 1000000000 EV_INGEST_AU_LOST (s.ingMaster c) 0 0 0).handEarly c

/-! ## Placing a packet (R297) -/

/-- What the sequence check makes of a packet: its extended number, an implausible jump, or a second one that resynchronises. -/
inductive SeqEnd where
  | at (xseq : Nat)
  | jump
  | resync
deriving DecidableEq, Repr

/-- The check of R297 on a sequence number of modulus `m`. -/
def Ingest.seqCheck (g : Ingest) (m seq : Nat) : SeqEnd :=
  match g.maxSeq with
  | none => .at (m + seq)
  | some mx =>
    let d := (seq + m - mx % m) % m
    if d < 3000 then .at (mx + d)
    else if d ≤ m - 100 then (if g.badSeq = some seq then .resync else .jump)
    else .at (mx + d - m)

/-- Whether a packet comes too late: already held, at or before the last released, or of a unit declared lost. -/
def Ingest.late (g : Ingest) (xseq ts : Nat) : Bool :=
  g.held.any (fun (p : JPkt) => p.xseq == xseq) || g.released.any (fun r => decide (xseq ≤ r)) ||
  g.lost.any (fun e => e.1 == ts && decide (xseq < e.2 + 32768) && decide (e.2 < xseq + 32768))

/-- A payload written by the ingest unit into the jitter buffer of context `c` in HBM, and where; none where the write is denied or
meets an uncorrectable word. DESIGN CHOICE (log entry 80): the place within the buffer is free. An uncompressed context has no such
buffer (R305). -/
def State.jbWrite (s : State) (c : Nat) (bs : List Byte) : Option Nat × State :=
  let x := s.ctx c
  if x.jbCount = 0 then (some 0, s)
  else
    let f := s.takeFree
    let i := f.1 % (s.ictx c NET_CTX_JB_JB_SIZE * 65536 + 1 - bs.length)
    let a := x.jbPages.getD (i / 0x200000) 0 * 0x200000 + min (i % 0x200000) (0x200000 - bs.length)
    let g := f.2.accessCheck (s.ingMaster c) a (max 1 bs.length) rightW
    let w := if g.1 then g.2.write .hbm a bs (s.ingMaster c) else (false, g.2)
    (if w.1 then some a else none, w.2)

/-- The units of context `c` that have become complete since its ingest was `g` take their turn with its decoder, that of the packet
that came, `au`, first (R304). -/
def State.queueComplete (s : State) (c au : Nat) (g : Ingest) : State :=
  let h := (s.ctx c).ing
  if s.compressed c ∧ s.ictx c NET_CTX_CFG_SLICE = 0 then
    ((au :: h.units.filter (fun a => a != au)).filter (fun a => h.complete a && !g.complete a)).foldl
      (fun (s : State) a => s.queueAu c a) s
  else s

/-- A packet placed in the jitter buffer, which holds JB_SIZE × 64 KiB of payload. -/
def State.place1 (s : State) (c p xseq : Nat) (r : Rtp) : State :=
  let g := (s.ctx c).ing
  let s := s.modIng c (fun g => { g with
    maxSeq := some (max xseq (g.maxSeq.getD 0)), firstSeq := some (g.firstSeq.getD xseq), ssrc := some (g.ssrc.getD r.ssrc) })
  if g.late xseq r.ts then s.ctxCount c 1
  else if s.ictx c NET_CTX_JB_JB_SIZE * 65536 < listSum (g.held.map (fun (k : JPkt) => k.payload.length)) + r.data.length then
    s.netDrop p 14
  else
    let old := g.held.find? (fun (k : JPkt) => k.ts == r.ts)
    let au := old.elim g.opened (·.au)
    let w := s.jbWrite c r.data
    match w.1 with
    | none => w.2
    | some a =>
      let t := (w.2.modIng c (fun g => { g with
        held := g.held ++ [⟨xseq, au, r.ts, r.marker, s.base, s.now, r.data, a⟩]
        opened := if old.isNone then g.opened + 1 else g.opened })).ctxCount c 0
      (t.queueComplete c au (s.ctx c).ing).handEarly c

/-- An RTP packet of context `c` that passed the checks of port `p` (R296, R297, R301). -/
def State.ingest (s : State) (c p : Nat) (r : Rtp) : State :=
  let raw := s.ictx c NET_CTX_CFG_PAYLOAD == 2
  let m := if raw then 2 ^ 32 else 2 ^ 16
  let seq := if raw then beAt r.data 0 2 * 65536 + r.seq else r.seq
  let bad := if raw then ((rawSegs r.data).getD []).filter (fun (g : RawSeg) =>
    !g.inside (s.ictx c NET_CTX_RAW_FMT_FMT) (s.ictx c NET_CTX_RAW_W) (s.ictx c NET_CTX_RAW_H)) else []
  let s := bad.foldl (fun (s : State) _ => s.netDrop p 11) s
  let g := (s.ctx c).ing
  match g.seqCheck m seq with
  | .at x => s.place1 c p x r
  | .jump => s.modIng c (fun g => { g with badSeq := some ((seq + 1) % m) })
  | .resync =>
    let s := g.units.foldl (fun (s : State) a => s.loseAu c a) s
    let s := s.modIng c (fun g => { g with maxSeq := none, badSeq := none, firstSeq := none, released := none, lost := [], st := 1 })
    s.place1 c p (m + seq) r

/-- NET_FRAME_RECEIVE (R293, R294): the receive buffer of 512 KiB holds `way.held` bytes when the frame comes. -/
def execNetFrameReceive (port link : Nat) (way : RxWay) (frame : List Byte) (s : State) : Out1 :=
  .next (if port < 2 ∧ link < 4 ∧ s.netReady port ∧ s.linkUp port link then
      match s.rxCheck port link way.fcsOk frame with
      | .drop k => s.netDrop port k
      | e =>
        if 524288 < way.held + frame.length then s.netDrop port 13
        else
          match e with
          | .rtp c r => s.ingest c port r
          | _ => s.ptpQueue port link frame
    else s)

/-! ## Uncompressed pictures (R301) -/

/-- Sample number `n` of a stream of `bits`-bit samples, big-endian. -/
def packedSample (bits : Nat) (d : List Byte) (n : Nat) : Nat :=
  let o := n * bits
  let w := beAt d (o / 8) 3
  (w >>> (24 - bits - o % 8)) % 2 ^ bits

/-- The sample of plane `i` at row `y`, column `x` of the plane that a segment holds, if it does. -/
def RawSeg.sample (g : RawSeg) (fmt i y x : Nat) : Option Nat :=
  let f := rawFmt fmt
  let px := f.2.2.1
  let py := f.2.2.2
  let cx := if i = 0 ∨ px = 1 then x else 2 * x
  let cy := if i = 0 then y else py * y
  if g.line ≤ cy ∧ cy < g.line + py ∧ g.off ≤ cx ∧ cx < g.off + g.pixels fmt then
    let k := (cx - g.off) / px
    let sx := (cx - g.off) % px
    let place := if px = 1 then i
      else if py = 1 then [1 + 2 * sx, 0, 2].getD i 0
      else [sx + 2 * (cy - g.line), 4, 5].getD i 0
    some (packedSample f.1 g.data (k * f.2.1 + place))
  else none

/-- The picture that the segments of a unit make; a sample that none of them holds is free (log entry 21). -/
def rawPicture (fmt w h serial : Nat) (segs : List RawSeg) : Picture :=
  let f := rawFmt fmt
  let plane := fun (i pw ph : Nat) => (List.range ph).map (fun y => (List.range pw).map (fun x =>
    match segs.reverse.findSome? (fun (g : RawSeg) => g.sample fmt i y x) with
    | some v => v
    | none => Config.rawHole serial i y x % 2 ^ f.1))
  let cw := w / f.2.2.1
  let ch := h / f.2.2.2
  ⟨w, h, f.1, [plane 0 w h, plane 1 cw ch, plane 2 cw ch]⟩

/-! ## Picture buffers (R309) -/

/-- The first row of a picture of context `c` reaches the resize-and-convert unit: the picture is taken or not by OUT_DIV, and claims a
free buffer, if there is one. -/
def State.claimBuf (s : State) (c : Nat) : Option Nat × State :=
  let x := s.ctx c
  let i := x.ing.picIdx
  let s := s.modIng c (fun g => { g with picIdx := i + 1 })
  if i % (s.ictx c NET_CTX_PIC_OUT_DIV_M1 + 1) ≠ 0 then (none, s)
  else
    match indexOf? (fun b => b == BufSt.free) x.bufs with
    | some b => (some b, s.modCtx c (fun x => { x with bufs := setAt x.bufs b .claimed }))
    | none => (none, (s.ctxCount c 6).raiseOnce (0x50000 + c) 1000000000 EV_INGEST_NO_BUFFER 0x50 0 0 0)

/-- A picture that fills buffer `b` of context `c`. -/
def State.fillBuf (s : State) (c b : Nat) (pic : Picture) (au : Au) : State :=
  s.modIng c (fun g => { g with pics := g.pics ++ [(b, pic, { au with data := [], addrs := [] })] })

/-- A picture of context `c` comes to the resize-and-convert unit. -/
def State.takePicture (s : State) (c : Nat) (pic : Picture) (au : Au) : State :=
  let r := s.claimBuf c
  match r.1 with
  | some b => r.2.fillBuf c b pic au
  | none => r.2

/-- What the resize-and-convert unit makes of a picture of context `c`. -/
def State.resizeCfg (s : State) (c : Nat) : ResizeCfg :=
  let f := s.ictx c
  ⟨f NET_CTX_CROP_XY_X, f NET_CTX_CROP_XY_Y, f NET_CTX_CROP_WH_W, f NET_CTX_CROP_WH_H, f NET_CTX_OUT_W, f NET_CTX_OUT_H,
    f NET_CTX_PIC_PIC_FMT⟩

/-- PICTURE_WHOLE (R309): the picture written, and the frame's input whole; once the context is STOPPING the picture is discarded
(R350). -/
def execPictureWhole (ctx : Nat) (s : State) : Out1 :=
  .next (let x := s.ctx ctx
    match x.ing.pics with
    | [] => s
    | (b, pic, au) :: rest =>
      let s := s.modIng ctx (fun g => { g with pics := rest })
      if x.st ≠ 2 then s.freeBuf ctx b
      else
        let bs := convert pic (s.resizeCfg ctx)
        let a := x.base + b * x.bufBytes
        let g := s.accessCheck 0x50 a (max 1 bs.length) rightW
        let s := if g.1 then (g.2.write .commons (a - 0x0800000000) bs 0x50).2 else g.2
        let s := (s.modCtx ctx (fun x => { x with bufs := setAt x.bufs b .whole })).ctxCount ctx 5
        { s with adm := { s.adm with waiting := s.adm.waiting ++ [⟨ctx, b, s.base, au.seq, au.ts, au.arrival⟩] } })

/-! ## Release and decoding -/

/-- The ingest of a context leaves WAIT_IRAP (R303). -/
def State.irap (s : State) (c : Nat) : State :=
  s.modIng c (fun g => if g.st = 1 then { g with st := 2, picIdx := 0, decoded := [] } else g)

/-- A unit handed on: to its decoder, or, uncompressed, to the resize-and-convert unit as a picture. -/
def State.handOn (s : State) (c : Nat) (au : Au) : State :=
  if s.ictx c NET_CTX_CFG_PAYLOAD = 2 then
    let f := s.takeFree
    let segs := (au.data.map (fun u => (rawSegs u).getD [])).flatten.filter (fun (g : RawSeg) =>
      g.inside (s.ictx c NET_CTX_RAW_FMT_FMT) (s.ictx c NET_CTX_RAW_W) (s.ictx c NET_CTX_RAW_H))
    let pic := rawPicture (s.ictx c NET_CTX_RAW_FMT_FMT) (s.ictx c NET_CTX_RAW_W) (s.ictx c NET_CTX_RAW_H) s.freeCtr segs
    (f.2.irap c).takePicture c pic au
  else s.modIng c (fun g => { g with aus := g.aus ++ [au] })

/-- AU_RELEASE (R298): the first unit in sequence order, if it is complete. -/
def execAuRelease (ctx : Nat) (s : State) : Out1 :=
  .next (let g := (s.ctx ctx).ing
    match g.first with
    | none => s
    | some a =>
      if (s.ctx ctx).st = 2 ∧ g.complete a then
        let l := g.unit a
        let first := g.held.find? (fun (p : JPkt) => p.au == a)
        let s := s.modIng ctx (fun g => { g with
          held := g.held.filter (fun (p : JPkt) => p.au != a), released := some (spanOf l).2
          early := if g.early = some a then none else g.early })
        ((s.ctxCount ctx 2).handOn ctx ⟨a, (l.head?).elim 0 (·.ts), first.elim 0 (·.dev), l.map (fun (p : JPkt) => p.payload),
          l.map (fun (p : JPkt) => p.addr)⟩).handEarly ctx
      else s)

/-- The units of context `c` that have waited JB_TIMEOUT incomplete declared lost. -/
def State.jitterCtx (s : State) (c : Nat) : State :=
  let g := (s.ctx c).ing
  let limit := s.ictx c NET_CTX_JB_JB_TIMEOUT * 100000
  (g.units.filter (fun a => !g.complete a && ((g.held.find? (fun (p : JPkt) => p.au == a)).any (fun p =>
    decide (p.time + limit ≤ s.base))))).foldl (fun (s : State) a => s.loseAu c a) s

/-- JITTER_BUFFER_CHECK (R298). -/
def execJitterBufferCheck (s : State) : Out1 :=
  .next ((s.ctxs.filter (fun e => e.2.st == 2)).foldl (fun (s : State) e => s.jitterCtx e.1) s)

/-- Whether a picture is one that a decoder can make of payload 0 H.264 or 1 H.265 (R303): at most 4,096 samples wide and high, 8-bit
or, for H.265, 10-bit, and 4:2:0. -/
def codedOk (payload : Nat) (p : Picture) : Bool :=
  let plane := fun (i w h : Nat) => let l := p.planes.getD i []
    l.length == h && l.all (fun (r : List Nat) => r.length == w)
  decide (p.width ≤ 4096) && decide (p.height ≤ 4096) && (p.bits == 8 || (payload == 1 && p.bits == 10)) && p.planes.length == 3 &&
  plane 0 p.width p.height && plane 1 (ceilDiv p.width 2) (ceilDiv p.height 2) && plane 2 (ceilDiv p.width 2) (ceilDiv p.height 2)

/-- Decoder `d` reads the packets of a unit from the jitter buffer (R305, 11 R254); false where a read is denied or uncorrectable. -/
def State.auRead (s : State) (d : Nat) : List (Nat × Nat) → Bool × State
  | [] => (true, s)
  | (a, n) :: l =>
    let g := s.accessCheck (0x40 + d) a (max 1 n) rightR
    if !g.1 then (false, g.2)
    else
      let r := g.2.read .hbm a n (0x40 + d)
      if r.1.isNone then (false, r.2) else r.2.auRead d l

/-- Decoder `d` writes reference pictures into the decoded picture buffer of context `c` (R305); what it writes is free (log entry
43). -/
def State.writeRefs (s : State) (c d : Nat) : State :=
  let pages := (s.ctx c).jbPages.drop (s.ctx c).jbCount
  (Config.refWrites s.freeCtr).foldl (fun (s : State) w =>
    if w.1 / 0x200000 < pages.length ∧ w.2 ≠ [] ∧ w.1 % 0x200000 + w.2.length ≤ 0x200000 then
      let a := pages.getD (w.1 / 0x200000) 0 * 0x200000 + w.1 % 0x200000
      let g := s.accessCheck (0x40 + d) a w.2.length rightW
      if g.1 then (g.2.write .hbm a w.2 (0x40 + d)).2 else g.2
    else s) s.takeFree.2

/-- The pictures output with unit `au` of context `c`, in output order; the unit's own one, where its first row has come before, fills
the buffer that it claimed then. -/
def State.outPictures (s : State) (c : Nat) (au : Au) (part : Option (Option Nat)) (l : List (Nat × Picture)) : State :=
  l.foldl (fun (s : State) p =>
    let u := ((s.ctx c).ing.decoded[p.1]?).getD { au with data := [], addrs := [] }
    match p.1, part with
    | 0, some (some b) => s.fillBuf c b p.2 u
    | 0, some none => s
    | _, _ => s.takePicture c p.2 u) s

/-- A unit that decoder `d` cannot decode for context `c` (R303, R305). -/
def State.decFailed (s : State) (c d : Nat) (error : Bool) : State :=
  let s := (s.dropPart c).modIng c (fun g => { g with st := 1 })
  if error then (s.ctxCount c 4).raise EV_DEC_STREAM_ERROR (0x40 + d) 0 0 0 else s.raise EV_DEC_UNSUPPORTED (0x40 + d) 0 0 0

/-- What the decoder's output means for context `c`, whose unit `au` it has taken (R303, R305, R306). -/
def State.decoded (s : State) (c d : Nat) (au : Au) (out : DecOut) : State :=
  let g := (s.ctx c).ing
  match out with
  | .unsupported => s.decFailed c d false
  | .streamError => s.decFailed c d true
  | .begun _ => s.dropPart c
  | .pictures irap refs l =>
    if s.ictx c NET_CTX_DEC_DPB_FRAMES < refs then s.decFailed c d false
    else if g.st = 1 ∧ !irap then s.dropPart c
    else if l.any (fun p => !codedOk (s.ictx c NET_CTX_CFG_PAYLOAD) p.2) then s.decFailed c d false
    else
      let s := s.irap c
      let s := s.modIng c (fun g => { g with decoded := ({ au with data := [], addrs := [] } :: g.decoded).take 32 })
      let s := (s.writeRefs c d).outPictures c au g.part l
      if l.any (fun p => p.1 == 0) then s.modIng c (fun g => { g with part := none }) else s.dropPart c

/-- The first row of the picture of a unit not yet whole (R302); a unit discarded in WAIT_IRAP has none. -/
def State.decBegun (s : State) (c : Nat) (irap : Bool) : State :=
  let g := (s.ctx c).ing
  if g.part.isSome ∨ (g.st = 1 ∧ !irap) then s
  else
    let r := (s.irap c).claimBuf c
    r.2.modIng c (fun g => { g with part := some r.1 })

/-- Unit `i` (number × 4096 + context) leaves the queue of decoder `d`. -/
def State.unqueue (s : State) (d i : Nat) : State := { s with decQ := modAt s.decQ d (fun l => l.filter (fun j => j != i)) }

/-- AU_DECODE (R302 to R304): the decoder's next unit, whole, or its first row where it got the unit early; an unusable decoder makes
nothing of it, and neither does one that cannot read the unit (log entry 80). -/
def execAuDecode (d : Nat) (out : DecOut) (s : State) : Out1 :=
  .next (match s.decNext d with
    | none => s
    | some i =>
      let c := i % 4096
      match (s.ctx c).ing.aus.find? (fun (u : Au) => u.seq == i / 4096), out with
      | none, .begun irap => if s.unusable (107 + d) then s else s.decBegun c irap
      | none, _ => s
      | some _, .begun _ => s
      | some au, out =>
        let s := (s.unqueue d i).modIng c (fun g => { g with aus := g.aus.filter (fun (u : Au) => u.seq != au.seq) })
        if s.unusable (107 + d) then s.dropPart c
        else
          let r := if (s.ctx c).jbCount = 0 then (true, s) else s.auRead d (au.addrs.zip (au.data.map (fun b => b.length)))
          if r.1 then r.2.decoded c d au out else r.2.dropPart c)

/-! ## CTX_CFG to CTX_PIC (R295, R304) -/

/-- The key of context `c` (R295). -/
def State.ctxKey (s : State) (c : Nat) : List Nat :=
  let f := s.ictx c
  [f NET_CTX_CFG_PORT, f NET_CTX_CFG_LINK, f NET_CTX_CFG_VLAN_EN, (if f NET_CTX_CFG_VLAN_EN = 1 then f NET_CTX_CFG_VID else 0),
    f NET_CTX_CFG_IPV6, f NET_CTX_CFG_MCAST, (if f NET_CTX_CFG_MCAST = 1 then s.ctxGroup c else 0), f NET_CTX_UDP_DST_PORT]

/-- The declared load of decoder `d` (R304). -/
def State.decLoad (s : State) (d : Nat) : Nat :=
  listSum ((s.enabledCtxs.filter (fun c => s.ictx c NET_CTX_DEC_DEC == d && s.ictx c NET_CTX_CFG_PAYLOAD != 2)).map
    (fun c => s.ictx c NET_CTX_DEC_RATE_KPIX))

/-- Whether the crop and the sizes of context `c` are in range (Table 13-10, R307, R308). -/
def State.sizesOk (s : State) (c : Nat) : Bool :=
  let f := s.ictx c
  let ratio := fun (crop out : Nat) => decide (out ≤ 2 * crop) && decide (crop ≤ 8 * out)
  let cw := f NET_CTX_CROP_WH_W
  let ch := f NET_CTX_CROP_WH_H
  decide (2 ≤ cw) && decide (2 ≤ ch) && decide (2 ≤ f NET_CTX_OUT_W) && decide (2 ≤ f NET_CTX_OUT_H) &&
  ratio cw (f NET_CTX_OUT_W) && ratio ch (f NET_CTX_OUT_H) &&
  (f NET_CTX_CFG_PAYLOAD != 2 || (decide (f NET_CTX_CROP_XY_X + cw ≤ f NET_CTX_RAW_W) &&
    decide (f NET_CTX_CROP_XY_Y + ch ≤ f NET_CTX_RAW_H) && (f NET_CTX_RAW_FMT_FMT != 4 || f NET_CTX_PIC_PIC_FMT == 2)))

/-- Whether context `c` may be enabled with its registers as they stand (R9, R295, R304). -/
def State.ingestOk (s : State) (c : Nat) : Bool :=
  let f := s.ictx c
  let others := s.enabledCtxs.filter (fun i => i != c)
  f NET_CTX_UDP_DST_PORT != 0 && f NET_CTX_DEC_RATE_KPIX != 0 &&
  s.sizesOk c &&
  others.all (fun i => s.ctxKey i != s.ctxKey c) &&
  (List.range 16).all (fun d => decide (s.decLoad d ≤ 250000)) &&
  decide (listSum (s.enabledCtxs.map (fun i => s.ictx i NET_CTX_DEC_RATE_KPIX)) ≤ 4000000)

/-- VDEC_LOADd as the enabled contexts make it. -/
def State.noteLoads (s : State) : State :=
  (List.range 16).foldl (fun (s : State) d => s.wr (VDEC_LOAD_KPIX.idx d) (s.decLoad d)) s

/-- Whether every size and position of a word of these registers is even, as Table 13-10 asks. -/
def evenOk (a v : Nat) : Bool :=
  !(([NET_CTX_RAW_W.addr, NET_CTX_CROP_XY_X.addr, NET_CTX_CROP_WH_W.addr, NET_CTX_OUT_W.addr] : List Nat).contains a) ||
    (v % 2 == 0 && v / 65536 % 2 == 0)

/-- The decoders that enabled contexts name (R304); an uncompressed one needs none. -/
def State.decodersUsed (s : State) : List Nat :=
  (s.enabledCtxs.filter (fun c => s.ictx c NET_CTX_CFG_PAYLOAD != 2)).map (fun c => s.ictx c NET_CTX_DEC_DEC)

/-- Decoders switched on as enabled contexts name them, and off where none does any more (17 R394, R395). -/
def State.decoderPower (s : State) : Bool × State :=
  let used := s.decodersUsed
  let r := s.powerUp (((List.range 16).filter (fun d => used.contains d && !s.unusable (107 + d))).map (· + 107))
  (r.1, ((List.range 16).filter (fun d => !used.contains d)).foldl (fun (s : State) d => s.powerDown (107 + d)) r.2)

/-- A write of CTX_CFG to CTX_PIC by master `m` for the context that its CTX_SEL selects. -/
def State.ctxCfg (s : State) (m a v : Nat) : Bool × State :=
  let c := s.rdc (1 + m) NET_CTX_SEL_CTX
  let s' := s.setFields m a v
  if 2 ≤ (s.ctx c).st ∨ !evenOk a v ∨ !vidOk (s'.ictx c NET_CTX_CFG_VLAN_EN) (s'.ictx c NET_CTX_CFG_VID) then (false, s)
  else if s'.ictx c NET_CTX_CFG_EN = 1 ∧ !s'.ingestOk c then (false, s)
  else
    let r := s'.decoderPower
    if r.1 then (true, r.2.noteLoads) else (false, s.budgetRefused)

/-- CTX_CFG_WRITE (R304): `off` is the register's offset from NET0. -/
def execCtxCfgWrite (m off v : Nat) (s : State) : Out1 :=
  .next (if 0x1004 ≤ off ∧ off ≤ 0x103C then s.writeCmd m (0x0A00090000 + off) v (fun s => s.ctxCfg m (0x0A00090000 + off) v) else s)

end Sys2Proof.Machine
end

