-- ==== Sys2Proof/Machine/Burl.lean ====
section
/-! DEFINITION. The Burl fabric's commands (14 R329 to R335): loading, staged release and unloading, clock edges with queues and
taps, the bridges of GALLEY_OUT and PICTURE_OUT queues, capture, and the I/O cells' inputs and supplies (R337, R418). -/
namespace Sys2Proof.Machine

/-- The Burl part of State changed. -/
def State.modBurl (s : State) (f : Burl → Burl) : State := { s with burl := f s.burl }

/-! ## Loading and release (R329, R330, Table 14-5) -/

/-- The address of the configuration image. -/
def State.burlAddr (s : State) : Nat := s.rd BURL_IMAGE_LO_ADDR * 64 + s.rd BURL_IMAGE_HI_ADDR * 2 ^ 32

/-- Bytes of the image read by master 0x38; none where the read is denied, uncorrectable or outside HBM and commons. -/
def State.burlRead (s : State) (a n : Nat) : Option (List Byte) × State :=
  let g := s.accessCheck 0x38 a n rightR
  match g.1, place a n with
  | true, .mem .hbm off => g.2.read .hbm off n 0x38
  | true, .mem .commons off => g.2.read .commons off n 0x38
  | _, _ => (none, g.2)

/-- REASON of a refused image, 0 where it passes: format, then sources, owners and signature. -/
def State.burlReason (s : State) (img : List Byte) : Nat :=
  let sig := fieldAt img 8 4
  if !burlForm img then 2
  else if !burlSources img then 3
  else if !burlOwners img then 4
  else if !s.formeKeys.any (fun k => Config.slhVerify k (img.take sig) (img.drop sig)) then 1
  else 0

/-- STATE UNCONFIGURED with every output at SAFE. -/
def Burl.clear (b : Burl) : Burl := { lastEdge := b.lastEdge, taps := b.taps }

/-- An image refused (step 2). -/
def State.burlRefuse (s : State) (reason : Nat) : State :=
  ((s.modBurl Burl.clear).sportOff.wr BURL_STATUS_REASON reason).raise EV_BURL_CONFIG_REFUSED 0x38 0 0 0

/-- The memories of the queues, all pointers at 0: the image's contents with MEMINIT (step 3). -/
def queueInit (img : List Byte) (old : List BQueue) : List BQueue :=
  (List.range 8).map (fun q =>
    if bit (fieldAt img 6 2) 0 then
      { mem := (List.range 4096).foldl (fun t i =>
          tput (fun _ => 0) t i (fieldAt img (0x11040 + 16384 * q + 4 * i) 4)) [] }
    else { mem := (old.getD q {}).mem })

/-- The outputs released: step 4, after which 4 edges of CLK0 follow. -/
def State.burlStep4 (s : State) : State := s.modBurl (fun b => { b with st := 3, outs := true, edges := 4, unloading := false })

/-- LOAD (steps 1 to 4). -/
def State.burlLoad (s : State) : State :=
  let a := s.burlAddr
  let h := s.burlRead a 64
  match h.1 with
  | none => h.2.burlRefuse 5
  | some hd =>
    let sig := fieldAt hd 8 4
    if sig ≠ 0x11040 ∧ sig ≠ 0x31040 then h.2.burlRefuse 2
    else
      let r := h.2.burlRead a (sig + 7856)
      match r.1 with
      | none => r.2.burlRefuse 5
      | some img =>
        let k := r.2.burlReason img
        if k ≠ 0 then r.2.burlRefuse k
        else
          let s := r.2.wr BURL_STATUS_REASON 0
          let s := s.modBurl (fun b => { (Burl.clear b) with st := 2, image := img, q := queueInit img b.q })
          let s := s.settleBurl
          if s.rd BURL_CTRL_HOLD_RELEASE = 0 then s.burlStep4 else s

/-- What the bridges leave unfinished at UNLOAD: packets closed, claimed picture buffers freed, a capture cancelled (R330, R335). -/
def State.burlQuiet (s : State) : State :=
  let s := (List.range 8).foldl (fun (s : State) q =>
    let x := s.bq q
    let g := s.qf q BURL_QCFG_GALLEY
    if s.qf q BURL_QCFG_MODE = 2 ∧ x.run ∧ ((s.cgal 1 g).asm.any (fun a => decide (0 < a.len))) then
      (s.finishAsm 1 g true 0x38).2.galCount 1 0 g STREAM_GCNT_DROP_COUNT
    else
      match x.buf with
      | some b => s.freeBuf (s.qf q BURL_QCFG_CTX) b
      | none => s) s
  let s := s.modBurl (fun b => { b with
    cap := none, fired := false, q := b.q.map (fun (x : BQueue) => { mem := x.mem, rptr := x.rptr, level := x.level }) })
  s.wr BURL_CAPTURE_BUSY 0

/-- The effect of a write of BURL_CTRL by master `m` (Table 14-12); HOLD_RELEASE = 0 in HELD lets the release go on (Table 14-5,
step 4). -/
def State.burlCtrl (s : State) (m v : Nat) : Bool × State :=
  let st := s.burl.st
  let s' := s.setFields m BURL_CTRL_LOAD.addr v
  match bits v 1 3 with
  | 0 => (true, if st = 2 ∧ !bit v 4 then s'.burlStep4 else s')
  | 1 =>
    if st = 0 then
      let on := s.powerUp [127]
      if on.1 then (true, (on.2.setFields m BURL_CTRL_LOAD.addr v).burlLoad) else on
    else (false, s)
  | 2 =>
    if st = 2 ∨ st = 4 then
      let q := s'.burlQuiet
      (true, (q.modBurl (fun b => { b with st := 3, run := false, edges := 8, unloading := true })).settleBurl)
    else (false, s)
  | 4 => if st = 2 then (true, s'.burlStep4) else (false, s)
  | _ => (false, s)

/-- A command bit of BURL_CTRL written, HOLD_RELEASE as it stands. -/
def State.burlCmd (s : State) (m b : Nat) : State :=
  let v := 2 ^ b + 16 * s.rd BURL_CTRL_HOLD_RELEASE
  s.writeCmd m BURL_CTRL_LOAD.addr v (fun s => s.burlCtrl m v)

/-- BURL_LOAD (R330). -/
def execBurlLoad (m : Nat) (s : State) : Out1 := .next (s.burlCmd m 1)

/-- BURL_UNLOAD (R330). -/
def execBurlUnload (m : Nat) (s : State) : Out1 := .next (s.burlCmd m 2)

/-- BURL_RELEASE (R330). -/
def execBurlRelease (m : Nat) (s : State) : Out1 := .next (s.burlCmd m 3)

/-- The next release step after 4 edges of CLK0: writes, then the global reset with RUNNING (steps 5 and 6). -/
def State.burlNext (s : State) : State :=
  let b := s.burl
  if !b.writes then s.modBurl (fun b => { b with writes := true, edges := 4 })
  else
    let s := s.modBurl (fun b => { b with run := true, st := 4 })
    s.raise EV_BURL_CONFIGURED 0x38 (fieldAt b.image 16 4) (fieldAt b.image 20 4) (fieldAt b.image 24 8)

/-- An edge of CLK0 counts towards the next release step; unloading, writes are blocked after 4 edges, and after 8 the outputs go to
SAFE and the fabric is UNCONFIGURED. -/
def State.burlCount (s : State) (k : Nat) : State :=
  if k ≠ 0 ∨ s.burl.st ≠ 3 then s
  else
    let n := s.burl.edges - 1
    let s := s.modBurl (fun b => { b with edges := n })
    if s.burl.unloading then
      if n = 0 then (s.modBurl Burl.clear).sportOff else if n ≤ 4 then s.modBurl (fun b => { b with writes := false }) else s
    else if n = 0 then s.burlNext else s

/-! ## Clock edges (R331, R334, R335) -/

/-- A push or pop that is ignored: counted, and reported at most once per millisecond. -/
def State.qIgnored (s : State) (q : Nat) : State :=
  (s.incc (1 + q) BURL_QDROP_COUNT).raiseOnce (0x70000 + q) 1000000 EV_BURL_QUEUE_OVERFLOW 0x38 0 0 0

/-- What the fabric's side of queue `q` does at an edge of clock `k`, the fabric before the edge being `old` with macrocells `mc`. -/
def State.queueEdge (s old : State) (mc : List Bool) (k q : Nat) : State :=
  let mode := s.qf q BURL_QCFG_MODE
  let val := fun (i : Nat) => old.selVal mc k (queueSel old.bimg q i)
  let x := s.bq q
  if s.qf q BURL_QCFG_EN = 0 ∨ !s.burl.writes then s
  else
    let pops := mode ≤ 1 ∧ s.qf q BURL_QCFG_RCLK = k ∧ val 1
    let pushes := mode ≠ 1 ∧ s.qf q BURL_QCFG_WCLK = k ∧ val 0
    let w := listSum ((List.range 34).map (fun i => b2n (val (2 + i)) * 2 ^ i))
    let s := if pops then (if x.level = 0 then s.qIgnored q else s.modQ q BQueue.pop) else s
    let s := if pushes then (if 4096 ≤ x.level then s.qIgnored q else s.modQ q (fun y => y.push (w % 2 ^ 32) (w / 2 ^ 32))) else s
    s.qWater q

/-- A warning tap at an edge of its clock: a word that waits is shown with its strobe for one period. -/
def Tap.edge (t : Tap) : Tap :=
  match t.wait with
  | some w => { wait := none, bits := w % 16, strobe := true }
  | none => { t with strobe := false }

/-- The capture at an edge of its clock: it fires at its count or at its trigger. -/
def State.captureEdge (s : State) (mc : List Bool) (k : Nat) : State :=
  match s.burl.cap with
  | none => s
  | some n =>
    if s.rd BURL_CAPTURE_CLK ≠ k ∨ !s.burl.writes then s
    else
      let mode := s.rd BURL_CAPTURE_MODE
      let fire := if mode = 0 then n ≤ 1 else mc.getD (s.rd BURL_CAPTURE_TRIG) false
      if fire then
        let s := (List.range 32).foldl (fun (s : State) i => s.wr (BURL_CAP_DATA_STATE.idx i)
          (listSum ((List.range 32).map (fun j => b2n (mc.getD (32 * i + j) false) * 2 ^ j)))) s
        s.modBurl (fun b => { b with cap := none, fired := true })
      else s.modBurl (fun b => { b with cap := some (n - 1) })

/-- BURL_CLOCK_EDGE (R331): a rising edge of clock `k`. -/
def execBurlClockEdge (clk : Nat) (s : State) : Out1 :=
  .next (if 4 ≤ clk ∨ s.burl.st < 2 then s
    else
      let s := s.settleBurl
      let mc := s.burl.mc
      let next := s.mcEdge mc clk
      let s := s.captureEdge mc clk
      let s := (List.range 8).foldl (fun (t : State) q => t.queueEdge s mc clk q) s
      let taps := (List.range 8).map (fun i => let t := s.burl.taps.getD i {}
        if s.rd (BURL_WTAP_CLK.idx i) = clk then t.edge else t)
      let s := s.modBurl (fun b => { b with mc := next, taps := taps, lastEdge := setAt b.lastEdge clk s.base })
      (s.settleBurl).burlCount clk)

/-! ## GALLEY_OUT (R332) -/

/-- The bridge of a queue waits for room. -/
def State.bridgeWaits (s : State) (q : Nat) : State :=
  s.modQ q (fun x => { x with waitSince := some (x.waitSince.getD s.base) })

/-- The word at the head of a GALLEY_OUT queue handled; the flag says that the controller goes on with the next one. -/
def State.bridgeWord (s : State) (q : Nat) : Bool × State :=
  let x := s.bq q
  let g := s.qf q BURL_QCFG_GALLEY
  let (w, tag) := x.head
  let take := fun (s : State) (run bad : Bool) => s.modQ q (fun y => { y.pop with run := run, bad := bad, waitSince := none })
  let put := fun (bs : List Byte) (last : Bool) => s.galleyPut 1 g bs last true 0x11 0x38
  if tag = 1 then
    if x.run then
      (false, (s.finishAsm 1 g false 0x38).2.modQ q (fun y => { y with run := false, bad := false, waitSince := none }))
    else
      let r := put (zeros 4 ++ leBytes 4 w) false
      if r.1 ≠ .waits then (true, take r.2 true false) else (false, s.bridgeWaits q)
  else if !x.run then (true, take s false false)
  else if tag = 3 then (false, take (s.finishAsm 1 g true 0x38).2 false false)
  else if x.bad then (true, take s (tag != 2) (tag != 2))
  else
    let r := put (leBytes 4 w) (tag == 2)
    if r.1 ≠ .waits then (tag != 2, take r.2 (tag != 2) false) else (false, s.bridgeWaits q)

/-- Words of a GALLEY_OUT queue handled until a run has closed or the controller waits. -/
def State.bridgeRun (s : State) (q : Nat) : Nat → State
  | 0 => s
  | fuel + 1 =>
    if (s.bq q).level = 0 then s
    else
      let r := s.bridgeWord q
      if r.1 then r.2.bridgeRun q fuel else r.2

/-- Whether the device side of queue `q` works in a mode. -/
def State.bridgeOn (s : State) (q mode : Nat) : Bool :=
  decide (q < 8) && s.qf q BURL_QCFG_EN == 1 && s.qf q BURL_QCFG_MODE == mode && s.burl.writes

/-- BURL_GALLEY_PACKET (R332). -/
def execBurlGalleyPacket (q : Nat) (s : State) : Out1 :=
  .next (if s.bridgeOn q 2 then s.bridgeRun q 4097 else s)

/-- BURL_BRIDGE_TIMEOUT (R332): the packet closed, the rest of the run discarded. -/
def execBurlBridgeTimeout (q : Nat) (s : State) : Out1 :=
  .next (match (s.bq q).waitSince with
    | none => s
    | some t =>
      if !s.bridgeOn q 2 ∨ s.base < t + s.rd BURL_BRIDGE_TIMEOUT_US * 1000 then s
      else
        let x := s.bq q
        let g := s.qf q BURL_QCFG_GALLEY
        let s := if x.run then (s.finishAsm 1 g true 0x38).2 else s.modQ q BQueue.pop
        let s := s.modQ q (fun y => { y with run := true, bad := true, waitSince := none })
        s.raise EV_BURL_BRIDGE_TIMEOUT 0x38 0 0 0)

/-! ## PICTURE_OUT (R333) -/

/-- What row `y` of a picture holds, as byte offset in the buffer and length of each part: its luma row and, in formats 0 and 1 on
even rows, the chroma row below it; its three planes' rows in format 2 (log entry 22). -/
def rowParts (c : ResizeCfg) (y : Nat) : List (Nat × Nat) :=
  let w := if c.fmt = 1 then 2 * c.ow else c.ow
  let p := rowPitch w
  if c.fmt = 2 then [0, 1, 2].map (fun i => ((i * c.oh + y) * p, w))
  else (y * p, w) :: (if y % 2 = 0 then [((c.oh + y / 2) * p, w)] else [])

/-- Words that a row takes. -/
def rowWords (c : ResizeCfg) (y : Nat) : Nat := ceilDiv (listSum ((rowParts c y).map (·.2))) 4

/-- The bytes of a row written to the picture buffer, zero up to the next row, by the Burl fabric. -/
def State.putRow (s : State) (base : Nat) (parts : List (Nat × Nat)) (bs : List Byte) : State :=
  (parts.foldl (fun (a : State × List Byte) p =>
    let data := a.2.take p.2
    let data := data ++ zeros (rowPitch p.2 - data.length)
    let g := a.1.accessCheck 0x38 (base + p.1) data.length rightW
    (if g.1 then (g.2.write .commons (base + p.1 - 0x0800000000) data 0x38).2 else g.2, a.2.drop p.2)) (s, bs)).1

/-- A picture given up with an error: buffer freed, loss counted, BURL_PICTURE_ERROR. -/
def State.picError (s : State) (q c : Nat) : State :=
  let s := match (s.bq q).buf with
    | some b => s.freeBuf c b
    | none => s
  let s := s.modQ q (fun y => { y with buf := none, rows := [], row := none, bad := true, run := true })
  (s.ctxCount c 6).raise EV_BURL_PICTURE_ERROR 0x38 0 0 0

/-- The first row of a picture claims a buffer (R309). -/
def State.picClaim (s : State) (q c : Nat) : State :=
  let x := s.ctx c
  let begin_ := fun (s : State) (b : Option Nat) => s.modQ q (fun y => { y with
    run := true, bad := b.isNone, buf := b, rows := [], row := none, seq := x.seq, arrival := s.now })
  if x.st ≠ 2 ∨ s.rdc (1 + c) CTX_BIND0_SOURCE ≠ 1 then begin_ s none
  else
    let s := s.modCtx c (fun x => { x with seq := x.seq + 1 })
    match indexOf? (fun b => b == BufSt.free) x.bufs with
    | some b => begin_ (s.modCtx c (fun x => { x with bufs := setAt x.bufs b .claimed })) (some b)
    | none => begin_ ((s.ctxCount c 6).raiseOnce (0x50000 + c) 1000000000 EV_INGEST_NO_BUFFER 0x38 0 0 0) none

/-- A word of a picture handled. -/
def State.picWord (s : State) (q c w tag : Nat) : State :=
  let cfg := s.resizeCfg c
  let x := s.bq q
  if tag = 1 ∧ bit w 31 then
    let s := if x.run ∧ !x.bad then s.picError q c else s
    s.modQ q (fun y => { y with run := false, bad := false, rows := [], row := none, buf := none })
  else if tag = 3 then (if x.bad then s else s.picError q c)
  else if tag = 1 then
    let s := if x.run then s else s.picClaim q c
    let x := s.bq q
    let r := bits w 0 13
    if x.bad then s
    else if x.row.isSome ∨ cfg.oh ≤ r ∨ x.rows.contains r then s.picError q c
    else s.modQ q (fun y => { y with row := some (r, []) })
  else if !x.run ∨ x.bad then s
  else
    match x.row with
    | none => s.picError q c
    | some (r, ws) =>
      let ws := ws ++ [w]
      if tag ≠ 2 then (if rowWords cfg r ≤ ws.length then s.picError q c else s.modQ q (fun y => { y with row := some (r, ws) }))
      else if ws.length ≠ rowWords cfg r then s.picError q c
      else
        let b := x.buf.getD 0
        let s := s.putRow ((s.ctx c).base + b * (s.ctx c).bufBytes) (rowParts cfg r) (ws.flatMap (leBytes 4))
        s.modQ q (fun y => { y with row := none, rows := r :: y.rows, due := decide (cfg.oh ≤ y.rows.length + 1) })

/-- The notice of a whole picture written, and its input whole; false while the galley has no room. -/
def State.picDone (s : State) (q c : Nat) : Bool × State :=
  let x := s.bq q
  let b := x.buf.getD 0
  let done := fun (s : State) => s.modQ q (fun y => { y with due := false, bad := true, rows := [], row := none, buf := none })
  if (s.ctx c).st ≠ 2 then (true, done (s.freeBuf c b))
  else
    let bs := zeros 4 ++ leBytes 4 c ++ leBytes 4 b ++ leBytes 4 s.now
    let r := s.galleyPut 1 (s.qf q BURL_QCFG_GALLEY) bs true true 0x11 0x38
    if r.1 ≠ .waits then
      let s := (r.2.modCtx c (fun y => { y with bufs := setAt y.bufs b .whole })).ctxCount c 5
      (true, done { s with adm := { s.adm with waiting := s.adm.waiting ++ [⟨c, b, s.base, x.seq, 0, x.arrival⟩] } })
    else (false, s)

/-- Words of a PICTURE_OUT queue handled until a picture is whole. -/
def State.picRun (s : State) (q c : Nat) : Nat → State
  | 0 => s
  | fuel + 1 =>
    if (s.bq q).due then (s.picDone q c).2
    else if (s.bq q).level = 0 then s
    else
      let h := (s.bq q).head
      ((s.modQ q BQueue.pop).picWord q c h.1 h.2).picRun q c fuel

/-- BURL_PICTURE_WHOLE (R333). -/
def execBurlPictureWhole (q : Nat) (s : State) : Out1 :=
  .next (if s.bridgeOn q 3 then s.picRun q (s.qf q BURL_QCFG_CTX) 4098 else s)

/-! ## Capture (R335) -/

/-- A write of BURL_CAPTURE by master `m`. -/
def State.burlCapture (s : State) (m v : Nat) : Bool × State :=
  if bits v 23 1 = 0 ∧ bits v 0 10 = 0 then (false, s)
  else if bit v 31 then
    if s.burl.st ≠ 4 ∨ s.rd BURL_CAPTURE_BUSY = 1 then (false, s)
    else
      let s := (s.setFields m BURL_CAPTURE_ARM.addr v).wr BURL_CAPTURE_BUSY 1
      (true, s.modBurl (fun b => { b with cap := some (bits v 0 10), fired := false }))
  else (true, s.setFields m BURL_CAPTURE_ARM.addr v)

/-- BURL_CAPTURE_ARM (R335). -/
def execBurlCaptureArm (m v : Nat) (s : State) : Out1 :=
  .next (s.writeCmd m BURL_CAPTURE_ARM.addr v (fun s => s.burlCapture m v))

/-- BURL_CAPTURE_DONE (R335). -/
def execBurlCaptureDone (s : State) : Out1 :=
  .next (if s.burl.fired then
      let s := (s.modBurl (fun b => { b with fired := false })).wr BURL_CAPTURE_BUSY 0
      (s.wr BURL_CAPTURE_DONE 1).raise EV_BURL_CAPTURE_DONE 0x38 0 0 0
    else s)

/-! ## I/O cells (R337, R418) -/

/-- IO_INPUT_CHANGE (R337): a bank without supply, and one whose supply entered its range less than 100 µs ago, hold their last
filtered values (R418). -/
def execIoInputChange (c : Nat) (level : Bool) (s : State) : Out1 :=
  .next (if !s.bankLive (c / 8) then s
    else ({ s with io := { s.io with filt := setAt s.io.filt c level } }).settleBurl)

/-- BANK_SUPPLY_CHANGE (R418): BANK_V of bank `g` becomes 0, 1 or 2. -/
def execBankSupplyChange (g v : Nat) (s : State) : Out1 :=
  .next (if 4 ≤ g ∨ 3 ≤ v ∨ s.io.bank.getD g 0 = v then s
    else { s with io := { s.io with bank := setAt s.io.bank g v, since := setAt s.io.since g s.base } })

end Sys2Proof.Machine
end

