-- ==== Sys2Proof/Machine/Contexts.lean ====
section
/-! DEFINITION. The context commands (15 R349 to R351): BIND, START, STOP, UNBIND, and the end of a stopping context (R350). -/
namespace Sys2Proof.Machine

/-- LAST_ERR of context `c` set. -/
def State.lastErr (s : State) (c code : Nat) : State := s.wrc (1 + c) CTX_STATUS_LAST_ERR code

/-- A command refused by a check of Table 15-7: LAST_ERR, and the event of the cause (R426). -/
def State.ctxRefuse (s : State) (c code arg2 : Nat) : Bool × State :=
  let s := s.lastErr c code
  let k := s.rdc (1 + c) CTX_BIND0_SLOT
  (false, if code = EV_VERSION_REFUSED then s
    else if code = EV_INGEST_NO_MEMORY then s.raise code s.admCore 0 0 0
    else s.raise code s.admCore (c % 4096 * 0x10000) k arg2)

/-- A command refused for a cause to which the spec gives no code: LAST_ERR is free (log entry 24). -/
def State.ctxRefuseFree (s : State) (c : Nat) : Bool × State :=
  let f := s.takeFree
  (false, f.2.lastErr c (f.1 % 65536))

/-- The lowest free forme context index of slot `k` (R37). -/
def State.freeFidx (s : State) (k : Nat) : Option Nat :=
  (List.range (s.slot k).maxCtx).find? (fun i => (tget (fun _ => none) (s.slot k).fidx i).isNone)

/-- BIND of context `c` (Table 15-7). -/
def State.ctxBind (s : State) (c : Nat) : Bool × State :=
  let k := s.rdc (1 + c) CTX_BIND0_SLOT
  let x := s.slot k
  let contract := s.isContract c
  if (s.ctx c).st ≠ 0 then s.ctxRefuseFree c
  else if x.st ≠ 2 ∨ (contract ∧ s.rd SEC_DEBUG_STATUS_ACTIVE = 1) then s.ctxRefuse c EV_CONTEXT_SLOT_STATE 0
  else
    match s.freeFidx k with
    | none => s.ctxRefuse c EV_LOAD_CONTEXTS 0
    | some i =>
      if contract ∧ !x.contract then s.ctxRefuse c EV_LOAD_PIN_REQUIRED 0
      else if s.limitNs c = 0 then s.ctxRefuse c EV_CONTEXT_LIMIT_UNSET 0
      else if contract ∧ s.limitNs c < x.lmin then s.ctxRefuse c EV_CONTEXT_BOUND_SHORT x.lmin
      else if s.rdc (1 + s.resultGalley c) CTX_RES_CFG_POLICY = 3 then s.ctxRefuse c EV_RESULT_POLICY_UNSET 0
      else
        let s := s.modSlot k (fun y => { y with fidx := tput (fun _ => none) y.fidx i (some c) })
        (true, s.modCtx c (fun y => { y with st := 1, slot := k, fidx := i }))

/-! ## START -/

/-- Bytes of one picture buffer's stride: the picture size, for a memory source rounded up to 64 KiB (R351). -/
def State.picStride (s : State) (c : Nat) : Nat :=
  let f := s.ictx c
  let n := picBytes (f NET_CTX_PIC_PIC_FMT) (f NET_CTX_OUT_W) (f NET_CTX_OUT_H) (f NET_CTX_PIC_PLANES_M1 + 1)
  if s.rdc (1 + c) CTX_BIND0_SOURCE = 2 then ceilDiv n 65536 * 65536 else n

/-- The granules of a context's picture buffers, one contiguous run (R309). -/
def State.picGranules (s : State) (c : Nat) : Nat := ceilDiv (s.picStride c * (s.ictx c NET_CTX_PIC_PICBUFS_M1 + 1)) 65536

/-- What a START allocates: the first granule, jitter buffer pages, decoded picture buffer pages, two quoins (0 where the source
takes none), and the first region-map entry of the pages, none where no run is free. -/
structure CtxPlan where
  granule : Nat
  jb : List Nat
  dpb : List Nat
  quoin : Nat
  region : Option Nat
deriving DecidableEq, Repr

/-- The access entries of a started context (R425). -/
def State.ctxAcc (s : State) (c : Nat) (p : CtxPlan) : List (Nat × AccEnt) :=
  let k := (s.ctx c).slot
  let src := s.rdc (1 + c) CTX_BIND0_SOURCE
  let f := s.ictx c
  let lo := p.granule * 65536
  let n := s.picStride c * (f NET_CTX_PIC_PICBUFS_M1 + 1)
  let fill := if src = 0 then (0x50, 0x50) else if src = 1 then (0x38, 0x38) else (0x70, 0x71)
  let d := 0x40 + f NET_CTX_DEC_DEC
  let inm := 0x51 + f NET_CTX_CFG_PORT
  (1, ownedEnt k 4 0x58 0x5A lo n) :: (1, ownedEnt k 2 fill.1 fill.2 lo n) ::
  ((pageWindows p.jb).flatMap (fun w => [(0, ownedEnt k 2 inm inm w.1 w.2), (0, ownedEnt k 4 d d w.1 w.2)]) ++
  (pageWindows p.dpb).flatMap (fun w => [(0, ownedEnt k 2 d d w.1 w.2), (0, ownedEnt k 4 0x30 0x33 w.1 w.2)]))

/-- The allocation of a START, where there is room for all of it. -/
def State.ctxPlan (s : State) (c : Nat) : Option CtxPlan :=
  let f := s.ictx c
  let n := s.picGranules c
  let comp := s.compressed c
  let jb := if comp then ceilDiv (f NET_CTX_JB_JB_SIZE * 65536) 0x200000 else 0
  let dpb := if comp then ceilDiv ((f NET_CTX_DEC_DPB_FRAMES + 1) * Config.codedBytes c) 0x200000 else 0
  let mem := s.rdc (1 + c) CTX_BIND0_SOURCE = 2
  match s.freeGranules n, s.freePages (jb + dpb), (if mem then s.freeQuoins 2 else some 0) with
  | some g, some pages, some q =>
    let p : CtxPlan := ⟨g, pages.take jb, pages.drop jb, q, s.freeRegion (jb + dpb)⟩
    if s.accFits (s.ctxAcc c p) then some p else none
  | _, _, _ => none

/-- The context running with what it was given, every HBM page pinned (R305, 01 R36). -/
def State.ctxRun (s : State) (c : Nat) (p : CtxPlan) : State :=
  let f := s.ictx c
  let nb := f NET_CTX_PIC_PICBUFS_M1 + 1
  let stride := s.picStride c
  let acc := s.ctxAcc c p
  let src := s.rdc (1 + c) CTX_BIND0_SOURCE
  let st := if src = 0 then (if s.compressed c then 1 else 2) else 0
  let n := s.picGranules c
  let s := (((s.takeGranules p.granule n).takePages (p.jb ++ p.dpb)).mapPages (p.region.getD 0) (p.jb ++ p.dpb)).addAcc acc
  let s := if p.quoin = 0 then s
    else (((s.takeQuoins p.quoin 1).takeQuoins (p.quoin + 1) 1).qreset p.quoin 0).qreset (p.quoin + 1) nb
  s.modCtx c (fun x => { x with
    st := 2, base := 0x0800000000 + p.granule * 65536, bufBytes := stride, bufs := List.replicate nb .free
    next := 0, freeNext := 0, inQ := p.quoin, freeQ := if p.quoin = 0 then 0 else p.quoin + 1, jbPages := p.jb ++ p.dpb
    jbCount := p.jb.length, region := p.region.getD 0, seq := 0, eosSent := false, eosDone := false, ing := { st := st } })

/-- START of context `c` (Table 15-7; a parked slot is woken, 17 R396). DESIGN CHOICE (log entry 81): where no run of region-map entries
is free for its pages, a contract context lacks the pins of 01 R36 and any other one memory. -/
def State.ctxStart (s : State) (c : Nat) : Bool × State :=
  let src := s.rdc (1 + c) CTX_BIND0_SOURCE
  if (s.ctx c).st ≠ 1 then s.ctxRefuseFree c
  else if s.rd SYS_FUNC_READY_DATA_PLANE = 0 then s.ctxRefuse c EV_VERSION_REFUSED 0
  else if (s.slot (s.ctx c).slot).st ≠ 2 then s.ctxRefuse c EV_CONTEXT_SLOT_STATE 0
  else if s.ictx c NET_CTX_PIC_PIC_FMT = 3 ∧ src ≠ 2 then s.ctxRefuse c EV_CONTEXT_PIC_FORMAT 0
  else if s.ictx c NET_CTX_OUT_W = 0 ∨ s.ictx c NET_CTX_OUT_H = 0 then s.ctxRefuseFree c
  else
    match s.ctxPlan c with
    | none => s.ctxRefuse c EV_INGEST_NO_MEMORY 0
    | some p =>
      if p.region = none then s.ctxRefuse c (if s.isContract c then EV_LOAD_PIN_REQUIRED else EV_INGEST_NO_MEMORY) 0
      else (true, (s.ctxRun c p).unparkSlot (s.ctx c).slot)

/-! ## STOP, UNBIND, and the register -/

/-- STOP of context `c` (R350). -/
def State.ctxStop (s : State) (c : Nat) : Bool × State :=
  if (s.ctx c).st = 2 then (true, s.modCtx c (fun x => { x with st := 3 })) else s.ctxRefuseFree c

/-- UNBIND of context `c`. -/
def State.ctxUnbind (s : State) (c : Nat) : Bool × State :=
  if (s.ctx c).st = 1 then (true, s.unbindCtx c) else s.ctxRefuseFree c

/-- A write of CTX_CMD by master `m`: one bit per write (Table 15-11). -/
def State.ctxCmd (s : State) (m v : Nat) : Bool × State :=
  let c := s.rdc (1 + m) CTX_SEL_CTX
  match v with
  | 0 => (true, s)
  | 1 => s.ctxBind c
  | 2 => s.ctxUnbind c
  | 4 => s.ctxStart c
  | 8 => s.ctxStop c
  | _ => (false, s)

/-- CTX_CMD written by master `m`. -/
def State.ctxCommand (s : State) (m v : Nat) : State := s.writeCmd m CTX_CMD_BIND.addr v (fun s => s.ctxCmd m v)

/-- CTX_BIND (R349). -/
def execCtxBind (m : Nat) (s : State) : Out1 := .next (s.ctxCommand m 1)

/-- CTX_START (R349). -/
def execCtxStart (m : Nat) (s : State) : Out1 := .next (s.ctxCommand m 4)

/-- CTX_STOP (R350). -/
def execCtxStop (m : Nat) (s : State) : Out1 := .next (s.ctxCommand m 8)

/-- CTX_UNBIND (R349). -/
def execCtxUnbind (m : Nat) (s : State) : Out1 := .next (s.ctxCommand m 2)

/-- CONTEXT_STOPPED (R350): once END_OF_STREAM has left the output facing engine, the end-of-stream record is written, the context's
buffers and quoins are released, and it is BOUND again. -/
def execContextStopped (ctx : Nat) (s : State) : Out1 :=
  let x := s.ctx ctx
  .next (if x.st = 3 ∧ x.eosDone ∧ s.roleHeld s.admCore then
      let seq := if s.rdc (1 + ctx) CTX_BIND0_SOURCE = 0 then x.ing.opened else x.seq
      let s := s.plainRecord { ctx := ctx, seq := seq, forme := (s.slot x.slot).formeId } 0x23
      let s := (s.releaseCtx ctx).modCtx ctx (fun y => { y with st := 1 })
      s.raise EV_CONTEXT_STOPPED s.admCore (ctx % 4096 * 0x10000) x.slot 0
    else s)

end Sys2Proof.Machine
end

