-- ==== Sys2Proof/Machine/NetTx.lean ====
section
/-! DEFINITION. What the Ethernet ports send and stamp: PTP messages and the receive queue (13 R310, R311), TIME_PPS (R312) and
result datagrams (R315). -/
namespace Sys2Proof.Machine

/-! ## PTP -/

/-- A write of PTP_TX_CTRL (R311): SEND is refused while a frame waits or is being sent, and with LEN not set (R9). -/
def State.ptpCtrl (s : State) (m p v : Nat) : Bool × State :=
  if bit v 31 && (s.rd (NET_PTP_TX_CTRL_BUSY.net p) == 1 || decide (bits v 0 9 < 60)) then (false, s)
  else
    let s := s.setFields m (NET_PTP_TX_CTRL_SEND.net p).addr v
    if bit v 31 then
      let bs := (List.range 64).flatMap (fun k => leBytes 4 (s.rd ((NET_PTP_TXB_WORD.idx k).net p)))
      let s := s.wr (NET_PTP_TX_CTRL_BUSY.net p) 1
      (true, s.modNet p (fun x => { x with txWait := some (bits v 16 2, bs.take (bits v 0 9)) }))
    else (true, s)

/-- PTP_SEND (R311). -/
def execPtpSend (m port v : Nat) (s : State) : Out1 :=
  .next (if port < 2 then s.writeCmd m (NET_PTP_TX_CTRL_SEND.net port).addr v (fun s => s.ptpCtrl m port v)
    else s.answer .busError)

/-- PTP_TX_DONE (R311): the frame is out, and the time of its start is kept. -/
def execPtpTxDone (port : Nat) (s : State) : Out1 :=
  .next (match (s.port port).txWait with
    | some (l, f) =>
      if port < 2 ∧ s.linkUp port l then
        let s := (s.emit (.netFrame port l f)).modNet port (fun x => { x with txWait := none })
        let s := (s.wr (NET_PTP_TX_TS_LO_NS.net port) (s.now % 2 ^ 32)).wr (NET_PTP_TX_TS_HI_NS.net port) (s.now / 2 ^ 32)
        (s.wr (NET_PTP_TX_CTRL_TS_VALID.net port) 1).wr (NET_PTP_TX_CTRL_BUSY.net port) 0
      else s
    | none => s)

/-- A write of PTP_RXQ (Table 13-7): POP is refused on an empty queue. -/
def State.ptpPop (s : State) (p v : Nat) : Bool × State :=
  if !bit v 31 then (true, s)
  else if (s.port p).rxCount = 0 then (false, s)
  else (true, s.modNet p (fun x => { x with rxCount := x.rxCount - 1, head := (x.head + 1) % 64 }))

/-- PTP_RXQ_POP (R310). -/
def execPtpRxqPop (m port : Nat) (s : State) : Out1 :=
  .next (if port < 2 then s.writeCmd m (NET_PTP_RXQ_POP.net port).addr (2 ^ 31) (fun s => s.ptpPop port (2 ^ 31))
    else s.answer .busError)

/-! ## TIME_PPS -/

/-- TIME_PPS (R312): an edge less than 100 ms after the last latched one is ignored. -/
def execTimePps (s : State) : Out1 :=
  .next (if s.ppsEdge.any (fun t => decide (s.base < t + 100000000)) then s
    else
      let s := if s.rd TIME_PPS_STATUS_VALID = 1 then s.wr TIME_PPS_STATUS_OVERRUN 1 else s
      let s := (s.wr TIME_PPS_LO_NS (s.now % 2 ^ 32)).wr TIME_PPS_HI_NS (s.now / 2 ^ 32)
      { s.wr TIME_PPS_STATUS_VALID 1 with ppsEdge := some s.base })

/-! ## Result datagrams (R315) -/

/-- A UDP datagram with its checksum; 0 is sent as 0xFFFF. -/
def udpBytes (v6 : Bool) (src dst sport dport : Nat) (d : List Byte) : List Byte :=
  let u := beBytes 2 sport ++ beBytes 2 dport ++ beBytes 2 (8 + d.length)
  let c := 0xFFFF - udpSum v6 src dst (u ++ [0, 0] ++ d)
  u ++ beBytes 2 (if c = 0 then 0xFFFF else c) ++ d

/-- An IP packet that carries a UDP datagram: IPv4 with DF and TTL 64, or IPv6. -/
def ipBytes (v6 : Bool) (src dst dscp ident : Nat) (u : List Byte) : List Byte :=
  if v6 then
    beBytes 4 (6 * 2 ^ 28 + dscp * 2 ^ 22) ++ beBytes 2 u.length ++ [17, 64] ++ beBytes 16 src ++ beBytes 16 dst ++ u
  else
    let a := [0x45] ++ beBytes 1 (dscp * 4) ++ beBytes 2 (20 + u.length) ++ beBytes 2 ident ++ [0x40, 0, 64, 17]
    let b := beBytes 4 src ++ beBytes 4 dst
    a ++ beBytes 2 (0xFFFF - fold16 (sum16 a + sum16 b)) ++ b ++ u

/-- A frame without its FCS, tagged where `vid` is given. -/
def ethBytes (dst src : Nat) (vid : Option Nat) (v6 : Bool) (p : List Byte) : List Byte :=
  beBytes 6 dst ++ beBytes 6 src ++ (match vid with
    | some v => beBytes 2 0x8100 ++ beBytes 2 v
    | none => []) ++ beBytes 2 (if v6 then 0x86DD else 0x0800) ++ p

/-- A datagram of result galley `g` sent by port `p` with payload `d`. -/
def State.sendDatagram (s : State) (p g : Nat) (d : List Byte) : State :=
  let f := fun (x : Fld) => s.rdc (1 + g) (x.net p)
  let l := f NET_RES_CFG_LINK
  let v6 := f NET_RES_CFG_IPV6 == 1
  let dst := if v6 then s.addr128 (1 + g) (NET_RES_DIP_ADDR.net p) else f NET_RES_DIP_ADDR
  let src := s.linkIp p l v6
  let u := udpBytes v6 src dst (f NET_RES_PORTS_SRC) (f NET_RES_PORTS_DST) d
  let x := s.port p
  let ip := ipBytes v6 src dst (f NET_RES_CFG_DSCP) (x.ident % 65536) u
  let e := ethBytes (f NET_RES_DMAC_HI_MAC * 2 ^ 32 + f NET_RES_DMAC_LO_MAC) (s.linkMac p l)
    (if f NET_RES_CFG_VLAN_EN = 1 then some (f NET_RES_CFG_VID) else none) v6 ip
  (s.emit (.netFrame p l e)).modNet p (fun x => { x with ident := if v6 then x.ident else (x.ident + 1) % 65536 })

/-- One datagram of the oldest record of galley `g`, which is `len` bytes long (Table 13-4): the `bs` bytes of it from byte `off` on. -/
def State.sendFragment (s : State) (p g off len : Nat) (bs : List Byte) : State :=
  let seq := tget (fun _ => 0) (s.port p).seqs g
  let h := leBytes 4 0x52514641 ++ [1] ++ leBytes 1 (b2n (off == 0) + 2 * b2n (decide (len ≤ off + bs.length))) ++ leBytes 2 g ++
    leBytes 4 seq ++ leBytes 4 off ++ leBytes 4 len
  (s.sendDatagram p g (h ++ bs)).modNet p (fun x => { x with seqs := tput (fun _ => 0) x.seqs g ((seq + 1) % 2 ^ 32) })

/-- B of R315. -/
def State.resultMtu (s : State) (p g : Nat) : Nat :=
  let ip := if s.rdc (1 + g) (NET_RES_CFG_IPV6.net p) = 1 then 40 else 20
  (s.rd (NET_CFG_MAX_FRAME.net p) - 18 - ip - 8 - 20) / 4 * 4

/-- Whether port `p` has a datagram of galley `g` to send: its entry enabled, its link up, and a record held. -/
def State.resultReady (s : State) (p g : Nat) : Bool :=
  s.rdc (1 + g) (NET_RES_CFG_EN.net p) == 1 && s.linkUp p (s.rdc (1 + g) (NET_RES_CFG_LINK.net p)) && (s.cgal 2 g).pkts != []

/-- The galley whose datagram port `p` sends next, in round robin (R315). -/
def State.resultTurn (s : State) (p : Nat) : Option Nat :=
  ((List.range 256).map (fun k => ((s.port p).turn + 1 + k) % 256)).find? (s.resultReady p)

/-- The next datagram of the oldest record of galley `g`; a record that cannot be read is removed (R262), and one whose last datagram
has left too. -/
def State.drainResult (s : State) (p g : Nat) : State :=
  match (s.cgal 2 g).pkts with
  | [] => s
  | x :: _ =>
    let n := min (s.resultMtu p g) (x.len - x.drained)
    let r := s.ringRead 2 g (4 * (s.cgal 2 g).rptr + x.drained) n (0x51 + p)
    match r.1 with
    | none => r.2.popPacket 2 g
    | some bs =>
      let s := r.2.sendFragment p g x.drained x.len bs
      if x.len ≤ x.drained + n then s.popPacket 2 g else s.setDrained g (x.drained + n)

/-- RESULT_DATAGRAM_SEND (R315): one datagram of galley `g`, when it is that galley's turn. A PTP frame that waits and can leave goes
first (R311). -/
def execResultDatagramSend (port g : Nat) (s : State) : Out1 :=
  .next (if port < 2 ∧ g < 256 ∧ s.resultTurn port = some g ∧ !((s.port port).txWait.any (fun w => s.linkUp port w.1)) then
      (s.drainResult port g).modNet port (fun x => { x with turn := g })
    else s)

end Sys2Proof.Machine
end

