-- ==== Sys2Proof/Machine/Impression.lean ====
section
/-! DEFINITION. The impression sequencer of a forme with several impressions (09 R207 to R215): rounds, the barriers at the cuts,
the reconfiguration of a tile. A command whose condition does not hold changes nothing. -/
namespace Sys2Proof.Machine

/-- Whether a tile carries a stage of impression `i` in slot `k`. -/
def Slot.carries (x : Slot) (i t : Nat) : Bool := x.placed.any (fun p => p.imp == i && p.phys == t)

/-- The tag of the sequencer's WAIT on GATE_QUOIN. -/
def gateTag : Nat := 0x10000

/-- PHASE as Table 9-7 names it, from where the tiles are. -/
def State.impPhase (s : State) (k : Nat) : State :=
  let x := s.slot k
  let held := (x.tiles.map (fun t => (s.tile t).imp)).eraseDups
  let gate := s.quoins.waits.any (fun w => w.2.1 == .seq k gateTag)
  let p := if x.st = 4 then 4 else if 1 < held.length then 2 else if x.imp.round ≠ [] then 1 else if gate then 3 else 0
  s.modImp k (fun i => { i with phase := p })

/-- The sequencer's next barrier WAIT (R210): one at a time, with the number of the cut's spill streams; one that succeeds at once
is followed by the next. -/
def State.seqNext (s : State) (k : Nat) : Nat → State
  | 0 => s
  | fuel + 1 =>
    let x := (s.slot k).imp
    let busy := s.quoins.waits.any (fun w => match w.2.1 with
      | .seq j _ => j == k
      | _ => false)
    let cuts := ((x.streams.filter (fun c => c.spill)).map (·.cut)).eraseDups
    match cuts.find? (fun c => !x.passed.contains c) with
    | none => s
    | some c =>
      if busy ∨ x.round = [] then s
      else
        let n := (x.streams.filter (fun y => y.spill && y.cut == c)).length
        let r := s.qwait (x.cuts.getD c ⟨0, 0, 0, 0, 0, 0, 0⟩).quoin n (.seq k c)
        if r.1 then (r.2.modImp k (fun i => { i with passed := i.passed ++ [c] })).seqNext k fuel else r.2

/-- The round taken: every waiting frame in admission order (R207), its frame table (R208), streams at their starts. -/
def State.openRound (s : State) (k : Nat) : State :=
  let x := (s.slot k).imp
  let frames := x.waiting.map (fun n => (n, (s.flightOf n).all (fun f => f.aborted)))
  let s := s.modImp k (fun i => { i with
    round := frames, waiting := [], passed := [], roundEnd := s.base + i.roundTime
    streams := i.streams.map (fun c => { c with
      started := false, done := false, fslot := 0, taken := 0, tagDue := if c.tagDue.isEmpty then [] else [0] }) })
  let s := (List.range frames.length).foldl (fun (s : State) f =>
    s.modFlight (x.waiting.getD f 0) (fun g => { g with fslot := some f })) s
  (s.seqNext k (x.cuts.length + 1)).impPhase k

/-- ROUND_OPEN (R207): with impression 0 configured and waiting on every tile that carries a stage of it, at least one frame waiting,
no round in progress, and the host's gate passed where the plan has one. -/
def execRoundOpen (slot : Nat) (s : State) : Out1 :=
  let x := s.slot slot
  let ready := x.tiles.all (fun t => !x.carries 0 t || ((s.tile t).imp == 0 && (s.tile t).st == .waitFrame))
  .next (if slot < 8 ∧ x.multi ∧ 2 ≤ x.st ∧ !x.imp.lost ∧ x.imp.round = [] ∧ x.imp.waiting ≠ [] ∧ ready then
      if !x.imp.hostGate || x.imp.passed.contains gateTag then s.openRound slot
      else if s.quoins.waits.any (fun w => w.2.1 == .seq slot gateTag) then s
      else
        let r := s.qwait x.imp.gateQ 1 (.seq slot gateTag)
        if r.1 then r.2.openRound slot else r.2.impPhase slot
    else s)

/-- The frames that the array can carry no further, once the slot has lost its round (R214, R215): those of the round, and all that
are in flight where no re-lock follows. -/
def State.lostFrames (s : State) (k : Nat) : List Flight :=
  let x := s.slot k
  if !x.imp.lost then []
  else s.adm.flights.filter (fun f => f.slot == k && (!x.relock || (roundPlace x.imp.round f.ticket).isSome))

/-- A frame answered by its error record and gone. -/
def State.endLost (s : State) (f : Flight) : State :=
  let s := s.errorRecord f
  { s with adm := { s.adm with flights := s.adm.flights.filter (fun g => g.ticket != f.ticket) } }

/-- The round's last record has left the output engine (R207): DONE_QUOIN signalled, the round counted. -/
def State.closeRound (s : State) (k : Nat) : State :=
  let x := (s.slot k).imp
  let s := s.modImp k (fun i => { i with round := [], roundEnd := s.base })
  let s := s.qsignal s.admCore x.doneQ 1
  (s.inc (LOAD_IMP_ROUNDS_COUNT.idx k)).impPhase k

/-- ROUND_END (R207); the frames of a lost round are answered by error records first (R214, R215). -/
def execRoundEnd (slot : Nat) (s : State) : Out1 :=
  let x := s.slot slot
  .next (if 8 ≤ slot ∨ !x.multi then s
    else
      let l := s.lostFrames slot
      let s := if l = [] then s
        else
          let s := (l.foldl State.endLost s).feForget slot
          s.modImp slot (fun i => { i with waiting := i.waiting.filter (fun n => (s.flightOf n).isSome) })
      if (s.slot slot).imp.round ≠ [] ∧ (s.slot slot).imp.round.all (fun e => (s.flightOf e.1).isNone) then s.closeRound slot
      else s)

/-- SPILL_DONE (R209): a spill stream that has written its last frame slot of the round signals its cut's quoin. -/
def execSpillDone (slot stream : Nat) (s : State) : Out1 :=
  let x := (s.slot slot).imp
  .next (match x.streams[stream]? with
    | some st =>
      if st.spill ∧ !st.done ∧ x.round ≠ [] ∧ st.fslot = x.round.length then
        let s := s.modStream slot stream (fun c => { c with done := true })
        s.qsignal (0x10 + st.engine) (x.cuts.getD st.cut ⟨0, 0, 0, 0, 0, 0, 0⟩).quoin 1
      else s
    | none => s)

/-- Whether a tile is configured for an impression (R210, R212). -/
def State.tileIn (s : State) (i t : Nat) : Bool := (s.tile t).imp == i && (s.tile t).st != .idle

/-- Whether the words of impression `i` stand at every switch of a route (Table 9-5, step 6). -/
def State.wired (s : State) (k i : Nat) (via : List Nat) : Bool := via.all (fun w => s.swImp k w == i)

/-- Whether what a source feeds is configured for its impression: every tile, and every switch on the way. -/
def State.sourceReady (s : State) (k i : Nat) (src : Src) : Bool :=
  s.fab.routes.all (fun r => !(r.slot == k && r.imp == i && r.src == src) || (s.wired k i r.via && r.recvs.all (fun v =>
    match v.dst with
    | .port t _ _ => s.tileIn i t
    | _ => true)))

/-- Whether refill stream `j` may start: its destination is configured, and with the impression's first stream those of the
impression's stream engines. -/
def State.refillReady (s : State) (k j : Nat) (st : CutStream) : Bool :=
  s.sourceReady k st.imp (.refill k j) && ((s.slot k).leadRefill st.imp != some j ||
    (s.weightEngines k st.imp).all (fun e => s.sourceReady k st.imp (.eng e)))

/-- REFILL_START (R210): once the cut's barrier has been passed, the refill streams whose destinations are configured start. -/
def execRefillStart (slot cut : Nat) (s : State) : Out1 :=
  let s := s.seqNext slot ((s.slot slot).imp.cuts.length + 1)
  let x := (s.slot slot).imp
  .next (if x.passed.contains cut ∧ x.round ≠ [] ∧ !x.lost then
      (List.range x.streams.length).foldl (fun (s : State) i =>
        match x.streams[i]? with
        | some st =>
          if !st.spill && st.cut == cut && !st.started && s.refillReady slot i st then
            (s.modStream slot i (fun c => { c with started := true })).refillNext slot i
          else s
        | none => s) s
    else s)

/-! ## The wave (R211 to R213, Table 9-5) -/

/-- Whether tile `t` has nothing left of a frame: it waits, no galley holds a token, the copier no job, no control token is on its
way to it. -/
def State.tileQuiet (s : State) (t : Nat) : Bool :=
  let y := s.tile t
  y.st == .waitFrame && y.ctl.frame.isNone && y.ports.g.all (fun g => g.tags.isEmpty) && y.jobs.isEmpty &&
  s.fab.ctl.all (fun r => !s.ctlAt (.tile t) r || r.a.isEmpty)

/-- Whether every frame slot of the round has been ended by a unit, by the last tickets that it ended. -/
def ImpSt.ended (x : ImpSt) (past : List Nat) : Bool := x.round.all (fun e => past.contains e.1)

/-- Whether no frame of the round is in flight any more: its last record has been written (R213). -/
def State.roundOver (s : State) (k : Nat) : Bool := (s.slot k).imp.round.all (fun e => (s.flightOf e.1).isNone)

/-- Whether tile `t` is drained from the impression it holds (R211). -/
def State.drainedTile (s : State) (k t : Nat) : Bool :=
  let x := s.slot k
  let y := s.tile t
  !x.carries y.imp t ||
    (s.tileQuiet t && (y.imp + 1 == x.imp.count || x.imp.ended y.ctl.past))

/-- Whether another tile of the slot has left the impression that tile `t` holds. -/
def State.ahead (s : State) (k t : Nat) : Bool :=
  (s.slot k).tiles.any (fun u => decide ((s.tile t).wave < (s.tile u).wave))

/-- Whether the wave may take tile `t` out of its impression (R212, R213): a tile without a stage there waits until another has left
it; the last impression is left once the round's last record is written, another one only within a round. -/
def State.mayLeave (s : State) (k t : Nat) : Bool :=
  let x := s.slot k
  let i := (s.tile t).imp
  let behind := s.ahead k t
  (behind || x.carries i t || x.tiles.all (fun u => !x.carries i u)) &&
  (behind || (if i + 1 = x.imp.count then s.roundOver k else x.imp.round != []))

/-- Whether a source of impression `i` has sent its last frame end of the round (R211). -/
def State.sourceDone (s : State) (k i : Nat) (src : Src) : Bool :=
  let x := (s.slot k).imp
  let fed := x.round.all (fun e => (s.flightOf e.1).all (·.sent))
  match src with
  | .port u _ => (s.tile u).imp != i || i + 1 == x.count || x.ended (s.tile u).ctl.past
  | .steer sw n => (s.fab.steers.filter (fun u => u.slot == k && u.imp == i && u.sw == sw && u.k == n)).all (fun u =>
      i + 1 == x.count || x.ended u.past)
  | .feIn _ => fed && s.srcIdle src
  | .eng _ => s.srcIdle src && (if i = 0 then fed else ((s.slot k).leadRefill i).all (fun j =>
      (x.streams[j]?).all (·.done)))
  | .refill _ j => (x.streams[j]?).all (·.done)

/-- Whether a switch is drained from impression `i` (R211): every route through it has brought the round's last frame end to every
receiver. -/
def State.switchDrained (s : State) (k i sw : Nat) : Bool :=
  s.fab.routes.all (fun r => !(r.slot == k && r.imp == i && r.via.contains sw) || (s.sourceDone k i r.src && r.todo.isEmpty &&
    r.recvs.all (fun v => v.lane.isEmpty))) &&
  s.fab.ctl.all (fun r => !(r.slot == k && r.imp == i && r.via.contains sw) || (s.sourceDone k i r.src && r.a.isEmpty))

/-- Step 1: STATE goes to DRAINING. -/
def State.drainTile (s : State) (k t : Nat) : State :=
  (s.modTile t (fun y => { y with st := .draining, back := .draining })).modImp k (fun i => { i with drained := i.drained ++ [t] })

/-- The bytes of an area with those of another list put back at the dynamic scale slots that lie in it (R216). -/
def Slot.keepDynamic (x : Slot) (e : Persist) (bs : List Byte) : List Byte :=
  (x.dir.filter (fun d => d.stage == e.stage && d.unit == e.unit)).foldl (fun bs d =>
    (List.range x.maxCtx).foldl (fun bs c =>
      let o := d.off + c * d.stride
      if e.off ≤ o ∧ o + 32 ≤ e.off + e.len then
        bs.take (o - e.off) ++ slice e.copy (o - e.off) 32 ++ bs.drop (o - e.off + 32)
      else bs) bs) bs

/-- Where the copy of persist area `j` lies in the store's pages (R205). -/
def ImpSt.persistPlace (x : ImpSt) (j : Nat) : Nat :=
  listSum (x.store.map (fun y => y.image.length)) + listSum ((x.persist.take j).map (·.len))

/-- The copy of persist area `j` replaced, in the record and in the store's pages. -/
def State.putCopy (s : State) (k j : Nat) (bs : List Byte) : State :=
  let x := (s.slot k).imp
  let s := s.modImp k (fun x => { x with persist := modAt x.persist j (fun y => { y with copy := bs }) })
  s.writePages x.storePages (x.persistPlace j) bs s.admCore (bs.length / 0x200000 + 2)

/-- The persist areas of the stage that tile `t` carries in its impression, by number. -/
def State.persistOf (s : State) (k t : Nat) : List (Nat × Persist) :=
  let x := s.slot k
  let mine := x.placed.filter (fun p => p.imp == (s.tile t).imp && p.phys == t)
  (List.range x.imp.persist.length).filterMap (fun j => (x.imp.persist[j]?).bind (fun e =>
    if e.phys = t ∧ mine.any (fun p => p.stage == e.stage && p.unit == e.unit) then some (j, e) else none))

/-- Step 2: the persist areas of the impression left are saved, with the loop ports' AVAIL; the dynamic scale slots in them stay as
MC2 has them in the store (R216, log entry 76). -/
def State.saveTile (s : State) (k t : Nat) : State :=
  let i := (s.tile t).imp
  let s := (s.persistOf k t).foldl (fun (s : State) e =>
    let r := s.read (.sram t) e.2.off e.2.len s.admCore
    match r.1 with
    | some bs => r.2.putCopy k e.1 ((s.slot k).keepDynamic e.2 bs)
    | none => r.2) s
  let loop := (s.tile t).ports.loop
  s.modImp k (fun x => { x with store := x.store.map (fun y => if y.imp = i ∧ y.phys = t then
    { y with loop := loop.map (fun l => { l with owed := 0, fired := false, resets := [] }) } else y) })

/-- Where the store keeps what a tile is given: byte offset within the store's pages and length (R205). -/
def ImpSt.storePlace (x : ImpSt) (i t : Nat) : Nat × Nat :=
  let before := x.store.takeWhile (fun y => !(y.imp == i && y.phys == t))
  (listSum (before.map (fun y => y.image.length)),
    ((x.store.find? (fun y => y.imp == i && y.phys == t)).map (fun y => y.image.length)).getD 0)

/-- Bytes of the store read, a page at a time: the physical address of the first that fails. -/
def State.readStore (s : State) (pages : List Nat) (off n m : Nat) : Nat → Option Nat × State
  | 0 => (none, s)
  | fuel + 1 =>
    if n = 0 then (none, s)
    else
      let k := min n (0x200000 - off % 0x200000)
      let a := pages.getD (off / 0x200000) 0 * 0x200000 + off % 0x200000
      let r := s.read .hbm a k m
      if r.1.isNone || !s.hbmReady a k then (some a, r.2) else r.2.readStore pages (off + k) (n - k) m fuel

/-- Step 4's data: the persist areas of the new impression from their copies. -/
def State.restoreTile (s : State) (k t : Nat) : State :=
  (s.persistOf k t).foldl (fun (s : State) e => (s.write (.sram t) e.2.off e.2.copy s.admCore).2) s

/-- The routes into a tile in its new impression as at commit (05 R129), and the counters of those that no tile feeds at 0 (07 R166).
-/
def State.freshRoutes (s : State) (t : Nat) : State :=
  let i := (s.tile t).imp
  let k := s.cfgSlot t
  { s with fab := { s.fab with routes := s.fab.routes.map (fun r =>
      if r.slot = k ∧ r.imp = i ∧ r.recvs.any (fun v => match v.dst with
        | .port u _ _ => u == t
        | _ => false) then { r with
        tag := 0
        recvs := r.recvs.map (fun v => match v.dst with
          | .port u p f => if u = t then
              { v with credits := if f = 0 then (s.portCfg t p).cap else 0, coming := 0, lane := [], seen := 0 } else v
          | _ => v) }
      else r) } }

/-- Whether every switch on every route of impression `i` into or out of tile `t` has its words (Table 9-5, step 6). -/
def State.routesWired (s : State) (k i t : Nat) : Bool :=
  let at' := fun (src : Src) => match src with
    | .port u _ => u == t
    | _ => false
  s.fab.routes.all (fun r => !(r.slot == k && r.imp == i && (at' r.src || r.recvs.any (fun v => match v.dst with
    | .port u _ _ => u == t
    | _ => false))) || s.wired k i r.via) &&
  s.fab.ctl.all (fun r => !(r.slot == k && r.imp == i && (at' r.src || r.dst == .tile t)) || s.wired k i r.via)

/-- Step 6: the IDLE tiles that carry a stage of their impression and whose routes have all their switch words go to WAIT_FRAME. -/
def State.waveWait (s : State) (k : Nat) : State :=
  (s.slot k).tiles.foldl (fun (s : State) t =>
    let y := s.tile t
    let x := (s.slot k)
    if y.st = .idle ∧ x.carries y.imp t ∧ !x.imp.drained.contains t ∧ s.routesWired k y.imp t then
      s.modTile t (fun z => { z with st := .waitFrame, back := .waitFrame })
    else s) s

/-- The switch words of a slot at the switches that satisfy `at'` replaced by others. -/
def State.swapWords (s : State) (k : Nat) (at' : Nat → Bool) (new : List (Nat × Nat)) : State :=
  ({ s with fab := { s.fab with sw := s.fab.sw.filter (fun e => !(at' (e.1 / 256) && decide (e.1 % 256 < 208) &&
    bits e.2.toNat 20 3 == k && bit e.2.toNat 31)) } }).putKeys new

/-- Steering units and aborts of an impression at a switch as they stand before a round. -/
def State.freshSwitch (s : State) (k i : Nat) (at' : Nat → Bool) : State :=
  { s with fab := { s.fab with
    ctl := s.fab.ctl.map (fun r => if r.slot = k ∧ r.imp ≠ i ∧ r.via.any at' then { r with x := [] } else r)
    steers := s.fab.steers.map (fun u => if u.slot = k ∧ u.imp = i ∧ at' u.sw then
      { u with sel := none, frame := none, aborted := false, pend := [], blocks := u.blocks, done := 0, past := []
               abortNext := false } else u) } }

/-- The words of an impression at a switch: those that the store holds of its tile, and the plan's others. -/
def ImpSt.wordsAt (x : ImpSt) (i sw : Nat) : List (Nat × Nat) :=
  ((x.store.filter (fun y => y.imp == i && y.phys == sw)).flatMap (fun y => y.words.map (fun w => (sw * 256 + w.1, w.2)))) ++
  (x.words.filter (fun w => w.1 == i && w.2.1 / 256 == sw)).map (·.2)

/-- Step 5 for tile `t`: its switch words of the new impression, once the switch is drained from the old one and no held tile is left
behind (log entry 75 on a tile without a stage). -/
def State.wireTile (s : State) (k t : Nat) : State :=
  let x := s.slot k
  let y := s.tile t
  let old := (y.imp + x.imp.count - 1) % max 1 x.imp.count
  if s.switchDrained k old t && x.tiles.all (fun u => decide (y.wave ≤ (s.tile u).wave + 1)) then
    let own := fun (w : Nat) => w == t
    let s := { s with fab := { s.fab with sw := s.fab.sw.filter (fun e => !(e.1 / 256 == t && decide (208 ≤ e.1 % 256))) } }
    let s := (s.swapWords k own (x.imp.wordsAt y.imp t)).freshSwitch k y.imp own
    s.modImp k (fun i => { i with due := i.due.filter (fun u => u != t) })
  else s

/-- The words of the new impression at switches outside the slot's tiles, once every tile has left the old one and each of those
switches is drained from it (log entry 75). -/
def State.outsideWords (s : State) (k : Nat) : State :=
  let x := s.slot k
  let i := (x.imp.outer + 1) % max 1 x.imp.count
  let out := fun (w : Nat) => !x.tiles.contains w
  let sws := ((x.imp.words.map (fun w => w.2.1 / 256)).filter out).eraseDups
  if x.tiles.all (fun t => (s.tile t).imp == i) && sws.all (fun w => s.switchDrained k x.imp.outer w) then
    let s := (s.swapWords k out (sws.flatMap (x.imp.wordsAt i))).freshSwitch k i out
    s.modImp k (fun y => { y with outer := i })
  else s

/-- An uncorrectable error on the store (R215): every frame of the round aborted, the event, and the slot STOPPED or due for its
re-lock. -/
def State.storeError (s : State) (k i a : Nat) : State :=
  let s := s.loseRound k EV_IMPRESSION_STORE_ERROR
  let s := s.raise EV_IMPRESSION_STORE_ERROR s.admCore k i a
  (s.stopOrRelock k).impPhase k

/-- What step 4 reads of the store for tile `t` in impression `i`: its image and its persist copies; the address of the first read that
fails. -/
def State.scanIn (s : State) (k i t : Nat) : Option Nat × State :=
  let x := (s.slot k).imp
  let mine := (s.slot k).placed.filter (fun p => p.imp == i && p.phys == t)
  let areas := (List.range x.persist.length).filterMap (fun j => (x.persist[j]?).bind (fun e =>
    if e.phys = t ∧ mine.any (fun p => p.stage == e.stage && p.unit == e.unit) then some (x.persistPlace j, e.len) else none))
  (x.storePlace i t :: areas).foldl (fun (r : Option Nat × State) a =>
    if r.1.isSome then r else r.2.readStore x.storePages a.1 a.2 s.admCore (a.2 / 0x200000 + 2)) (none, s)

/-- Steps 3 and 4 for a tile that carries a stage of the next impression, and step 3 alone for one that does not; its switch words
are then due. -/
def State.giveTile (s : State) (k t next : Nat) : State :=
  let x := (s.slot k).imp
  let take := fun (s : State) => (s.modTile t (fun z => { z with st := .idle, back := .idle, imp := next, wave := z.wave + 1 })).modImp k
    (fun i => { i with drained := i.drained.filter (fun u => u != t), due := i.due ++ [t] })
  match x.store.find? (fun y => y.imp == next && y.phys == t) with
  | none => take (s.modTile t (fun y => { y with
      core := {}, plat := {}, ports := {}, ctl := {}, watch := List.replicate 13 {}, jobs := [] }))
  | some y =>
    let r := s.scanIn k next t
    match r.1 with
    | some a => r.2.storeError k next a
    | none => (((take (r.2.configTile y s.admCore))).restoreTile k t).freshRoutes t

/-- STATE goes to IDLE, and steps 2 to 4 follow once no tile of the slot is left in an earlier impression (R213). -/
def State.leaveTile (s : State) (k t : Nat) : State :=
  let x := s.slot k
  let y := s.tile t
  let s := s.modTile t (fun z => { z with st := .idle, back := .idle })
  if x.tiles.all (fun u => decide (y.wave ≤ (s.tile u).wave)) then
    (s.saveTile k t).giveTile k t ((y.imp + 1) % max 1 x.imp.count)
  else s

/-- TILE_RECONFIGURE (R211, R212, Table 9-5): one step of the table for tile `t`, as far as its condition holds: step 1; IDLE and steps
2 to 4; step 5. The words outside the slot's tiles and step 6 of its tiles follow as they may. -/
def execTileReconfigure (t : Nat) (s : State) : Out1 :=
  .next (match s.tileSlot t with
    | none => s
    | some k =>
      let x := s.slot k
      if x.multi ∧ 2 ≤ x.st ∧ !x.imp.lost then
        let s := if x.imp.due.contains t then s.wireTile k t
          else if x.imp.drained.contains t then s.leaveTile k t
          else if s.drainedTile k t && s.mayLeave k t then s.drainTile k t
          else s
        ((s.outsideWords k).waveWait k).impPhase k
      else s)

end Sys2Proof.Machine
end

