-- ==== Sys2Proof/Machine/Power.lean ====
section
/-! DEFINITION. Power states, parking, self-test, the independent trip and device shutdown (17 R394 to R404), the trip's polls (18
R420), and what USB, the management link and DHCP report (15 R344, R359; 16 R364). A command whose condition does not hold
changes nothing. -/
namespace Sys2Proof.Machine

/-! ## Budget and slot parking (R395, R396) -/

/-- A write of PWR_BUDGET by master `m`: below the committed power it is refused. -/
def State.budgetCtrl (s : State) (m v : Nat) : Bool × State :=
  if bits v 0 12 < s.committed then (false, s.budgetRefused) else (true, s.setFields m PWR_BUDGET_BUDGET.addr v)

/-- PWR_BUDGET_WRITE (R395). -/
def execPwrBudgetWrite (m v : Nat) (s : State) : Out1 :=
  .next (s.writeCmd m PWR_BUDGET_BUDGET.addr v (fun s => s.budgetCtrl m v))

/-- Whether a context of slot `k` is RUNNING or STOPPING. -/
def State.slotBusy (s : State) (k : Nat) : Bool := s.ctxs.any (fun e => e.2.slot == k && decide (2 ≤ e.2.st))

/-- A write of PWR_SLOT_PARK: a bit is not set while a context of its slot runs; the tiles of a slot whose bit is cleared wake. -/
def State.slotPark (s : State) (v : Nat) : Bool × State :=
  let old := s.rd PWR_SLOT_PARK_PARK
  if (List.range 8).any (fun k => bit v k && !bit old k && s.slotBusy k) then (false, s)
  else
    let s := ((List.range 8).filter (fun k => bit old k && !bit v k)).foldl State.unparkSlot s
    (true, s.wr PWR_SLOT_PARK_PARK v)

/-- PWR_SLOT_PARK (R396). -/
def execPwrSlotPark (m v : Nat) (s : State) : Out1 := .next (s.writeCmd m PWR_SLOT_PARK_PARK.addr v (fun s => s.slotPark v))

/-! ## Park and self-test of a tile (R401, Table 17-8) -/

/-- Bytes saved of a held tile (Table 17-6). -/
def saveBytes : Nat := 1658880

/-- The copies in the save area: the next of its 40 places. -/
def State.savePlace (s : State) : Nat :=
  0x03F8000000 + ((s.pwr.testing ++ s.pwr.queue.map (·.1)).filter (fun u => decide (u < 104))).length % 40 * saveBytes

/-- The registers of tile `t`, 4096 bytes from its register window on. -/
def State.tileRegBytes (s : State) (t : Nat) : List Byte :=
  let base := 0x09001F0000 + 0x200000 * t
  (List.range 1024).flatMap (fun i => leBytes 4 (match regAt (base + 4 * i) with
    | some r => s.regValue s.heaCore r (base + 4 * i)
    | none => 0))

/-- Steps 2 and 3: the state of a held tile copied to the save area; false on an uncorrectable error. -/
def State.saveHeld (s : State) (t : Nat) : Bool × State :=
  let m := s.heaCore
  let a := s.read (.sram t) 0 0x180000 m
  let b := a.2.read (.gsram t) 0 0x10000 m
  let c := b.2.read (.prog t) 0 0x4000 m
  match a.1, b.1, c.1 with
  | some x, some y, some z => c.2.write .hbm s.savePlace (x ++ y ++ z ++ s.tileRegBytes t) m
  | _, _, _ => (false, c.2)

/-- A unit recorded with a state, unless it is unusable; the health map is due. -/
def State.recordUnit (s : State) (u st : Nat) : State :=
  if s.unusable u then s
  else { s with health := { s.health with units := setAt s.health.units u (st, 0), mapDue := true } }

/-- Whether a park of tile `t` is due (R396): held by no slot, or by one whose PARK bit is set; between frames. -/
def State.parkDue (s : State) (t : Nat) : Bool :=
  let x := s.tile t
  s.pwr.joined.contains t && s.power == 0 && (x.st == .idle || x.st == .waitFrame) && x.ctl.frame.isNone &&
  !s.unusable t && (match s.tileSlot t with
    | none => true
    | some k => bit (s.rd PWR_SLOT_PARK_PARK) k)

/-- Steps 1 to 3 of Table 17-8 for tile `t`: a held tile's state is saved, and its test is due, or skipped. -/
def State.parkTest (s : State) (t : Nat) : State :=
  if (s.tileSlot t).isNone then (s.parkTile t).queueTest t
  else
    let r := s.saveHeld t
    if r.1 then (r.2.parkTile t).queueTest t
    else
      let s := (r.2.recordUnit t 1).raise EV_BIST_SKIPPED (srcBlock 18) 0 0 0
      (s.parkTile t).setDomain t false

/-- TILE_PARK (R401): steps 1 to 3; a tile that is due for it (11 R270) becomes unusable instead of being tested. -/
def execTilePark (t : Nat) (s : State) : Out1 :=
  .next (if t < 104 ∧ s.parkDue t then
      if s.health.exhausted.contains t then
        let s := { s with health := { s.health with exhausted := s.health.exhausted.filter (fun u => u != t) } }
        ((s.markUnusable t 4).parkTile t).setDomain t false
      else s.parkTest t
    else s)

/-! ## Tests (R399, R402) -/

/-- What a unit under test counts, in units of 0.05 W: a tile 2.25 W, a facing engine 7.5 W, a decoder 1.9 W; the spec gives the rest
no figure. -/
def testPower (u : Nat) : Nat := if u < 104 then 45 else if u < 107 then 150 else if u < 123 then 38 else 0

/-- The committed power with the tests in progress. -/
def State.testedPower (s : State) : Nat := s.committed + listSum (s.pwr.testing.map testPower)

/-- Units that begin their test. -/
def State.startTests (s : State) (l : List Nat) : State :=
  { s with pwr := { s.pwr with testing := s.pwr.testing ++ l, queue := s.pwr.queue.filter (fun e => !l.contains e.1) } }

/-- The first units of a list that fit in the budget, `n` at most. -/
def State.fitTests (s : State) (n : Nat) (l : List Nat) : List Nat :=
  let room := s.rd PWR_BUDGET_BUDGET - s.testedPower
  if s.rd PWR_BUDGET_BUDGET < s.testedPower then [] else l.take (min n (if testPower (l.headD 127) = 0 then n
    else room / testPower (l.headD 127)))

/-- BIST_GROUP_START (R402): the waiting tiles in physical order, at most 8 under test, then each other unit that fits. No test of a
tile starts in Retain, and none in a trip. -/
def execBistGroupStart (s : State) : Out1 :=
  let tiles := (List.range 104).filter (fun t => s.pwr.queue.any (fun e => e.1 == t))
  let active := (s.pwr.testing.filter (fun u => decide (u < 104))).length
  .next (if s.power = 3 ∨ s.power = 6 then s
    else
      let s := if s.power = 2 then s else s.startTests (s.fitTests (8 - active) tiles)
      ((s.pwr.queue.map (·.1)).filter (fun u => decide (104 ≤ u))).foldl (fun (s : State) u => s.startTests (s.fitTests 1 [u])) s)

/-- Device shutdown, steps 3 to 5 (R404), once no test is left. -/
def State.shutdownEnd (s : State) : State :=
  if s.power = 5 ∧ s.pwr.testing = [] ∧ s.pwr.queue = [] then
    let s := { s with health := { s.health with shutdownTime := s.now } }
    let s := s.writeRecords2 true true true
    let s := { s with pwr := { s.pwr with on := [] } }
    (s.wr PWR_STATUS_STATE 6).raise EV_PWR_OFF_READY (srcBlock 19) 0 0 0
  else s

/-- The units whose domain is off once their test has ended. -/
def State.testEnds (s : State) (u : Nat) : State :=
  let s := s.dropTest u
  (if u < 104 then s.setDomain u false else s).shutdownEnd

/-- ANALOG_CHECK_FAILED for unit `u` (Table 17-7); the number of the check is FREE (log entry 2). -/
def State.analogFailed (s : State) (u : Nat) : State :=
  let f := s.takeFree
  f.2.raise EV_ANALOG_CHECK_FAILED (srcBlock 18) (f.1 % 2 ^ 32) u 0

/-- What the test of HBM finds beside its CAUSE (11 R271): each bad lane is remapped and recorded once, and at device shutdown the
frames whose row the stack has repaired for good return to allocation. -/
def State.hbmTested (s : State) (r : TestResult) : State :=
  let s := r.lanes.foldl (fun (s : State) (l : Nat × Nat) =>
    let e : LedgerEnt := { memory := 5, inst := 0, bank := l.1, kind := 0, fail := l.2, spare := 0 }
    let s := s.analogFailed 124
    if s.health.ledger.contains e then s
    else
      let s := { s with health := { s.health with ledger := s.health.ledger ++ [e], inForce := s.health.inForce ++ [e]
                                                  ledgerDue := true } }
      s.raise EV_REPAIR_RECORDED s.heaCore 0 0 0) s
  if s.power = 5 ∧ s.health.frames.any r.rows.contains then
    { s with health := { s.health with frames := s.health.frames.filter (fun f => !r.rows.contains f), mapDue := true } }
  else s

/-- BIST_DONE (R401, R403): the test of unit `u` ends with a CAUSE of Table 17-9, 0 where it passed. A tile's repairs are applied
(Table 17-8). -/
def execBistDone (u : Nat) (r : TestResult) (s : State) : Out1 :=
  .next (if s.pwr.testing.contains u ∧ s.power ≠ 3 then
      let s := if u < 104 then s.applyRepairs (fun e => decide (e.memory ≤ 2) && e.inst == u)
        else if u = 124 then s.hbmTested r else s
      let cause := r.cause
      let s := if cause = 0 then s.recordUnit u 0
        else
          let s := (s.inc BIST_FAILS_COUNT).markUnusable u cause
          let s := if 104 ≤ u ∧ u < 107 then s.faceFail (u - 104) else s
          let s := if 128 ≤ u then (s.spareTakes (u - 128)).loseCore (u - 128) else s
          if cause = 8 then s.analogFailed u else s
      let s := (List.range r.checks).foldl (fun (s : State) _ => s.analogFailed u) s
      (s.raise EV_BIST_DONE (srcBlock 18) 0 0 0).testEnds u
    else s)

/-- BIST_WAIT_TIMEOUT (R402): a test that has waited 10 s is given up, and the unit is UNTESTED. -/
def execBistWaitTimeout (u : Nat) (s : State) : Out1 :=
  .next (if s.pwr.queue.any (fun e => e.1 == u && decide (e.2 + 10000000000 ≤ s.base)) then (s.recordUnit u 1).testEnds u else s)

/-! ## Retain and Run (R397, Table 17-4) -/

/-- STATE changed, with PWR_STATE_CHANGE. -/
def State.powerState (s : State) (v : Nat) : State := (s.wr PWR_STATUS_STATE v).raise EV_PWR_STATE_CHANGE (srcBlock 19) 0 0 0

/-- Tile, facing-engine and decoder domains switched off with retention; a decoder is then due for its test (Table 17-6). -/
def State.arrayOff (s : State) : State :=
  let s := (List.range 104).foldl (fun (s : State) t => (s.parkTile t).setDomain t false) s
  let s := [104, 105, 106].foldl (fun (s : State) d => s.setDomain d false) s
  ((List.range 16).map (· + 107)).foldl State.powerDown s

/-- The tiles whose test waits or was suspended, on again for it (R401). -/
def State.testsOn (s : State) : State :=
  ((List.range 104).filter s.inTest).foldl (fun (s : State) t => s.setDomain t true) s

/-- Step 5: HBM, commons, role-holding engines, the decoders of enabled contexts and the tiles of unparked slots wake, and every
compressed context that runs waits for an IRAP picture. -/
def State.wakeAll (s : State) : State :=
  let s := if s.rd SYS_FUNC_READY_COMMONS = 1 then s.setDomain 123 true else s
  let s := if s.rd SYS_FUNC_READY_HBM_ANY = 1 then s.setDomain 124 true else s
  let s := if s.rd SYS_FUNC_READY_FACING = 1 then
      (s.setDomain (104 + s.rd LOAD_FE_ROLE_INPUT) true).setDomain (104 + s.rd LOAD_FE_ROLE_OUTPUT) true
    else s
  let s := (((List.range 16).filter (fun d => s.decodersUsed.contains d && !s.unusable (107 + d))).map (· + 107)).foldl
    (fun (s : State) d => (s.dropTest d).setDomain d true) s
  let s := ((List.range 8).filter (fun k => !bit (s.rd PWR_SLOT_PARK_PARK) k)).foldl (fun (s : State) k =>
    (s.heldBy k).foldl State.wakeTile s) s
  let s := s.testsOn
  { s with ctxs := s.ctxs.map (fun e =>
      if s.compressed e.1 ∧ e.2.ing.st ≠ 0 then (e.1, { e.2 with ing := { e.2.ing with st := 1 } }) else e) }

/-- RETAIN written (step 1). -/
def State.retain (s : State) : Bool × State := if s.power = 0 then (true, s.wr PWR_STATUS_STATE 1) else (false, s)

/-- RETAIN_ENTER: steps 2 and 3, with no frame in flight. -/
def execRetainEnter (s : State) : Out1 :=
  .next (if s.power = 1 ∧ s.adm.flights = [] then
      let s := (s.resetRegs 0 (fun _ => true)).arrayOff
      ((s.setDomain 123 false).setDomain 124 false).powerState 2
    else s)

/-! ## The independent trip (R398, Table 17-5) -/

/-- The routes of a slot as at commit (05 R129): credits at their first values, nothing on the way. -/
def State.freshSlot (s : State) (k : Nat) : State :=
  let steer := fun (imp sw i : Nat) => ((s.fab.steers.find? (fun u => u.slot == k && u.imp == imp && u.sw == sw && u.k == i)).map
    (·.block)).getD 0
  let recv := fun (imp : Nat) (v : Recv) =>
    let v := { v with coming := 0, lane := [], seen := 0, marks := [], late := 0 }
    match v.dst with
    | .port t p f => { v with credits := if f = 0 then (s.portCfg t p).cap else 0 }
    | .steer sw i _ => { v with credits := steer imp sw i }
    | .feOut _ _ => { v with credits := 64 }
    | .spill _ _ => { v with credits := 64 }
  { s with fab := { s.fab with
    routes := s.fab.routes.map (fun (r : Route) => if r.slot = k then
      { r with recvs := r.recvs.map (recv r.imp), tag := 0, todo := [], lagged := false } else r)
    ctl := s.fab.ctl.map (fun (r : CtlRoute) => if r.slot = k then { r with a := [], x := [] } else r)
    steers := s.fab.steers.map (fun (u : Steerer) => if u.slot = k then
      { u with sel := none, frame := none, fidx := 0, aborted := false, pend := [], done := 0, past := [], abortNext := false }
      else u) } }

/-- A held tile back in WAIT_FRAME: galleys emptied, AVAIL of its loop input ports 1, tag counters 0. -/
def State.freshTile (s : State) (t : Nat) : State :=
  (s.dropWaits (.tile t)).modTile t (fun x => { x with
    st := .waitFrame, back := .waitFrame
    core := { x.core with waiting := none, loops := [], loopDue := false }
    ports := { loop := (List.range 12).map (fun p =>
      let l := x.ports.loop.getD p {}
      { l with avail := if l.on ∧ p < 8 then 1 else l.avail, owed := 0, fired := false, resets := [] }) }
    ctl := {}, jobs := [] })

/-- The tiles of a forme with several impressions back in impression 0, between rounds: what each holds is saved first. -/
def State.freshWave (s : State) (k : Nat) : State :=
  let ts := (s.slot k).tiles
  let s := ts.foldl (fun (s : State) t => s.saveTile k t) s
  let s := s.modImp k (fun x => { x with
    round := [], waiting := [], passed := []
    store := x.store.map (fun y => { y with loop := (List.range 12).map (fun p =>
      let l := y.loop.getD p {}
      { l with avail := if l.on ∧ p < 8 then 1 else l.avail }) }) })
  let s := (ts.filter (fun t => (s.tile t).imp != 0)).foldl (fun (s : State) t => s.giveTile k t 0) s
  let x := (s.slot k).imp
  let sws := (ts ++ x.words.map (fun (w : Nat × Nat × Nat) => w.2.1 / 256)).eraseDups
  let s := s.swapWords k (fun _ => true) (sws.flatMap (x.wordsAt 0))
  let s := ts.foldl (fun (s : State) t => s.modTile t (fun y => { y with wave := 0 })) s
  (s.modImp k (fun i => { i with drained := [], due := [], outer := 0, lost := false })).impPhase k

/-- A resident slot after a trip (step 3). -/
def State.freshResident (s : State) (k : Nat) : State :=
  let s := (s.slot k).tiles.foldl State.freshTile s
  let s := if (s.slot k).multi then s.freshWave k else s
  let s := (s.slot k).tiles.foldl (fun (s : State) t =>
    if (s.slot k).carries (s.tile t).imp t then s.modTile t (fun x => { x with st := .waitFrame, back := .waitFrame })
    else s.modTile t (fun x => { x with st := .idle, back := .idle })) s
  (s.freshSlot k).modSlot k (fun x => { x with tagReset := true })

/-- The error record of a frame that the trip lost, with an earlier cause that was recorded against it (13 R313), and its context's
areas at their initial values. -/
def State.lostFrame (s : State) (f : Flight) : State :=
  (s.errorRecord { f with cause := if f.cause = 0 then EV_PWR_TRIP else f.cause }).resetMulti f.slot f.fidx

/-- The return from a trip: the domains wake, the resident slots start afresh, the lost frames are answered; END_OF_STREAM of a
stopping context is sent again if it was under way. -/
def State.tripReturn (s : State) : State :=
  let s := s.wakeAll
  let s := ((List.range 8).filter (fun k => decide (2 ≤ (s.slot k).st))).foldl State.freshResident s
  let s := { s with face := { done := s.face.done } }
  let s := s.pwr.lost.foldl State.lostFrame s
  let s := { s with
    pwr := { s.pwr with lost := [], coolSince := none }
    ctxs := s.ctxs.map (fun e => if e.2.eosDone then e else (e.1, { e.2 with eosSent := false })) }
  let parked := ((List.range 8).filter (fun k => bit (s.rd PWR_SLOT_PARK_PARK) k)).flatMap s.heldBy
  (parked.foldl State.parkTile s).powerState 0

/-- Whether a trip condition holds. -/
def State.tripHolds (s : State) : Bool := s.rd PWR_STATUS_TRIP_TEMP == 1 || s.rd PWR_STATUS_TRIP_CURRENT == 1

/-- RUN written: from Retain, or from a trip whose conditions no longer hold. -/
def State.run (s : State) : Bool × State :=
  if s.power = 2 then (true, s.wakeAll.powerState 0)
  else if s.power = 3 ∧ !s.tripHolds then (true, s.tripReturn)
  else (false, s)

/-- Step 1: admission stops, the array and HBM go down, every frame in flight is lost, and tests are suspended. -/
def State.trip (s : State) : State :=
  let lost := s.adm.flights
  let s := (lost.filter (fun f => !f.sent && (s.ctx f.ctx).bufs.getD f.buf .free == .inUse)).foldl (fun (s : State) f =>
    s.freeBuf f.ctx f.buf) s
  let s := { s with adm := { s.adm with flights := [] }, pwr := { s.pwr with lost := s.pwr.lost ++ lost, coolSince := none } }
  let s := (s.arrayOff.setDomain 124 false).wr PWR_STATUS_STATE 3
  s.raise EV_PWR_TRIP (srcBlock 19) (s.rd PWR_STATUS_TRIP_TEMP + 2 * s.rd PWR_STATUS_TRIP_CURRENT) 0 0

/-- The hottest temperature seen by the trip. -/
def State.tripTemp (s : State) (tj : Int) : State :=
  (s.setTj tj).wr PWR_STATUS_TRIP_TEMP (b2n (decide (((s.rd PWR_TRIP_TEMP_C : Nat) : Int) ≤ tj)))

/-- PWR_TRIP (R398). -/
def execPwrTrip (tj : Int) (s : State) : Out1 :=
  let s := s.tripTemp tj
  .next (if s.tripHolds ∧ s.power ≠ 3 ∧ s.power ≠ 6 then s.trip else s)

/-- TRIP_AUTO_RETURN (R398): AUTO, every condition clear and every temperature 15 °C below the limit, all for 1 s. -/
def execTripAutoReturn (tj : Int) (s : State) : Out1 :=
  let s := s.tripTemp tj
  .next (if s.power ≠ 3 then s
    else if s.tripHolds ∨ ((s.rd PWR_TRIP_TEMP_C : Nat) : Int) - 15 ≤ tj then { s with pwr := { s.pwr with coolSince := none } }
    else
      match s.pwr.coolSince with
      | none => { s with pwr := { s.pwr with coolSince := some s.base } }
      | some t => if s.rd PWR_TRIP_AUTO = 1 ∧ t + 1000000000 ≤ s.base then s.tripReturn else s)

/-- A LINEAR11 word as mantissa and exponent, both in two's complement. -/
def linear11 (w : Nat) : Int × Int :=
  let y := bits w 0 11
  let n := bits w 11 5
  ((if y < 1024 then (y : Int) else (y : Int) - 2048), (if n < 16 then (n : Int) else (n : Int) - 32))

/-- PWR_IOUT.IOUT of a LINEAR11 word, in units of 0.01 A. -/
def ioutOf (w : Nat) : Nat :=
  let x := linear11 w
  let num : Int := x.1 * 100 * (2 ^ x.2.toNat : Nat)
  let den : Int := ((2 ^ (-x.2).toNat : Nat) : Int)
  if num % den = 0 ∧ 0 ≤ num ∧ num / den < 65536 then (num / den).toNat else Config.ioutShown w % 65536

/-- Whether a LINEAR11 current is at least a limit in A. -/
def overLimit (w limit : Nat) : Bool :=
  let x := linear11 w
  decide (((limit * 2 ^ (-x.2).toNat : Nat) : Int) ≤ x.1 * (2 ^ x.2.toNat : Nat))

/-- PMBUS_POLL (18 R420): the poll's counts and the current condition. -/
def execPmbusPoll (r : PmReply) (s : State) : Out1 :=
  let polls := fun (s : State) (n : Nat) => { s with pwr := { s.pwr with overPolls := n } }
  let x : Bool × State := match r with
    | .none => (false, polls (s.wr PWR_IOUT_FAILS (min 10 (s.rd PWR_IOUT_FAILS + 1))) 0)
    | .iout w =>
      let n := if overLimit w (s.rd PWR_TRIP_I_LIMIT_A) then s.pwr.overPolls + 1 else 0
      (decide (2 ≤ n), polls ((s.wr PWR_IOUT_FAILS 0).wr PWR_IOUT_IOUT (ioutOf w)) (min 2 n))
    | .status iout temp => (iout || temp, polls (s.wr PWR_IOUT_FAILS 0) 0)
  let cond := x.1 || x.2.rd PWR_IOUT_FAILS == 10
  let s := x.2.wr PWR_STATUS_TRIP_CURRENT (b2n cond)
  .next (if cond then { s with pwr := { s.pwr with coolSince := none } } else s)

/-! ## Device shutdown (R404) and PWR_CTRL -/

/-- The units of Table 17-6 that are tested at device shutdown. -/
def shutdownUnits : List Nat := (List.range 133).filter (fun u => u != 127)

/-- SHUTDOWN written: the keys are cleared (R400), the tiles are parked, and every usable unit is due for its test. -/
def State.shutdown (s : State) : Bool × State :=
  if s.ctxs.any (fun e => decide (2 ≤ e.2.st)) ∨ s.rd FW_UPDATE_CTRL_BUSY = 1 ∨ s.power = 5 ∨ s.power = 6 then (false, s)
  else
    let s := { s with fw := { s.fw with attKey := false } }.wr PWR_STATUS_STATE 5
    let s := s.putWords8 SEC_IDKEY_KEY (zeros 32)
    let s := (List.range 104).foldl (fun (s : State) t => if s.domainOn t && !s.inTest t then s.parkTest t else s.parkTile t) s
    (true, (shutdownUnits.foldl State.queueTest s).shutdownEnd)

/-- A write of PWR_CTRL: one bit per write. -/
def State.pwrCtrl (s : State) (v : Nat) : Bool × State :=
  match v with
  | 0 => (true, s)
  | 2 => s.retain
  | 4 => s.run
  | 8 => s.shutdown
  | _ => (false, s)

/-- PWR_CTRL written by master `m`. -/
def State.pwrCommand (s : State) (m v : Nat) : State := s.writeCmd m PWR_CTRL_RETAIN.addr v (fun s => s.pwrCtrl v)

/-- PWR_RETAIN (R397). -/
def execPwrRetain (m : Nat) (s : State) : Out1 := .next (s.pwrCommand m 2)

/-- PWR_RUN (R397, R398). -/
def execPwrRun (m : Nat) (s : State) : Out1 := .next (s.pwrCommand m 4)

/-- PWR_SHUTDOWN (R404). -/
def execPwrShutdown (m : Nat) (s : State) : Out1 := .next (s.pwrCommand m 8)

end Sys2Proof.Machine
end

