-- ==== Sys2Proof/Machine/Stream.lean ====
section
/-! DEFINITION. General stream engines and merge channels: descriptors, their lists and the commands (12 R272, R273, R276, R277, R280,
R281). Engines 32 to 35 are the merge channels. -/
namespace Sys2Proof.Machine

/-! ## Descriptors (R272, R273) -/

/-- A descriptor as its fields; `src`, `dst` and `len` are those of a LINEAR one. -/
structure Desc where
  valid : Bool
  last : Bool
  signal : Bool
  waitq : Bool
  dir : Nat
  dims : Nat
  fmt : Nat
  event : Bool
  tag : Nat
  qidx : Nat
  addr : Nat
  len0 : Nat
  cnt : List Nat
  str : List Int
  dst : Nat
  len : Nat
  raw : List Byte
deriving DecidableEq, Repr

/-- The descriptor that 32 bytes spell. -/
def descOf (bs : List Byte) : Desc :=
  let w := fieldAt bs 0 4
  { valid := bit w 31, last := bit w 30, signal := bit w 29, waitq := bit w 28, dir := bits w 27 1, dims := bits w 24 3
    fmt := bits w 22 2, event := bit w 21, tag := bits w 17 4, qidx := bits w 0 17
    addr := fieldAt bs 4 5
    len0 := fieldAt bs 9 3 + 1
    cnt := (List.range 4).map (fun d => fieldAt bs (12 + 2 * d) 2 + 1)
    str := (List.range 4).map (fun d => signed 24 (fieldAt bs (20 + 3 * d) 3))
    dst := fieldAt bs 12 5
    len := fieldAt bs 20 4
    raw := bs }

/-- T of a STRIDED descriptor. -/
def Desc.total (d : Desc) : Nat := d.len0 * d.cnt.foldl (· * ·) 1

/-- Whether `n` bytes from an address lie in HBM or commons. -/
def inStore (a : Int) (n : Nat) : Bool :=
  (decide (0 ≤ a) && decide (a + n ≤ 0x0400000000)) || (decide (0x0800000000 ≤ a) && decide (a + n ≤ 0x0802000000))

/-- Every index list of the counts. -/
def allIdx : List Nat → List (List Nat)
  | [] => [[]]
  | n :: ns => (List.range n).flatMap (fun i => (allIdx ns).map (fun l => i :: l))

/-- Whether every run of a STRIDED descriptor lies in HBM and commons: by its lowest and highest run where both lie in one of
them, otherwise run by run. -/
def Desc.inside (d : Desc) : Bool :=
  let ends := (d.cnt.zip d.str).map (fun (p : Nat × Int) => ((p.1 : Int) - 1) * p.2)
  let lo := ends.foldl (fun (a x : Int) => a + min 0 x) (d.addr : Int)
  let hi := ends.foldl (fun (a x : Int) => a + max 0 x) (d.addr : Int)
  (inStore lo d.len0 && inStore hi d.len0 && decide (lo < 0x0800000000 ↔ hi < 0x0800000000)) ||
  (allIdx d.cnt).all (fun i => inStore ((d.addr : Int) + dotInt i d.str) d.len0)

/-- The format of a LINK: all fields but VALID, FORMAT and the address are 0, the address aligned (R272). -/
def Desc.linkOk (d : Desc) : Bool :=
  fieldAt d.raw 0 4 == 2 ^ 31 + 2 ^ 23 && d.addr % 256 == 0 && (d.raw.drop 9).all (fun b => b == 0)

/-- The format of a STRIDED descriptor; `vec` says that its endpoint carries vector tokens (R273). -/
def Desc.stridedOk (d : Desc) (vec : Bool) : Bool :=
  decide (d.dims ≤ 4) &&
  (List.range 4).all (fun i => decide (i < d.dims) || (d.cnt.getD i 1 == 1 && d.str.getD i 0 == 0)) &&
  d.addr % 4 == 0 && d.len0 % 4 == 0 && d.str.all (fun x => x % 4 == 0) && decide (d.total ≤ 16777216) &&
  !(vec && d.total % 64 != 0) && d.inside

/-- The format of a LINEAR descriptor (Table 12-3). -/
def Desc.linearOk (d : Desc) : Bool :=
  d.dims == 0 && decide (4 ≤ d.len) && decide (d.len ≤ 16777216) && d.len % 4 == 0 &&
  (slice d.raw 9 3).all (fun b => b == 0) && (slice d.raw 17 3).all (fun b => b == 0) && (d.raw.drop 24).all (fun b => b == 0) &&
  (d.dir == 0 || decide (d.dst < 2 ^ 20))

/-! ## Fetching descriptors -/

/-- The batch of eight descriptors at `a` (R272): in HBM or commons. -/
def State.fetchBatch (s : State) (e a : Nat) : Except Halt (List (List Byte)) × State :=
  if !inStore a 256 then (.error (.error 2 a), s)
  else
    let r := s.engRead e a 256
    (r.1.map (fun bs => chunks 32 8 bs), r.2)

/-! ## Going through the list -/

/-- Who waits on a quoin for engine `e`. -/
def engWaiter (e : Nat) : Waiter := if e < 32 then .eng e else .merge (e - 32)

/-- The address of the current descriptor. -/
def Eng.descAddr (x : Eng) : Nat := x.batchAddr + 32 * x.bi

/-- The current descriptor, once its batch is fetched. -/
def Eng.desc (x : Eng) : Option Desc := (x.batch[x.bi]?).map descOf

/-- The engine's place at the start of a descriptor. -/
def Eng.rewind (x : Eng) : Eng := { x with i0 := 0, idx := [0, 0, 0, 0], done := 0, waitq := false, passed := false, hold := [] }

/-- Whether the descriptor's format is one that engine `e` accepts. -/
def State.descOk (s : State) (e : Nat) (d : Desc) : Bool :=
  if d.fmt = 2 then d.linkOk
  else if e < 32 then
    let route := s.rd (STREAM_ENG_EP_KIND.idx e) == 1
    let vec := route && !(s.fab.routes.any (fun r => r.src == .eng e && r.scalar))
    d.fmt == 0 && d.stridedOk vec
  else d.fmt == 1 && d.linearOk

/-- The address of quoin `i`. -/
def quoinWord (i : Nat) : Nat := 0x0A10000000 + 16 * i

/-- The engine comes to its current descriptor: STARVED where VALID is 0, and WAITING while a WAITQ has not succeeded; a WAIT that the
quoin array's access table denies stops it in ERROR (R279, 11 R254). -/
def State.beginDesc (s : State) (e : Nat) : State :=
  match (s.engine e).desc with
  | none => s.modEng e (fun x => { x with st := 1 })
  | some d =>
    if !d.valid then s.modEng e (fun x => { x with st := 3 })
    else if d.waitq ∧ s.descOk e d then
      let g := s.accessCheck (0x10 + e) (quoinWord d.qidx) 4 rightW
      if !g.1 then g.2.engError e (.error 2 (quoinWord d.qidx))
      else
        let r := g.2.qwait d.qidx 1 (engWaiter e)
        r.2.modEng e (fun x => { x with st := if r.1 then 1 else 2 })
    else s.modEng e (fun x => { x with st := 1 })

/-- The batch at `a` fetched if it can be; otherwise the failure is met when the descriptor is due. -/
def State.loadBatch (s : State) (e a bi : Nat) : State :=
  match s.fetchBatch e a with
  | (.ok b, s') => s'.modEng e (fun x => { x.rewind with batchAddr := a, batch := b, bi := bi })
  | (.error _, _) => s.modEng e (fun x => { x.rewind with batchAddr := a, batch := [], bi := bi })

/-- The engine goes on to the descriptor after its current one. -/
def State.nextDesc (s : State) (e : Nat) : State :=
  let x := s.engine e
  if x.bi < 7 ∧ x.batch ≠ [] then (s.modEng e (fun x => { x.rewind with bi := x.bi + 1 })).beginDesc e
  else if x.bi < 7 then s.modEng e (fun x => { x.rewind with bi := x.bi + 1, st := 1 })
  else (s.loadBatch e (x.batchAddr + 256) 0).beginDesc e

/-- STATUS.DONE of engine `e`. -/
def engDone (e : Nat) : Fld := STREAM_ENG_STATUS_DONE.idx e

/-- After a descriptor: IDLE where LAST is set, else the next one. -/
def State.afterDesc (s : State) (e : Nat) (last : Bool) : State :=
  if last then (s.modEng e (fun x => { x with st := 0, passed := false })).wr (engDone e) 1 else s.nextDesc e

/-- The SIGNAL of a descriptor; false where the quoin array's access table denies it (11 R254). -/
def State.descSignal (s : State) (e : Nat) (d : Desc) : Bool × State :=
  if d.signal then
    let g := s.accessCheck (0x10 + e) (quoinWord d.qidx + 4) 4 rightW
    (g.1, if g.1 then g.2.qsignal (0x10 + e) d.qidx 1 else g.2)
  else (true, s)

/-- The steps of R276 once every byte has been delivered; a SIGNAL that is denied stops the engine in ERROR (R279). -/
def State.completeDesc (s : State) (e : Nat) (d : Desc) : State :=
  if d.fmt = 2 then (s.loadBatch e d.addr 0).beginDesc e
  else
    let a := (s.engine e).descAddr
    let g := s.descSignal e d
    if !g.1 then g.2.engError e (.error 2 (quoinWord d.qidx + 4))
    else
      let s := if d.event then g.2.raise EV_STREAM_DESC_DONE (0x10 + e) (if e < 32 then e else e - 32) d.tag a else g.2
      s.afterDesc e d.last

/-! ## Commands (R280) -/

/-- Who may write the registers of engine `e`: a held one's are the admission core's; a merge channel's those of its users (R281). -/
def State.engUser (s : State) (e m : Nat) : Bool :=
  if e < 32 then (s.engine e).held.isNone || m == s.admCore
  else if s.rd (STREAM_MRG_CFG_USER.idx (e - 32)) = 0 then decide (0x60 ≤ m ∧ m ≤ 0x64) else decide (0x40 ≤ m ∧ m ≤ 0x4F)

/-- The enabled drains of result galley `g` (15 R353): 0 and 1 the network ports, 2 the stream port, 3 USB, 16 + e an engine that
works on a descriptor with DIR 1 from it. -/
def State.drainsOf (s : State) (g : Nat) : List Nat :=
  let c := 1 + g
  (if s.rdc c (NET_RES_CFG_EN.net 0) = 1 then [0] else []) ++ (if s.rdc c (NET_RES_CFG_EN.net 1) = 1 then [1] else []) ++
  (if s.rdc c SPORT_RES_CFG_EN = 1 then [2] else []) ++ (if s.rdc c CTX_RES_CFG_USB = 1 then [3] else []) ++
  ((List.range 32).filter (fun e => (s.engine e).st != 0 && s.rd (STREAM_ENG_EP_KIND.idx e) == 2 &&
    s.rd (STREAM_ENG_EP_GKIND.idx e) == 1 && s.rd (STREAM_ENG_EP_GALLEY.idx e) == g &&
    (s.engine e).desc.any (fun d => d.valid && d.dir == 1))).map (· + 16)

/-- Whether engine `e` is a second drain of its galley (15 R353). -/
def State.secondDrain (s : State) (e : Nat) : Bool :=
  let l := s.drainsOf (s.rd (STREAM_ENG_EP_GALLEY.idx e))
  decide (e < 32) && l.contains (e + 16) && decide (1 < l.length)

/-- START: the list loaded, position and count cleared. -/
def State.engStart (s : State) (e : Nat) : State :=
  let a := s.rd (STREAM_ENG_LIST_LO_ADDR.idx e) * 256 + s.rd (STREAM_ENG_LIST_HI_ADDR.idx e) * 2 ^ 32
  ((s.modEng e (fun x => { x with err := 0 })).loadBatch e a 0).beginDesc e

/-- STOP: the position kept, a WAITQ that has not succeeded abandoned. -/
def State.engStop (s : State) (e : Nat) : State :=
  let x := s.engine e
  let s := match x.desc with
    | some d => if x.st = 2 then s.settle d.qidx else s
    | none => s
  let waits := (s.engine e).st == 2 && !(s.engine e).passed
  (s.dropWaits (engWaiter e)).modEng e (fun x => { x with st := 5, waitq := waits, passed := false, hold := [] })

/-- RESUME: from the saved position, an abandoned WAITQ first. -/
def State.engResume (s : State) (e : Nat) : State :=
  let x := s.engine e
  if x.waitq then (s.modEng e (fun x => { x with waitq := false })).beginDesc e
  else
    match x.desc with
    | some d => s.modEng e (fun x => { x with st := if d.valid then 1 else 3 })
    | none => s.modEng e (fun x => { x with st := 1 })

/-- SKIP: the rest of the descriptor abandoned. -/
def State.engSkip (s : State) (e : Nat) : State :=
  let last := ((s.engine e).desc).any (fun d => d.last)
  let s := s.modEng e (fun x => { x with err := 0, waitq := false, hold := [] })
  if last then s.modEng e (fun x => { x with st := 0 }) else s.nextDesc e

/-- KICK: the batch fetched again (R277). -/
def State.engKick (s : State) (e : Nat) : State := (s.loadBatch e (s.engine e).batchAddr (s.engine e).bi).beginDesc e

/-- A write of STREAM_ENGn_CTRL or STREAM_MRGm_CTRL by master `m`: one command bit, in a state that accepts it (R280). -/
def State.engCtrl (s : State) (e m v : Nat) : Bool × State :=
  let st := (s.engine e).st
  if !s.engUser e m then (false, s)
  else
    match v with
    | 0 => (true, s)
    | 1 =>
      let s' := s.engStart e
      if st = 0 ∧ !s'.secondDrain e then (true, s') else (false, s)
    | 2 => if st = 3 then (true, s.engKick e) else (false, s)
    | 4 => if st = 4 ∨ st = 5 then (true, s.engResume e) else (false, s)
    | 8 => if st = 1 ∨ st = 2 ∨ st = 3 then (true, s.engStop e) else (false, s)
    | 16 => if st = 4 ∨ st = 5 ∨ st = 6 then (true, s.engSkip e) else (false, s)
    | _ => (false, s)

/-- A command written to engine `e`; there is no engine beyond the merge channels. -/
def State.engCmd (s : State) (m e v : Nat) : State :=
  if e < 36 then s.writeCmd m (STREAM_ENG_CTRL_START.idx e).addr v (fun s => s.engCtrl e m v) else s.answer .busError

/-- STREAM_START. -/
def execStreamStart (m e : Nat) (s : State) : Out1 := .next (s.engCmd m e 1)

/-- STREAM_KICK. -/
def execStreamKick (m e : Nat) (s : State) : Out1 := .next (s.engCmd m e 2)

/-- STREAM_RESUME. -/
def execStreamResume (m e : Nat) (s : State) : Out1 := .next (s.engCmd m e 4)

/-- STREAM_STOP. -/
def execStreamStop (m e : Nat) (s : State) : Out1 := .next (s.engCmd m e 8)

/-- STREAM_SKIP. -/
def execStreamSkip (m e : Nat) (s : State) : Out1 := .next (s.engCmd m e 16)

end Sys2Proof.Machine
end

