-- ==== Sys2Proof/Machine/RegWrite.lean ====
section
/-! DEFINITION. What a write of each register does, and what it is refused for beyond R9's general checks (00 R8, R9; the register
tables of every chapter). Registers not named here take the write of their fields and do nothing more. -/
namespace Sys2Proof.Machine

/-- The fields set where `b` holds, else the write refused. -/
def State.setIf (s : State) (b : Bool) (m a v : Nat) : Bool × State := if b then (true, s.setFields m a v) else (false, s)

/-! ## Tiles (02 R70, Tables 2-14 and 2-15) -/

/-- Whether a word of TILE_GCFG may be written to port `p` of tile `t`. -/
def State.gcfgOk (s : State) (t p v : Nat) : Bool :=
  let cap := bits v 16 6
  decide (bits v 8 6 + cap ≤ 64) && !(bit v 31 && (cap == 0 || (s.portCfg t p).ringTok == 0))

/-- Whether a word of TILE_GRING may be written to port `p` of tile `t`. -/
def State.gringOk (s : State) (t p v : Nat) : Bool :=
  let c := s.portCfg t p
  let n := bits v 16 15
  n % c.count == 0 && decide (bits v 0 15 * 64 + n * c.size ≤ 0x180000) && !(n == 0 && c.en)

/-- A tile register written: configuration needs IDLE or HALTED. -/
def State.tileReg (s : State) (m a v : Nat) : Bool × State :=
  let t := (a - 0x0900000000) / 0x200000
  let b := 0x0900000000 + (a - 0x0900000000) % 0x200000
  let st := (s.tile t).st
  let still := st == .idle || st == .halted
  if b = TILE_CTRL_HALT.addr then s.tileCtrl t v
  else
    match ix TILE_GCFG_EN 12 b with
    | some p => s.setIf (still && s.gcfgOk t p v) m a v
    | none =>
      match ix TILE_GRING_RING_BASE 12 b with
      | some p => s.setIf (still && s.gringOk t p v) m a v
      | none =>
        if b = TILE_CFG_ENTRY.addr then s.setIf (still && (bits v 0 2 != 1 || bit v 2)) m a v
        else s.setIf (still || decide (b < TILE_AG_BASE_BASE.addr)) m a v

/-! ## Stream engines and galleys (12 R274, R280, R281, R284, R287, R288, Tables 12-8 to 12-10) -/

/-- A register of engine `e` (32 to 35 the merge channels) at offset `o` of its block. -/
def State.engReg (s : State) (e o m a v : Nat) : Bool × State :=
  let idle := (s.engine e).st == 0
  if o = 0 then s.engCtrl e m v
  else if 0x1C ≤ o then (s.engUser e m, s)
  else if o = 0x10 ∧ 32 ≤ e then s.setIf (decide (0x60 ≤ m) && decide (m ≤ 0x64)) m a v
  else if o = 0x10 then
    let route := bits v 30 2 == 1
    let galley := !(bits v 30 2 == 2 && bits v 29 1 == 0) || decide (bits v 0 8 < 16)
    s.setIf (s.engUser e m && idle && galley && (!route || m == s.admCore)) m a v
  else s.setIf (s.engUser e m && (idle || o == 4)) m a v

/-- Whether ingress or result galley `n` may be enabled with the fields that its registers hold: no capacity, limit or watermark is
left unconfigured (00 R9). -/
def State.galleyReady (s : State) (kind n : Nat) (pkt : Bool) : Bool :=
  let c := s.cgalCfg kind n
  decide (2048 ≤ c.cap) && (!pkt || (decide (4 ≤ c.max) && decide (c.max ≤ c.cap))) && (kind == 2 || decide (c.lo < c.hi))

/-- STREAM_GCFG, GSIZE, GLIMIT or GWM of the galley that master `m` selects. -/
def State.galleyReg (s : State) (m a v : Nat) : Bool × State :=
  let c := 1 + m
  let kind := s.rdc c STREAM_GSEL_KIND
  let n := s.rdc c STREAM_GSEL_NUM
  let g := s.cgalCfg kind n
  if kind = 0 then (false, s)
  else if a = STREAM_GCFG_EN.addr then
    let enOnly := setBits v 30 1 0 == setBits (s.reg (1 + galKey kind 0 n) a) 30 1 0
    s.setIf ((!g.en || enOnly) && bits v 0 14 == 0 && packetType (bits v 24 6) && (!bit v 30 || s.galleyReady kind n (bit v 31))) m a v
  else if g.en then (false, s)
  else if a = STREAM_GLIMIT_MAX_BYTES.addr then
    let x := bits v 0 16
    s.setIf (decide (x ≤ g.cap) && !(g.pkt && x == 0)) m a v
  else if a = STREAM_GWM_LO.addr then
    let lo := bits v 0 10
    let hi := bits v 16 10
    s.setIf (if kind = 1 then decide (lo < hi) && decide (hi * 64 + 1024 ≤ g.cap) else v == 0) m a v
  else (true, s.setFields m a v)

/-- STREAM_GSTAT: MISMATCH is cleared by writing 1. -/
def State.galleyStat (s : State) (m v : Nat) : State :=
  let c := 1 + m
  let kind := s.rdc c STREAM_GSEL_KIND
  let n := s.rdc c STREAM_GSEL_NUM
  if !bit v 31 then s
  else if kind = 0 then s.modGal (s.rdc c STREAM_GSEL_TILE) n (fun g => { g with mismatch := false })
  else s.modCgal kind n (fun g => { g with mismatch := false })

/-- A register of the STREAM block. -/
def State.streamReg (s : State) (m a v : Nat) : Bool × State :=
  let o := a - 0x0A00080000
  if o < 0x900 then s.engReg (o / 0x40) (o % 0x40) m a v
  else if a = STREAM_GSEL_KIND.addr then
    s.setIf (decide (bits v 0 8 < (if bits v 30 2 = 0 then 12 else if bits v 30 2 = 1 then 16 else 256))) m a v
  else if a = STREAM_GSTAT_LEVEL.addr then (true, (s.galleyStat m v).setFields m a v)
  else if a = STREAM_GCMD_DROP.addr then s.galleyCmd m v
  else if STREAM_GCFG_EN.addr ≤ a ∧ a ≤ STREAM_GWM_LO.addr then s.galleyReg m a v
  else (true, s.setFields m a v)

/-! ## Network ports (13 Tables 13-5 to 13-8, 15 R353) -/

/-- RES_CFG of the galley that master `m` selects on port `p`: a tag needs a VLAN identifier in range, enabling needs ports and no other
drain; the count of datagrams starts at 0. -/
def State.netResCfg (s : State) (p m a v : Nat) : Bool × State :=
  let g := s.rdc (1 + m) (NET_RES_SEL_GALLEY.net p)
  let f := fun (x : Fld) => s.rdc (1 + g) (x.net p)
  let en := bit v 31
  let was := f NET_RES_CFG_EN == 1
  let ready := f NET_RES_PORTS_SRC != 0 && f NET_RES_PORTS_DST != 0 && (was || s.drainsOf g == [])
  if !vidOk (bits v 29 1) (bits v 0 12) || (en && !ready) then (false, s)
  else
    let s := if en && !was then s.modNet p (fun x => { x with seqs := tput (fun _ => 0) x.seqs g 0 }) else s
    (true, s.setFields m a v)

/-- A register of a NET block. -/
def State.netReg (s : State) (m a v : Nat) : Bool × State :=
  let p := netOf a
  let b := a - p * 0x10000
  if b = NET_CFG_MODE.addr then s.netCfg m p v
  else if b = NET_MAC_HI_MAC.addr then s.setIf (!bit v 8) m a v
  else if b = NET_PTP_RXQ_POP.addr then s.ptpPop p v
  else if b = NET_PTP_TX_CTRL_SEND.addr then s.ptpCtrl m p v
  else if b = NET_RES_CFG_EN.addr then s.netResCfg p m a v
  else if b = NET_RES_PORTS_DST.addr then
    let en := s.rdc (1 + s.rdc (1 + m) (NET_RES_SEL_GALLEY.net p)) (NET_RES_CFG_EN.net p) == 1
    s.setIf (!en || (bits v 0 16 != 0 && bits v 16 16 != 0)) m a v
  else if p = 0 ∧ NET_CTX_CFG_EN.addr ≤ a ∧ a ≤ NET_CTX_PIC_PIC_FMT.addr then s.ctxCfg m a v
  else (true, s.setFields m a v)

/-! ## Stream port and Burl fabric (14 Tables 14-7 to 14-17) -/

/-- SPORT_CFG: LANES stays while the port is enabled; enabling switches the domain on, disabling ends the alignment. -/
def State.sportCfg (s : State) (m v : Nat) : Bool × State :=
  let a := SPORT_CFG_EN.addr
  let was := s.rd SPORT_CFG_EN == 1
  if was && bits v 0 2 != s.rd SPORT_CFG_LANES then (false, s)
  else if bit v 31 && !was then
    let on := s.powerUp [127]
    if on.1 then (true, on.2.setFields m a v) else on
  else if was && !bit v 31 then (true, (s.sportStop.setFields m a v).sportOff)
  else (true, s.setFields m a v)

/-- SPORT_CH: an enabled channel names a queue in FROM_SPORT mode, or a galley in packet mode. -/
def State.sportCh (s : State) (m a v : Nat) : Bool × State :=
  s.setIf (!bit v 31 || (if bit v 30 then s.rdc (1 + bits v 8 3) BURL_QCFG_MODE == 1 else (s.cgalCfg 1 (bits v 0 4)).pkt)) m a v

/-- SPORT_RES_CFG of the galley that master `m` selects. -/
def State.sportRes (s : State) (m a v : Nat) : Bool × State :=
  let g := s.rdc (1 + m) SPORT_RES_SEL_GALLEY
  s.setIf (!bit v 31 || s.rdc (1 + g) SPORT_RES_CFG_EN == 1 || s.drainsOf g == []) m a v

/-- A register of the stream port. -/
def State.sportReg (s : State) (m a v : Nat) : Bool × State :=
  if a = SPORT_CFG_EN.addr then s.sportCfg m v
  else if (ix SPORT_CH_EN 16 a).isSome then s.sportCh m a v
  else if a = SPORT_RES_CFG_EN.addr then s.sportRes m a v
  else (true, s.setFields m a v)

/-- Whether watermarks suit a queue's mode (R322). -/
def qwmOk (mode lo hi : Nat) : Bool := decide (lo < hi) && (mode != 1 || decide (hi * 4 + 1024 ≤ 16384))

/-- BURL_QCFG or BURL_QWM of the queue that master `m` selects. -/
def State.queueReg (s : State) (m a v : Nat) : Bool × State :=
  let c := 1 + s.rdc (1 + m) BURL_QSEL_QUEUE
  let open' := s.burl.st == 0 || s.burl.st == 2 || s.rdc c BURL_QCFG_EN == 0
  if a = BURL_QCFG_EN.addr then
    let enOnly := bits v 0 31 == bits (s.reg c a) 0 31
    s.setIf ((open' || enOnly) && (!bit v 31 || qwmOk (bits v 28 3) (s.rdc c BURL_QWM_LO) (s.rdc c BURL_QWM_HI))) m a v
  else s.setIf (open' && qwmOk (s.rdc c BURL_QCFG_MODE) (bits v 0 12) (bits v 16 13)) m a v

/-- A register of the Burl fabric. -/
def State.burlReg (s : State) (m a v : Nat) : Bool × State :=
  if a = BURL_CTRL_LOAD.addr then s.burlCtrl m v
  else if a = BURL_CAPTURE_ARM.addr then s.burlCapture m v
  else if a = BURL_QCFG_EN.addr ∨ a = BURL_QWM_HI.addr then s.queueReg m a v
  else if a = BURL_SOFT_BITS.addr ∨ (ix BURL_IO_INV 32 a).isSome then (true, (s.setFields m a v).settleBurl)
  else (true, s.setFields m a v)

/-! ## Contexts (15 R349, R352, R353, Table 15-11) -/

/-- A register of the CTX block. -/
def State.ctxReg (s : State) (m a v : Nat) : Bool × State :=
  if a = CTX_CMD_BIND.addr then s.ctxCmd m v
  else if CTX_BIND0_RESULT.addr ≤ a ∧ a ≤ CTX_STEER_WORD.addr then
    s.setIf (decide ((s.ctx (s.rdc (1 + m) CTX_SEL_CTX)).st < 2)) m a v
  else if a = CTX_RES_CFG_POLICY.addr then
    let g := s.rdc (1 + m) CTX_RES_SEL_GALLEY
    let policy := bits v 0 2
    let named := s.ctxs.any (fun e => e.2.st != 0 && s.resultGalley e.1 == g)
    s.setIf (policy != 2 && !(policy == 3 && named) &&
      (!bit v 31 || s.rdc (1 + g) CTX_RES_CFG_USB == 1 || s.drainsOf g == [])) m a v
  else (true, s.setFields m a v)

/-! ## The other blocks -/

/-- GOV_PACE_FLOOR (10 R221): FLOOR is not lowered while a contract context is bound. -/
def State.paceFloor (s : State) (m v : Nat) : Bool × State :=
  let bound := s.ctxs.any (fun e => e.2.st != 0 && s.isContract e.1)
  s.setIf (!(bound && decide (bits v 0 10 < s.rd GOV_PACE_FLOOR_FLOOR))) m GOV_PACE_FLOOR_FLOOR.addr v

/-- A register of a block before STREAM. -/
def State.coreReg (s : State) (m a v : Nat) : Bool × State :=
  if a = SYS_RESET_GO.addr then s.sysReset m v
  else if a = GOV_PACE_FLOOR_FLOOR.addr then s.paceFloor m v
  else if a = TIME_STEP_NS.addr then s.timeStep v
  else if a = TIME_RATE_PPB.addr then s.setIf (decide ((signed 32 v).natAbs ≤ 500000)) m a v
  else if a = ECC_FLIP_CTRL_ARM.addr then s.flipCtrl v
  else if a = ECC_SCRUB_CTRL_START.addr then s.scrubCtrl v []
  else if a = REGION_ENTRY_P.addr then s.regionEntry m v
  else if a = REGION_SUB_P.addr then s.regionSub m v
  else if a = ACCESS_SEL_TARGET.addr then s.setIf (decide (bits v 16 8 < 25) || (decide (32 ≤ bits v 16 8) && decide (bits v 16 8 < 136))) m a v
  else if a = ACCESS_CMD_WRITE.addr then s.accessCmd m v
  else (true, s.setFields m a v)

/-- A register of a block after the Burl fabric, contexts apart. -/
def State.mgmtReg (s : State) (m a v : Nat) : Bool × State :=
  if a = MGMT_CFG_STATIC.addr then s.mgmtCfg m v
  else if MGMT_IP4_ADDR.addr ≤ a ∧ a ≤ MGMT_GW_ADDR.addr then s.mgmtAddr m a v
  else if a = FW_UPDATE_CTRL_START.addr then s.updateCtrl v
  else if a = FW_CTRL_COMMIT.addr then s.fwCtrl v none
  else if a = SEC_DEBUG_CTRL_UNLOCK.addr then s.debugCtrl v
  else if a = SEC_ATTEST_CTRL_ATTEST.addr then s.attestCtrl v
  else if a = PWR_BUDGET_BUDGET.addr then s.budgetCtrl m v
  else if a = PWR_CTRL_RETAIN.addr then s.pwrCtrl v
  else if a = PWR_BLOCK_RESET_DOMAIN.addr then s.blockResetCmd m v
  else if a = PWR_SLOT_PARK_PARK.addr then s.slotPark v
  else if a = PWR_PMBUS_ADDR.addr then s.setIf (decide (0x60 ≤ m) && decide (m ≤ 0x64)) m a v
  else if a = LOAD_CTRL_SLOT.addr then s.loadCtrl m v
  else if a = LOAD_IMP_CTRL_FAULT_SCAN.addr then s.setIf (!(bit v 3 && s.servesContract (bits v 0 3))) m a v
  else (true, s.setFields m a v)

/-- What an accepted write of register `a` does (by its block, Table 0-3); false where its own rule refuses it. -/
def State.regAct (s : State) (m a v : Nat) : Bool × State :=
  match blockOf a with
  | none => s.tileReg m a v
  | some 8 => s.streamReg m a v
  | some 9 => s.netReg m a v
  | some 10 => s.netReg m a v
  | some 12 => s.sportReg m a v
  | some 13 => s.burlReg m a v
  | some 20 => s.ctxReg m a v
  | some b => if b < 8 then s.coreReg m a v else s.mgmtReg m a v

/-! ## Accesses of any master -/

/-- A read of `n` bytes at `a` by master `m`: memory, one register or one word of a quoin. -/
def State.busRead (s : State) (m a n : Nat) : State :=
  let g := s.accessCheck m a n rightR
  if !g.1 then g.2.answer .busError
  else
    match place a n with
    | .mem i off =>
      let r := g.2.read i off n m
      r.2.answer (match r.1 with
        | some bs => .ok bs
        | none => .uncorr)
    | .reg =>
      let r := g.2.regRead m a
      r.2.answer (.ok (leBytes 4 r.1))
    | .quoin i off =>
      if off = 0 then
        let r := g.2.qtest i
        r.2.answer (.ok (leBytes 4 r.1))
      else if off = 8 then g.2.answer (.ok (leBytes 4 (g.2.quoins.waits.filter (fun w => w.1 == i)).length))
      else g.2.answer (.ok (zeros 4))
    | .none => g.2.answer .busError

/-- A write of bytes at `a` by master `m`; program memory needs a tile in IDLE or HALTED (02 R70). -/
def State.busWrite (s : State) (m a : Nat) (bs : List Byte) : State :=
  match place a bs.length with
  | .reg => s.writeCmd m a (leNat bs) (fun s => s.regAct m a (leNat bs))
  | .none => s.answer .busError
  | .mem i off =>
    let g := s.accessCheck m a bs.length rightW
    let still := match i with
      | .prog t => (s.tile t).st == .idle || (s.tile t).st == .halted
      | _ => true
    if !g.1 then g.2.answer .busError
    else if !still then g.2.refuse m a
    else
      let r := g.2.write i off bs m
      r.2.answer (if r.1 then .ok [] else .uncorr)
  | .quoin i off =>
    let g := s.accessCheck m a bs.length rightW
    if !g.1 then g.2.answer .busError
    else
      let v := leNat bs
      (if off = 0 then g.2.qreset i v else if off = 4 then g.2.qsignal m i v else g.2).answer (.ok [])

/-- REGISTER_WRITE (R8, R9). -/
def execRegisterWrite (m addr v : Nat) (s : State) : Out1 := .next (s.busWrite m addr (leBytes 4 v))

/-- RC_READ (R10): a register read, which clears its RC fields. -/
def execRcRead (m addr : Nat) (s : State) : Out1 := .next (s.busRead m addr 4)

/-! ## Quoins by a master (15 R346, R347) -/

/-- QUOIN_SIGNAL: a write of SIGNAL. -/
def execQuoinSignal (m i n : Nat) (s : State) : Out1 := .next (s.busWrite m (quoinWord i + 4) (leBytes 4 n))

/-- QUOIN_TEST: a read of COUNT. -/
def execQuoinTest (m i : Nat) (s : State) : Out1 := .next (s.busRead m (quoinWord i) 4)

/-- QUOIN_RESET: a write of COUNT. -/
def execQuoinReset (m i v : Nat) (s : State) : Out1 := .next (s.busWrite m (quoinWord i) (leBytes 4 v))

/-- QUOIN_WAIT_SUCCESS (R347): the oldest pending WAIT succeeds where the count covers it. -/
def execQuoinWaitSuccess (i : Nat) (s : State) : Out1 := .next ((s.serve i).getD s)

end Sys2Proof.Machine
end

