-- ==== Sys2Proof/Machine/EngRun.lean ====
section
/-! DEFINITION. What stream engines and merge channels move (12 R273 to R276, R278, R279, R281): the pieces of both sides of a transfer,
the three endpoints, merging, and the ends of a descriptor. -/
namespace Sys2Proof.Machine

/-! ## Accesses of an engine -/

/-- The physical address of an access of engine `e` (R275, R281): a general engine's HBM addresses are region addresses. -/
def State.engPhys (s : State) (e a : Nat) : Option Nat := if e < 32 ∧ a < 0x0400000000 then s.translate a else some a

/-- `n` bytes read by engine `e` at `a`, from whatever lies there. -/
def State.engGet (s : State) (e a n : Nat) : Except Halt (List Byte) × State :=
  match s.engPhys e a with
  | none => (.error (.absent a), s)
  | some p =>
    let t := s.busRead (0x10 + e) p n
    (match t.resp with
      | .ok bs => .ok bs
      | .uncorr => .error (.error 3 a)
      | _ => .error (.error 2 a), { t with resp := s.resp })

/-- Bytes written by engine `e` at `a`; a register write that the register refuses counts as an access denied (log entry 79). -/
def State.engPut (s : State) (e a : Nat) (bs : List Byte) : Except Halt Unit × State :=
  match s.engPhys e a with
  | none => (.error (.absent a), s)
  | some p =>
    let t := s.busWrite (0x10 + e) p bs
    (match t.resp with
      | .ok _ => .ok ()
      | .uncorr => .error (.error 3 a)
      | _ => .error (.error 2 a), { t with resp := s.resp })

/-! ## Sides of a transfer (R273, R275) -/

/-- The linear side of `n` bytes at `base`: the address of byte `k`, and how many bytes the access from there on takes. -/
def linearSide (base n k : Nat) : Nat × Nat := (base + k, (pieceOf base n (base + k)).2 - (base + k))

/-- The indices of run `r`, the first counting fastest. -/
def mixedIdx : List Nat → Nat → List Nat
  | [], _ => []
  | c :: cs, r => r % c :: mixedIdx cs (r / c)

/-- The address of the run that byte `k` of a descriptor lies in. -/
def Desc.runAt (d : Desc) (k : Nat) : Nat := ((d.addr : Int) + dotInt (mixedIdx d.cnt (k / d.len0)) d.str).toNat

/-- The side of a descriptor's runs: byte `k`, and how many bytes its piece takes from there on. -/
def Desc.runSide (d : Desc) (k : Nat) : Nat × Nat := linearSide (d.runAt k) d.len0 (k % d.len0)

/-- An engine's place once `k` bytes of its descriptor are delivered. -/
def Eng.place (x : Eng) (d : Desc) (k : Nat) : Eng := { x with i0 := k % d.len0, idx := mixedIdx d.cnt (k / d.len0), done := k }

/-- The lengths of whole pieces of a side from byte `k` on that together take no more than `room` bytes; `fuel` bounds them. -/
def groupLen (side : Nat → Nat × Nat) (total k room : Nat) : Nat → Nat
  | 0 => 0
  | fuel + 1 =>
    let n := (side k).2
    if total ≤ k ∨ room < n then 0 else n + groupLen side total (k + n) (room - n) fuel

/-- `n` bytes of a side read piece by piece from byte `k` on: what came, and the halt that stopped it; `fuel` bounds the pieces. -/
def State.gather (s : State) (e : Nat) (side : Nat → Nat × Nat) (k n : Nat) : Nat → List Byte × Option Halt × State
  | 0 => ([], none, s)
  | fuel + 1 =>
    if n = 0 then ([], none, s)
    else
      let p := side k
      let r := s.engGet e p.1 p.2
      match r.1 with
      | .error h => ([], some h, r.2)
      | .ok bs =>
        let q := r.2.gather e side (k + p.2) (n - p.2) fuel
        (bs ++ q.1, q.2)

/-- Bytes moved from a source side to a sink, each side in its own pieces: a piece of the sink is written once all of its bytes have
been read, and what has been read of it before a halt is delivered. `k` bytes are delivered, `buf` read beyond them. -/
def State.moveBytes (s : State) (e total : Nat) (src dst : Nat → Nat × Nat)
    (put : Nat → List Byte → State → Except Halt Unit × State) (k : Nat) (buf : List Byte) : Nat → Option Halt × Nat × State
  | 0 => (none, k, s)
  | fuel + 1 =>
    let n := (dst k).2
    if total ≤ k then (none, k, s)
    else if n ≤ buf.length then
      let w := put k (buf.take n) s
      match w.1 with
      | .error h => (some h, k, w.2)
      | .ok _ => w.2.moveBytes e total src dst put (k + n) (buf.drop n) fuel
    else
      let p := src (k + buf.length)
      let r := s.engGet e p.1 p.2
      match r.1 with
      | .ok bs => r.2.moveBytes e total src dst put k (buf ++ bs) fuel
      | .error h =>
        if buf.isEmpty then (some h, k, r.2)
        else
          let w := put k buf r.2
          match w.1 with
          | .error h' => (some h', k, w.2)
          | .ok _ => (some h, k + buf.length, w.2)

/-! ## Endpoints (R274) -/

/-- How far an engine comes with its current descriptor: to its end, to a point where it must wait, or to a halt. -/
inductive EngEnd where
  | done
  | blocked
  | halt (h : Halt)
deriving DecidableEq, Repr

/-- A halt as the end of a turn; without one the engine waits. -/
def endOf : Option Halt → EngEnd
  | some h => .halt h
  | none => .blocked

/-- The current address of a MEMORY endpoint. -/
def State.epAddr (s : State) (e : Nat) : Nat :=
  s.rd (STREAM_ENG_EP_LO_ADDR.idx e) + s.rd (STREAM_ENG_EP_HI_ADDR.idx e) * 2 ^ 32

/-- The address of a MEMORY endpoint set. -/
def State.setEp (s : State) (e a : Nat) : State :=
  (s.wr (STREAM_ENG_EP_LO_ADDR.idx e) (a % 2 ^ 32)).wr (STREAM_ENG_EP_HI_ADDR.idx e) (a / 2 ^ 32)

/-- The rest of a MEMORY endpoint's descriptor moved. -/
def State.runMemory (s : State) (e : Nat) (d : Desc) : EngEnd × State :=
  let x := s.engine e
  let ep := s.epAddr e
  let linear := linearSide (ep - x.done) d.total
  let src := if d.dir = 0 then d.runSide else linear
  let dst := if d.dir = 0 then linear else d.runSide
  let r := s.moveBytes e d.total src dst (fun k bs s => s.engPut e (dst k).1 bs) x.done [] (2 * d.total + 1)
  let s := (r.2.2.modEng e (fun x => x.place d r.2.1)).setEp e (ep + (r.2.1 - x.done))
  (match r.1 with
    | some h => .halt h
    | none => .done, s)

/-- A galley's bytes per bank. -/
def State.bankBytes (s : State) (kind g : Nat) : Nat := (s.cgalCfg kind g).cap / 2

/-- The next piece group of a GALLEY endpoint with DIR = 0 (R275): read once the galley has room for the lesser of a bank and the
rest of the descriptor, and written; the flag says that the engine goes on. A write refused because the galley's pointers differ
(R289), or one that meets an uncorrectable word, is reported with the address of the galley's ring (log entry 79). -/
def State.fillGalley (s : State) (e : Nat) (d : Desc) (bad : Bool) : Bool × EngEnd × State :=
  let x := s.engine e
  let kind := 1 + s.rd (STREAM_ENG_EP_GKIND.idx e)
  let g := s.rd (STREAM_ENG_EP_GALLEY.idx e)
  let room := min (s.bankBytes kind g) (d.total - x.done)
  let n := groupLen d.runSide d.total x.done room (room + 1)
  if !((s.cgal kind g).asm.any (·.discard)) ∧ (s.cgalFree kind g < room ∨ (s.cgalCfg kind g).en = false) then (false, .blocked, s)
  else
    let r := s.gather e d.runSide x.done n (n + 1)
    let ty := s.rdc (1 + galKey kind 0 g) STREAM_GCFG_TYPE
    let w := r.2.2.galleyPut kind g r.1 (x.done + r.1.length == d.total) true ty (0x10 + e)
    let at' := x.done + r.1.length
    let ring := 0x0800000000 + (s.cgalCfg kind g).base
    if bad then (false, .halt (.error 4 ring), r.2.2.galleyMismatch kind g)
    else
      match w.1 with
      | .waits => (false, .blocked, s)
      | .failed => (false, .halt (.error 3 ring), w.2.modEng e (fun x => x.place d at'))
      | _ => (r.2.1.isNone && decide (0 < n), endOf r.2.1, w.2.modEng e (fun x => x.place d at'))

/-- The next piece of a GALLEY endpoint with DIR = 1: its bytes leave the galley once they are all there and may be written. -/
def State.drainGalley (s : State) (e : Nat) (d : Desc) : Bool × EngEnd × State :=
  let x := s.engine e
  let kind := 1 + s.rd (STREAM_ENG_EP_GKIND.idx e)
  let g := s.rd (STREAM_ENG_EP_GALLEY.idx e)
  let p := d.runSide x.done
  if s.galleyReadable kind g < p.2 then (false, .blocked, s)
  else
    let q := s.engPlace e p.1 p.2 rightW
    match q.1 with
    | .error h => (false, .halt h, q.2)
    | .ok (i, off) =>
      let t := q.2.galleyTake kind g p.2 (0x10 + e)
      match t.1 with
      | none => (false, .halt (.error 3 p.1), t.2)
      | some bs =>
        let w := t.2.write i off bs (0x10 + e)
        (w.1, if w.1 then .blocked else .halt (.error 3 p.1),
          if w.1 then w.2.modEng e (fun x => x.place d (x.done + p.2)) else w.2)

/-- Bytes that a route's source may read ahead (R275): for the lesser of one bank of the destination galleys and the rest, none while
some receiver's credits do not cover it. -/
def State.routeRoom (s : State) (r : Route) (size rest : Nat) : Nat :=
  let bank := fun (v : Recv) => match v.dst with
    | .port t p _ => (s.portCfg t p).cap / 2
    | _ => v.settled.credits
  let n := min (r.recvs.foldl (fun a v => min a (bank v)) (rest / size + 1)) (ceilDiv rest size)
  if r.recvs.all (fun v => decide (n ≤ v.settled.credits)) then min rest (n * size) else 0

/-- The next piece group of a ROUTE endpoint read and given to the route as tokens (R274 to R276), bytes that do not fill a token kept
for the next run; the engine waits while the route has not sent what it holds, where no such route exists, and with DIR = 1,
as no route ends at a bridge for an engine to read (log entry 79). -/
def State.feedRoute (s : State) (e : Nat) (d : Desc) : Bool × EngEnd × State :=
  let x := s.engine e
  match indexOf? (fun (r : Route) => r.src == .eng e) s.fab.routes with
  | none => (false, .blocked, s)
  | some i =>
    match s.fab.routes[i]? with
    | none => (false, .blocked, s)
    | some r =>
      let size := if r.scalar then 4 else 64
      let from' := x.done + x.hold.length
      let n := groupLen d.runSide d.total from' (s.routeRoom r size (d.total - from')) (d.total + 1)
      if d.dir ≠ 0 ∨ r.todo ≠ [] ∨ n = 0 then (false, .blocked, s)
      else
        let q := s.gather e d.runSide from' n (n + 1)
        let bs := x.hold ++ q.1
        let k := bs.length / size * size
        let s := q.2.2.modRoute i (fun r => { r with todo := r.todo ++ (chunks size (k + 1) (bs.take k)).map leNat })
        let rest := if q.2.1.isSome then [] else bs.drop k
        (q.2.1.isNone, endOf q.2.1, s.modEng e (fun x => { x.place d (x.done + k) with hold := rest }))

/-- An engine with a GALLEY or ROUTE endpoint taken on as far as it comes; `fuel` bounds the groups. -/
def State.runGroups (s : State) (e : Nat) (d : Desc) (bad : Bool) : Nat → EngEnd × State
  | 0 => (.blocked, s)
  | fuel + 1 =>
    let route := s.rd (STREAM_ENG_EP_KIND.idx e) == 1
    if d.total ≤ (s.engine e).done then (if route && !s.delivered (.eng e) then .blocked else .done, s)
    else
      let r := if route then s.feedRoute e d else if d.dir = 0 then s.fillGalley e d bad else s.drainGalley e d
      if r.1 then r.2.2.runGroups e d bad fuel else r.2

/-- A STRIDED descriptor worked on as far as it comes. -/
def State.runStrided (s : State) (e : Nat) (d : Desc) (bad : Bool) : EngEnd × State :=
  match s.rd (STREAM_ENG_EP_KIND.idx e) with
  | 0 => (.blocked, s)
  | 3 => s.runMemory e d
  | _ => s.runGroups e d bad (d.total + 1)

/-! ## Merge channels (R281) -/

/-- Whether a later LINEAR descriptor merges into an earlier one (R281). -/
def merges (a b : Desc) : Bool :=
  b.valid && b.fmt == 1 && b.linearOk && a.dir == b.dir && a.tag == b.tag && !a.signal && !a.waitq && !a.event && !a.last &&
  !b.waitq && a.addr + a.len == b.addr &&
  (if a.dir = 0 then a.dst + a.len == b.dst
   else bits a.dst 0 4 == bits b.dst 0 4 && bits a.dst 4 16 * 64 + a.len == bits b.dst 4 16 * 64)

/-- The descriptors that merge with the current one moved past, as the merged length and the last of them; merging goes on into the
next batch once it is fetched. -/
def State.mergeRun (s : State) (e : Nat) (d : Desc) (len : Nat) : Nat → Nat × Desc × State
  | 0 => (len, d, s)
  | fuel + 1 =>
    let x := s.engine e
    let s' := if x.bi < 7 then s.modEng e (fun x => { x with bi := x.bi + 1 }) else
      s.loadBatch e (x.batchAddr + 256) 0
    match (s'.engine e).desc with
    | some b => if merges d b then s'.mergeRun e b (len + b.len) fuel else (len, d, s)
    | none => (len, d, s)

/-- Bytes put into the reference buffer of a decoder from byte `off` on. -/
def State.refPut (s : State) (d off : Nat) (bs : List Byte) : State :=
  { s with decRef := (List.range bs.length).foldl (fun t i =>
      tput (fun _ => (0 : Byte)) t (d * 2 ^ 25 + off + i) (bs.getD i 0)) s.decRef }

/-- What a merge channel does with bytes for place `k` of its transfer: DIR 0 to memory, DIR 1 to a decoder's reference buffer. -/
def State.mergePut (s : State) (e : Nat) (d : Desc) (k : Nat) (bs : List Byte) : Except Halt Unit × State :=
  if d.dir = 0 then s.engPut e (d.dst + k) bs else (.ok (), s.refPut (bits d.dst 0 4) (bits d.dst 4 16 * 64 + k) bs)

/-- A LINEAR descriptor with those that merge into it. -/
def State.runLinear (s : State) (e : Nat) (d : Desc) : EngEnd × State :=
  let m := s.mergeRun e d d.len 65536
  let n := m.1
  let src := linearSide d.addr n
  let dst := if d.dir = 0 then linearSide d.dst n else linearSide 0 n
  let r := m.2.2.moveBytes e n src dst (fun k bs s => s.mergePut e d k bs) (s.engine e).done [] (2 * n + 1)
  let s := r.2.2.modEng e (fun x => { x with done := r.2.1 })
  match r.1 with
  | some h => (.halt h, s)
  | none => (.done, s.completeDesc e m.2.1)

/-! ## Running a descriptor -/

/-- The engine works on its current descriptor as far as it can; `bad` says that the write pointers of its galley differ. -/
def State.engineRun (s : State) (e : Nat) (bad : Bool) : EngEnd × State :=
  let x := s.engine e
  match x.desc with
  | none =>
    let r := s.fetchBatch e x.batchAddr
    match r.1 with
    | .error h => (.halt h, r.2)
    | .ok b => (.blocked, (r.2.modEng e (fun x => { x with batch := b })).beginDesc e)
  | some d =>
    if !s.descOk e d then (.halt (.error 1 x.descAddr), s)
    else if d.fmt = 2 then (.done, s.completeDesc e d)
    else if e < 32 then
      let r := s.runStrided e d bad
      (r.1, if r.1 = .done then r.2.completeDesc e d else r.2)
    else s.runLinear e d

/-- Whether engine `e` exists and is RUNNING. -/
def State.engRunning (s : State) (e : Nat) : Bool := decide (e < 36) && (s.engine e).st == 1

/-- STREAM_DESC_DONE (R276): the descriptor's bytes are delivered, and its completion follows; a descriptor that must wait for its
endpoint keeps what it has moved. -/
def State.descDone (s : State) (e : Nat) : State :=
  if !s.engRunning e then s
  else
    match s.engineRun e false with
    | (.halt _, _) => s
    | (_, s') => s'

/-- STREAM_DESC_DONE. -/
def execStreamDescDone (e : Nat) (s : State) : Out1 := .next (s.descDone e)

/-- MERGE_TRANSFER (R281). -/
def execMergeTransfer (c : Nat) (s : State) : Out1 := .next (if c < 4 then s.descDone (32 + c) else s)

/-- STREAM_PAGE_ABSENT (R278): what was issued before is delivered, the position is kept. -/
def execStreamPageAbsent (e : Nat) (s : State) : Out1 :=
  .next (if !s.engRunning e then s
    else
      match s.engineRun e false with
      | (.halt (.absent a), s') =>
        let s := (s'.regionMiss (0x10 + e) a).modEng e (fun x => { x with st := 4 })
        s.raise EV_STREAM_PAGE_ABSENT (0x10 + e) e 0 a
      | _ => s)

/-- The frame that engine `e` sends, by the frame end that waits behind its tokens. -/
def State.engTicket (s : State) (e : Nat) : Option Nat :=
  s.fab.ctl.findSome? (fun r => if r.src = .eng e then r.a.findSome? (fun k => match k with
    | .frameEnd n _ => some n
    | _ => none) else none)

/-- What an error of an engine held by a slot means for the frame it feeds (R279): the frame is aborted with STREAM_DESC_ERROR, here
and at its source (13 R313). -/
def State.heldError (s : State) (e : Nat) : State :=
  match s.engTicket e with
  | some n => (((s.cutSource (.eng e) n).sendX (.eng e) n)).abortFlight n EV_STREAM_DESC_ERROR
  | none => s

/-- STREAM_DESC_ERROR (R279). The owner of a slot's engine runs its lists: an error that such an engine meets while it is IDLE here has
cause 3 and a FREE address (log entries 2 and 13). -/
def execStreamDescError (f : EngFail) (s : State) : Out1 :=
  let e := f.e
  .next (if s.engRunning e then
      match s.engineRun e f.ptrBad with
      | (.halt (.error c a), s') => (s'.engError e (.error c a)).heldError e
      | _ => s
    else if e < 32 ∧ (s.engine e).st = 0 ∧ (s.engine e).held.isSome ∧ (s.engTicket e).isSome then
      let v := s.takeFree
      (v.2.engError e (.error 3 (v.1 % 2 ^ 40))).heldError e
    else s)

/-- STREAM_WAITQ (R276): the WAIT on the descriptor's quoin has succeeded and its accesses may begin. -/
def execStreamWaitq (e : Nat) (s : State) : Out1 :=
  .next (if 36 ≤ e ∨ (s.engine e).st ≠ 2 then s
    else
      match (s.engine e).desc with
      | none => s
      | some d =>
        let s := s.settle d.qidx
        if (s.engine e).passed then s.modEng e (fun x => { x with st := 1, passed := false }) else s)

end Sys2Proof.Machine
end

