-- ==== Sys2Proof/Machine/Host.lean ====
section
/-! DEFINITION. The Afbor control transport: sessions, requests and their responses, and the delivery of event and result records
(15 R339 to R345, R355, R423; 16 R365). -/
namespace Sys2Proof.Machine

/-! ## The life of a request -/

/-- Whether a transport can carry packets: the USB configuration is selected (R344); the management link is up and its address valid
(R345, R359). -/
def State.linked (s : State) (mgmt : Bool) : Bool :=
  if mgmt then s.rd MGMT_STATUS_LINK_UP == 1 && s.rd MGMT_STATUS_ADDR_VALID == 1 else s.rd USB_STATUS_CONFIGURED == 1

/-- The status value of what a bus access answered (Table 15-3). -/
def respStatus : Resp → Nat
  | .none => 0
  | .ok _ => 0
  | .busError => 1
  | .refused => 2
  | .uncorr => 7

/-- The response to a request that was carried out; none where its own effect has ended its session. -/
def State.reply (s : State) (h : HostHdr) (op status : Nat) (payload : List Byte) : State :=
  if (s.sess h.mgmt).isOpen then s.respond h op status payload else s

/-- A request of the open session that no WAIT holds: its time is noted for R345; a restricted session takes REG_READ, MEM_READ,
EVENT_MASK and SESSION_CLOSE only (R343). -/
def State.carryOut (s : State) (h : HostHdr) (op : Nat) (act : State → State) : State :=
  let q := s.sess h.mgmt
  if !q.isOpen then s.respond h op 4 []
  else
    let s := s.setSess h.mgmt { q with lastReq := s.base }
    if q.restricted && !(op == 2 || op == 3 || op == 5 || op == 8) then s.respond h op 5 [] else act s

/-- A request behind a WAIT that holds its session (R341, R342): SESSION_CLOSE acts at once, the TAG of the WAIT is discarded
(R345), any other waits its turn. -/
def State.behindWait (s : State) (h w : HostHdr) (op : Nat) (c : Instr) (act : State → State) : State :=
  let q := s.sess h.mgmt
  if h.mgmt && h.tag == w.tag then (s.setSess true { q with lastReq := s.base }).inc MGMT_DROP_COUNT
  else if op = 2 then s.carryOut h op act
  else s.setSess h.mgmt { q with held := q.held ++ [c], lastReq := s.base }

/-- A request as it arrives: over the management port a datagram that is no packet is discarded without a response, another source
gets BUSY, and a TAG whose response is kept gets that response again (R345). -/
def State.request (s : State) (h : HostHdr) (op : Nat) (c : Instr) (act : State → State) : State :=
  let q := s.sess h.mgmt
  if !s.linked h.mgmt then s
  else if h.mgmt && h.form == .wrongHeader then s.inc MGMT_DROP_COUNT
  else if h.mgmt && q.isOpen && q.src != h.src then s.emit (.response true h.src (packet op h.tag 8 0x8000 []))
  else
    match (if h.mgmt && q.isOpen then q.kept.find? (fun k => k.1 == h.tag) else none) with
    | some k => (s.setSess true { q with lastReq := s.base }).emit (.response true h.src k.2)
    | none =>
      match q.waitQ with
      | some w => s.behindWait h w.1 op c act
      | none => if op = 1 then act s else s.carryOut h op act

/-- The same request before the firmware runs: `boot` in a boot session, REFUSED for what that does not accept (16 R365). -/
def State.bootOr (h : HostHdr) (op : Nat) (boot : Option (State → State)) (act : State → State) (s : State) : State :=
  if s.fw.running then act s
  else
    match boot with
    | some b => b s
    | none => s.respond h op 2 []

/-- A request whose packet or a field of it is not as it should be is MALFORMED, and nothing is carried out (Table 15-3). -/
def State.formed (h : HostHdr) (op : Nat) (ok : Bool) (act : State → State) (s : State) : State :=
  if h.form == .right && ok then act s else s.reply h op 3 []

/-! ## Sessions (R343) -/

/-- The payload of a SESSION_OPEN response: the firmware interface version and SYS_ID. -/
def State.openPayload (s : State) (m : Nat) : List Byte :=
  leBytes 4 (s.rd FW_IF_VERSION_VERSION) ++ leBytes 4 (s.regRead m 0x0A00000000).1

/-- A session opened. -/
def State.openSess (s : State) (h : HostHdr) (version : Nat) (restricted boot : Bool) : State :=
  s.setSess h.mgmt { isOpen := true, restricted := restricted, boot := boot, version := version, src := h.src, lastReq := s.base }

/-- The master ID of a transport's session (R341). -/
def hostMaster (h : HostHdr) : Nat := if h.mgmt then 0x71 else 0x70

/-- SESSION_OPEN while the firmware runs. -/
def State.openRun (s : State) (h : HostHdr) (version : Nat) : State :=
  if hostOk s.openCompat version then
    let s := (s.openSess h version false false).funcSet 15
    s.respond h 1 0 (s.openPayload (hostMaster h))
  else
    let s := s.openSess h version true false
    let s := s.raise EV_VERSION_REFUSED s.secCore version (s.rd FW_IF_VERSION_VERSION) 0
    s.respond h 1 5 (s.openPayload (hostMaster h))

/-- SESSION_OPEN (R343; 16 R365 before the firmware runs). -/
def execSessionOpen (h : HostHdr) (version : Nat) (s : State) : Out1 :=
  .next (s.request h 1 (.sessionOpen h version) (fun s =>
    if h.form ≠ .right then s.respond h 1 3 []
    else if (s.sess h.mgmt).isOpen then
      (s.setSess h.mgmt { s.sess h.mgmt with lastReq := s.base }).respond h 1 8 []
    else if s.fw.running then s.openRun h version
    else
      let s := s.openSess h version false true
      s.respond h 1 0 (s.openPayload (hostMaster h))))

/-- SESSION_CLOSE (R343): the response is sent, then the session ends. -/
def execSessionClose (h : HostHdr) (s : State) : Out1 :=
  .next (s.request h 2 (.sessionClose h) (State.formed h 2 true (fun s => (s.respond h 2 0 []).endSession h.mgmt)))

/-! ## Register requests (R340) -/

/-- `k` register words read from `a` on; the first that fails ends the request. -/
def State.hostRegs (s : State) (m a : Nat) (acc : List Byte) : Nat → Nat × List Byte × State
  | 0 => (0, acc, s)
  | k + 1 =>
    let s := s.busRead m a 4
    match s.resp with
    | .ok bs => s.hostRegs m (a + 4) (acc ++ bs) k
    | r => (respStatus r, acc, s)

/-- Register words written in order from `a` on; the first that fails ends the request, and so does the end of the session. -/
def State.hostPuts (s : State) (mgmt : Bool) (m a n : Nat) : List Nat → Nat × Nat × State
  | [] => (0, n, s)
  | v :: vs =>
    let s := s.busWrite m a (leBytes 4 v)
    match s.resp with
    | .ok _ => if (s.sess mgmt).isOpen then s.hostPuts mgmt m (a + 4) (n + 1) vs else (0, n + 1, s)
    | r => (respStatus r, n, s)

/-- Whether the register words from `a` on lie in SYS, FW or SEC, which the boot session may read (16 R365). -/
def bootReadable (a n : Nat) : Bool :=
  (List.range n).all (fun k =>
    decide (0x0A00000000 ≤ a + 4 * k) &&
      (match blockOf (a + 4 * k) with
       | some b => b == 0 || b == 16 || b == 17
       | none => false))

/-- REG_READ (R340); in a boot session the ROM reads for the host. -/
def execRegRead (h : HostHdr) (addr n : Nat) (s : State) : Out1 :=
  let run := fun (m : Nat) (s : State) =>
    let r := s.hostRegs m addr [] n
    r.2.2.reply h 3 r.1 r.2.1
  .next (s.request h 3 (.regRead h addr n) (fun s =>
    s |> State.formed h 3 (decide (1 ≤ n) && decide (n ≤ 64) && addr % 4 == 0)
      (State.bootOr h 3 (if bootReadable addr n then some (run 0x60) else none) (run (hostMaster h)))))

/-- Whether a register write is that of FW_UPDATE_CTRL.START. -/
def startWrite (addr : Nat) (words : List Nat) : Bool :=
  addr == FW_UPDATE_CTRL_START.addr && words.length == 1 && bit (words.headD 0) 31

/-- REG_WRITE (R340); in USB recovery START of FW_UPDATE_CTRL starts the image written (16 R365). -/
def execRegWrite (h : HostHdr) (addr : Nat) (words : List Nat) (s : State) : Out1 :=
  .next (s.request h 4 (.regWrite h addr words) (fun s =>
    s |> State.formed h 4 (decide (1 ≤ words.length) && decide (words.length ≤ 64) && addr % 4 == 0)
      (State.bootOr h 4
        (if s.fw.recovery && startWrite addr words then some (fun (s : State) => (s.reply h 4 0 (leBytes 4 1)).recoverRun) else none)
        (fun s =>
          let r := s.hostPuts h.mgmt (hostMaster h) addr 0 words
          r.2.2.reply h 4 r.1 (leBytes 4 r.2.1)))))

/-! ## Memory requests (R340) -/

/-- The bytes of an aligned piece at `a` with `n` bytes left. -/
def pieceLen (a n : Nat) : Nat := min n (256 - a % 256)

/-- `n` bytes read from `a` on in aligned pieces; the first piece that fails ends the request. `fuel` bounds the pieces. -/
def State.hostReads (s : State) (m a n : Nat) (acc : List Byte) : Nat → Nat × List Byte × State
  | 0 => (0, acc, s)
  | fuel + 1 =>
    if n = 0 then (0, acc, s)
    else
      let k := pieceLen a n
      let s := s.busRead m a k
      match s.resp with
      | .ok bs => s.hostReads m (a + k) (n - k) (acc ++ bs) fuel
      | r => (respStatus r, acc, s)

/-- Bytes written from `a` on in aligned pieces; `done` counts those written. -/
def State.hostWrites (s : State) (mgmt : Bool) (m a done : Nat) (bs : List Byte) : Nat → Nat × Nat × State
  | 0 => (0, done, s)
  | fuel + 1 =>
    if bs = [] then (0, done, s)
    else
      let k := pieceLen a bs.length
      let s := s.busWrite m a (bs.take k)
      match s.resp with
      | .ok _ => if (s.sess mgmt).isOpen then s.hostWrites mgmt m (a + k) (done + k) (bs.drop k) fuel else (0, done + k, s)
      | r => (respStatus r, done, s)

/-- Whether the bytes of a memory request are in range: multiples of 4, to 1,024 over the management port and to 16 MiB over USB. -/
def memForm (mgmt : Bool) (addr n : Nat) : Bool :=
  addr % 4 == 0 && n % 4 == 0 && decide (4 ≤ n) && decide (n ≤ (if mgmt then 1024 else 16777216))

/-- MEM_READ (R340). -/
def execMemRead (h : HostHdr) (addr n : Nat) (s : State) : Out1 :=
  .next (s.request h 5 (.memRead h addr n) (fun s =>
    s |> State.formed h 5 (memForm h.mgmt addr n) (State.bootOr h 5 none (fun s =>
      let r := s.hostReads (hostMaster h) addr n [] (n / 256 + 2)
      r.2.2.reply h 5 r.1 r.2.1))))

/-- A MEM_WRITE of a boot session in USB recovery: `addr` counts from the start of the protected image area (16 R365). -/
def State.bootWrite (h : HostHdr) (addr : Nat) (data : List Byte) (s : State) : State :=
  if addr + data.length ≤ 393216 then
    ((s.write .msram (imageArea + addr) data 0x60).2).reply h 6 0 (leBytes 4 data.length)
  else s.reply h 6 2 []

/-- MEM_WRITE (R340); `data` is that of EP3 for BULK (R344). -/
def execMemWrite (h : HostHdr) (addr : Nat) (data : List Byte) (s : State) : Out1 :=
  .next (s.request h 6 (.memWrite h addr data) (fun s =>
    s |> State.formed h 6 (memForm h.mgmt addr data.length)
      (State.bootOr h 6 (if s.fw.recovery then some (State.bootWrite h addr data) else none) (fun s =>
        let r := s.hostWrites h.mgmt (hostMaster h) addr 0 data (data.length / 256 + 2)
        r.2.2.reply h 6 r.1 (leBytes 4 r.2.1)))))

/-! ## Quoin requests (R342) -/

/-- A QUOIN operation of a session: SIGNAL, WAIT, TEST, RESET (Table 15-6); a WAIT that does not succeed at once holds the session
to its deadline, or with a timeout of 0 ends. -/
def State.hostQuoin (s : State) (h : HostHdr) (i op n timeout : Nat) : State :=
  let g := s.accessCheck (hostMaster h) (quoinWord i) 4 (if op = 2 then rightR else rightW)
  if !g.1 then g.2.reply h 7 1 []
  else
    let s := g.2
    if op = 1 then
      let r := s.qwait i n (.host h.mgmt)
      if r.1 then r.2.reply h 7 0 (leBytes 4 (r.2.qcount i))
      else if timeout = 0 then
        let s := r.2.dropWaits (.host h.mgmt)
        s.reply h 7 6 (leBytes 4 (s.qcount i))
      else r.2.setSess h.mgmt { r.2.sess h.mgmt with waitQ := some (h, i, r.2.base + timeout * 1000) }
    else
      let s := if op = 0 then s.qsignal (hostMaster h) i n else if op = 2 then (s.qtest i).2 else s.qreset i n
      s.reply h 7 0 (leBytes 4 (s.qcount i))

/-- QUOIN (R342). -/
def execQuoin (h : HostHdr) (i op operand timeout : Nat) (s : State) : Out1 :=
  .next (s.request h 7 (.quoin h i op operand timeout) (fun s =>
    s |> State.formed h 7 (decide (i < 131072) && decide (op ≤ 3) && decide (timeout ≤ 1000000))
      (State.bootOr h 7 none (fun s => s.hostQuoin h i op operand timeout))))

/-- QUOIN_REQUEST_TIMEOUT (R342): the WAIT that holds a session is abandoned once its timeout has passed; the requests kept behind it
go on. -/
def execQuoinRequestTimeout (mgmt : Bool) (s : State) : Out1 :=
  .next (match (s.sess mgmt).waitQ with
    | none => s
    | some w =>
      let s := s.settle w.2.1
      if (s.sess mgmt).waitQ = some w ∧ w.2.2 ≤ s.base then
        let s := (s.dropWaits (.host mgmt)).unhold mgmt
        s.respond w.1 7 6 (leBytes 4 (s.qcount w.2.1))
      else s)

/-! ## Events (R340, R355, R423) -/

/-- EVENT_MASK (R355). -/
def execEventMask (h : HostHdr) (mask : Nat) (s : State) : Out1 :=
  .next (s.request h 8 (.eventMask h mask) (fun s =>
    s |> State.formed h 8 true (State.bootOr h 8 none (fun s =>
      (s.setSess h.mgmt { s.sess h.mgmt with mask := mask % 2 ^ 32 }).reply h 8 0 []))))

/-- The oldest 32 records of a session taken out of its queue. -/
def State.takeEvents (s : State) (mgmt : Bool) : List Byte × State :=
  let q := s.sess mgmt
  ((q.events.take 32).flatMap (fun e => e.2.bytes), s.setSess mgmt { q with events := q.events.drop 32 })

/-- USB_EVENT_TRANSFER (R423): up to 32 queued records go into one EP2 transfer. -/
def execUsbEventTransfer (s : State) : Out1 :=
  .next (if s.linked false ∧ s.host.usb.isOpen ∧ s.host.usb.events ≠ [] then
      let r := s.takeEvents false
      r.2.emit (.usbEvents r.1)
    else s)

/-- Whether an event datagram is due: 32 records are queued, or the oldest was queued 1 ms of base time ago (R423). -/
def State.datagramDue (s : State) : Bool :=
  match s.host.mgmt.events with
  | [] => false
  | e :: _ => decide (32 ≤ s.host.mgmt.events.length) || decide (e.1 + 1000000 ≤ s.base)

/-- MGMT_EVENT_DATAGRAM (R345, R423): OP 0x80; the spec gives no TAG, so it is FREE (log entry 2). -/
def execMgmtEventDatagram (s : State) : Out1 :=
  .next (if s.linked true ∧ s.host.mgmt.isOpen ∧ s.datagramDue then
      let dst := s.host.mgmt.src
      let f := s.takeFree
      let r := f.2.takeEvents true
      r.2.emit (.mgmtEvents dst (packet 0x80 (f.1 % 65536) 0 0 r.1))
    else s)

/-- EVENTS_LOST (R355): when room returns, the lost count goes to the session that lost records and to the log only. -/
def execEventsLost (mgmt : Bool) (s : State) : Out1 := .next (s.noteLost mgmt)

/-! ## Results over USB (R353, R423) -/

/-- The next galley drained to EP4 that holds a record, round robin. -/
def State.usbGalley (s : State) : Option Nat :=
  ((List.range 256).map (fun k => (s.host.usbNext + k) % 256)).find? (fun g =>
    s.rdc (1 + g) CTX_RES_CFG_USB == 1 && (s.cgal 2 g).pkts != [])

/-- USB_RESULT_TRANSFER (R423): the oldest record of the next galley leaves whole; one that cannot be read is removed (11 R262). -/
def execUsbResultTransfer (s : State) : Out1 :=
  .next (if s.linked false then
      match s.usbGalley with
      | none => s
      | some g =>
        let r := s.headPacket 2 g 0x70
        let s := { r.2 with host := { r.2.host with usbNext := (g + 1) % 256 } }
        let s := match r.1 with
          | some bs => s.emit (.usbRecord bs)
          | none => s
        s.popPacket 2 g
    else s)

end Sys2Proof.Machine
end

