-- ==== Sys2Proof/Machine/Pointers.lean ====
section
/-! DEFINITION. Tokens at a tile's galleys with the check of the galley's pointers (12 R289, R290): arrival at an input galley and egress
from an output galley (05 R130, R131). -/
namespace Sys2Proof.Machine

/-- The frames, other than the one that the tile holds, of which galley `p` of tile `t` has a token or a frame mark (R289): those of its
marks, and of the control inputs that mark it, where tokens lie behind its last mark. -/
def State.otherFrames (s : State) (t p : Nat) : List Nat :=
  let x := s.tile t
  let g := x.ports.gal p
  let behind := decide ((g.marks.getLast?).elim 0 (·.before) < g.tags.length)
  let ins := (s.fab.ctl.filter (fun r => s.ctlAt (.tile t) r && r.mask.testBit p)).filterMap (fun r => (s.ctlIn t r.k).ticket)
  ((g.marks.map (·.ticket) ++ (if p < 8 ∧ behind then ins else [])).filter (fun n =>
    !x.ctl.frame.any (fun f => f.ticket == n))).eraseDups

/-- The copies of a pointer of galley `p` of tile `t` differ (R289): it is emptied, the credits of what an input galley held go back to
the sender of the active feed, the tile faults, and ABORT is sent for every frame that has lost something. Where the occupancy
count fails its parity as well (`countBad`), no credit can be restored and the tile becomes unusable. -/
def State.portMismatch (s : State) (t p : Nat) (countBad : Bool) : State :=
  let others := s.otherFrames t p
  let n := ((s.tile t).ports.gal p).tags.length
  let s := if p < 8 ∧ !countBad then s.creditBack t p n else s
  let s := s.modGal t p (fun g => { mismatch := true, feed := g.feed })
  let s := s.stageFault t 16
  let s := others.foldl (fun (s : State) k => (s.recordCause k EV_GALLEY_PTR_MISMATCH).tileAbort t k) s
  if countBad then s.markUnusable t 5 else s

/-- TOKEN_ARRIVAL (R130, R131, R289): the oldest token on the lane of the port's active feed. -/
def execTokenArrival (t port : Nat) (op : ArriveOp) (s : State) : Out1 :=
  .next (if 8 ≤ port ∨ s.isLoopIn t port then s
    else
      match s.feedRecv t port ((s.tile t).ports.gal port).feed with
      | none => s
      | some (r, j) =>
        match (s.fab.routes[r]?).bind (fun x => x.recvs[j]?) with
        | none => s
        | some v =>
          match v.lane with
          | [] => s
          | tok :: _ =>
            let s' := s.arrive t port r j v tok op.parityBad
            if op.ptrBad ∧ s.keeps t port r v then s'.portMismatch t port op.countBad else s')

/-- GALLEY_EGRESS (R130, R289): one token crosses its route; the copies of an output galley's read pointer may differ as it leaves. -/
def execGalleyEgress (op : EgressOp) (s : State) : Out1 :=
  .next (let s' := s.egress op.src
    match s.fab.routes[op.src]? with
    | none => s'
    | some r =>
      match r.src with
      | .port t p =>
        if op.ptrBad ∧ ((s'.tile t).ports.gal p).tags.length < ((s.tile t).ports.gal p).tags.length then s'.portMismatch t p false
        else s'
      | _ => s')

end Sys2Proof.Machine
end

