-- ==== Sys2Proof/Machine/Scale.lean ====
section
/-! DEFINITION. MC2's handling of watch reports and dynamic scales (07 R168 to R170, R173; 09 R216). -/
namespace Sys2Proof.Machine

/-- The stage and unit of the tile that posted a report, in the impression that it then held. -/
def State.stageOf (s : State) (r : Report) : Option (Nat × Nat) :=
  ((s.slot r.slot).placed.find? (fun p => p.phys == r.tile && p.imp == r.imp)).map (fun p => (p.stage, p.unit))

/-- `n` bytes at `off` of the first replica of a stage's unit; of its copy in the store in a forme of several impressions. -/
def State.areaRead (s : State) (k stage unit off n : Nat) : Option (List Byte) × State :=
  let x := s.slot k
  if x.multi then
    match x.imp.persist.find? (fun p => p.stage == stage && p.unit == unit && decide (p.off ≤ off) &&
        decide (off + n ≤ p.off + p.len)) with
    | some p => (some (slice p.copy (off - p.off) n), s)
    | none => (none, s)
  else
    match x.placed.find? (fun p => p.stage == stage && p.unit == unit) with
    | some p => s.read (.sram p.phys) off n s.admCore
    | none => (none, s)

/-- Bytes written at `off` of every replica of a stage's unit, or of their copies in the store (R170, R216). -/
def State.areaWrite (s : State) (k stage unit off : Nat) (bs : List Byte) : State :=
  let x := s.slot k
  if x.multi then
    (List.range x.imp.persist.length).foldl (fun (s : State) j =>
      match x.imp.persist[j]? with
      | some p =>
        if p.stage = stage ∧ p.unit = unit ∧ p.off ≤ off ∧ off + bs.length ≤ p.off + p.len then
          s.putCopy k j (p.copy.take (off - p.off) ++ bs ++ p.copy.drop (off - p.off + bs.length))
        else s
      | none => s) s
  else
    (x.placed.filter (fun p => p.stage == stage && p.unit == unit)).foldl
      (fun (s : State) p => (s.write (.sram p.phys) off bs s.admCore).2) s

/-- The reports of one group combined over the replicas: counts summed, the largest PEAK (R173). -/
def combineReports (l : List Report) : Watch :=
  l.foldl (fun w r =>
    { lanes := w.lanes + r.w.lanes, sat := w.sat + r.w.sat, coll := w.coll + r.w.coll
      peak := if flt (f32 w.peak) (f32 r.w.peak) then r.w.peak else w.peak }) {}

/-- The smallest `n` of 1 to 8 that satisfies `p`, else 8. -/
def leastPow (p : Nat → Bool) : Nat := ((List.range 8).map (· + 1)).find? p |>.getD 8

/-- The largest `n` of 1 to 8 that satisfies `p`, else 1. -/
def mostPow (p : Nat → Bool) : Nat := (((List.range 8).map (· + 1)).reverse.find? p).getD 1

/-- The new scale and estimate of R173 from the current scale code and estimate; powers of two are exact, other roundings go
to even. -/
def newScale (d : ScaleDir) (sat coll : Bool) (sCode est peak : Nat) : Nat × Nat :=
  let f := if d.sfmt then bf16 else fp16
  let s := f.decode sCode
  let q := ofInt (d.qmax : Int) 0
  let two := fun (n : Nat) (x : FVal) => fmul x (.fin false (2 ^ n) 0)
  let half := fun (n : Nat) (x : FVal) => fmul x (.fin false 1 (-(n : Int)))
  let lim := fun (x : FVal) =>
    let lo := f.decode (2 ^ f.mb)
    let hi := f.decode f.maxCode
    (f.toSat false (if flt x lo then lo else if flt hi x then hi else x)).1
  if sat then
    let n := leastPow (fun n => fle (f32 peak) (two n (fmul s q)))
    let s' := lim (two n s)
    (s', r32 false (fmul (two n s) q))
  else if coll then
    let n := if f32 peak = .inf false then 8 else mostPow (fun n => fle (two n (f32 peak)) (fmul s q))
    let s' := lim (half n s)
    (s', r32 false (fmul (half n s) q))
  else
    let est' := add32 false est (r32 false (half d.k (f32 (sub32 false peak est))))
    (lim (f.decode (f.toSat false (fdiv (f32 est') q)).1), est')

/-- The three words of a decided scale: EST, INV_S and SXZ (R169, R173). -/
def scaleWords (d : ScaleDir) (r : Nat × Nat) : Nat × Nat × Nat :=
  let f := if d.sfmt then bf16 else fp16
  (r.2, r32 false (fdiv fone (f.decode r.1)), r.1 + wrap 16 d.zout * 2 ^ 16)

/-- MC2 decides on one dynamic group of a finished frame: the copy not selected and EST are written in every replica, and the
flip waits for a gap (R170, R173). -/
def State.decideScale (s : State) (r : Report) (d : ScaleDir) (w : Watch) : State :=
  let off := d.off + r.fidx * d.stride
  let a := s.areaRead r.slot d.stage d.unit off 32
  match a.1 with
  | none => a.2
  | some b =>
    let sel := fieldAt b 0 4 % 2
    let t := a.2.watchTests w
    let v := scaleWords d (newScale d t.1 t.2 (fieldAt b (12 + 8 * sel) 4 % 2 ^ 16) (fieldAt b 4 4) w.peak)
    let s := a.2.areaWrite r.slot d.stage d.unit (off + 8 + 8 * (1 - sel)) (leBytes 4 v.2.1 ++ leBytes 4 v.2.2)
    let s := s.areaWrite r.slot d.stage d.unit (off + 4) (leBytes 4 v.1)
    let flip : Flip := ⟨r.slot, r.ctx, r.fidx, d.stage, d.unit, off⟩
    { s with adm := { s.adm with flips := s.adm.flips.filter (fun x => x != flip) ++ [flip] } }

/-- Whether the context of a report still runs as it did (R173: not since END_OF_STREAM). -/
def State.reportLive (s : State) (r : Report) : Bool :=
  let x := s.ctx r.ctx
  (x.st == 2 || x.st == 3) && !x.eosDone && x.slot == r.slot && x.fidx == r.fidx

/-- SCALE_WATCH_REPORT (R172, R173): the oldest report's group, over all replicas of its stage, once the frame is no longer in
flight. -/
def execScaleWatchReport (s : State) : Out1 :=
  .next (match s.adm.reports with
    | [] => s
    | r :: _ =>
      if !s.roleHeld s.admCore || (s.flightOf r.ticket).any (fun f => f.accepted == r.accepted) then s
      else
        let key := fun (x : Report) => (x.ticket, x.accepted, x.slot, s.stageOf x, x.rq)
        let l := s.adm.reports.filter (fun x => key x == key r)
        let w := combineReports l
        let dir := (s.slot r.slot).dir.find? (fun d => some (d.stage, d.unit) == s.stageOf r && d.rq == r.rq)
        let s' := { s with adm := { s.adm with reports := s.adm.reports.filter (fun x => key x != key r) } }
        match dir with
        | some d =>
          if s.adm.dropped.contains (r.ticket, r.accepted) || decide (w.lanes < s.rd GOV_SCALE_MIN_LANES_LANES) || !s.reportLive r then s'
          else s'.decideScale r d w
        | none => s')

/-- SEL flipped in every replica (R170, step 3). -/
def State.flip (s : State) (f : Flip) : State :=
  let a := s.areaRead f.slot f.stage f.unit f.off 4
  match a.1 with
  | some b => a.2.areaWrite f.slot f.stage f.unit f.off (leBytes 4 (1 - leNat b % 2))
  | none => a.2

/-- SCALE_SLOT_FLIP (R170): the oldest decided flip whose context has no frame in flight; one of a context that has reached
END_OF_STREAM is forgotten. -/
def execScaleSlotFlip (s : State) : Out1 :=
  let idle := fun (f : Flip) => s.adm.flights.all (fun g => g.ctx != f.ctx)
  .next (match s.adm.flips.find? (fun f => s.roleHeld s.admCore && idle f) with
    | none => s
    | some f =>
      let x := s.ctx f.ctx
      let live := (x.st == 2 || x.st == 3) && !x.eosDone && x.slot == f.slot && x.fidx == f.fidx
      let s := { s with adm := { s.adm with flips := s.adm.flips.filter (fun g => g != f) } }
      if live then s.flip f else s)

end Sys2Proof.Machine
end

