-- ==== Sys2Proof/Machine/Dispatch.lean ====
section
/-! DEFINITION. The meaning of a command: one arm per constructor of Instr, each a direct call of its meaning. -/
namespace Sys2Proof.Machine

def exec (i : Instr) (s : State) : Host.Outcome State Fault Refusal :=
  match i with
  | .registerWrite m addr v => Sys2Proof.Machine.execRegisterWrite m addr v s
  | .rcRead m addr => Sys2Proof.Machine.execRcRead m addr s
  | .loadStart m => Sys2Proof.Machine.execLoadStart m s
  | .loadUnload m => Sys2Proof.Machine.execLoadUnload m s
  | .formeUnloaded slot => Sys2Proof.Machine.execFormeUnloaded slot s
  | .formeRelock slot => Sys2Proof.Machine.execFormeRelock slot s
  | .frameStart d k => Sys2Proof.Machine.execFrameStart d k s
  | .frameTicket d k => Sys2Proof.Machine.execFrameTicket d k s
  | .frameEnd d k => Sys2Proof.Machine.execFrameEnd d k s
  | .frameEndAborted d k => Sys2Proof.Machine.execFrameEndAborted d k s
  | .tileFrameEnd t => Sys2Proof.Machine.execTileFrameEnd t s
  | .endOfStream d k => Sys2Proof.Machine.execEndOfStream d k s
  | .tagReset d k => Sys2Proof.Machine.execTagReset d k s
  | .abort d k => Sys2Proof.Machine.execAbort d k s
  | .add t rd rs1 rs2 => Sys2Proof.Machine.execAdd t rd rs1 rs2 s
  | .sub t rd rs1 rs2 => Sys2Proof.Machine.execSub t rd rs1 rs2 s
  | .and t rd rs1 rs2 => Sys2Proof.Machine.execAnd t rd rs1 rs2 s
  | .or t rd rs1 rs2 => Sys2Proof.Machine.execOr t rd rs1 rs2 s
  | .xor t rd rs1 rs2 => Sys2Proof.Machine.execXor t rd rs1 rs2 s
  | .sll t rd rs1 rs2 => Sys2Proof.Machine.execSll t rd rs1 rs2 s
  | .srl t rd rs1 rs2 => Sys2Proof.Machine.execSrl t rd rs1 rs2 s
  | .sra t rd rs1 rs2 => Sys2Proof.Machine.execSra t rd rs1 rs2 s
  | .mul t rd rs1 rs2 => Sys2Proof.Machine.execMul t rd rs1 rs2 s
  | .mulhs t rd rs1 rs2 => Sys2Proof.Machine.execMulhs t rd rs1 rs2 s
  | .mulhu t rd rs1 rs2 => Sys2Proof.Machine.execMulhu t rd rs1 rs2 s
  | .min t rd rs1 rs2 => Sys2Proof.Machine.execMin t rd rs1 rs2 s
  | .max t rd rs1 rs2 => Sys2Proof.Machine.execMax t rd rs1 rs2 s
  | .minu t rd rs1 rs2 => Sys2Proof.Machine.execMinu t rd rs1 rs2 s
  | .maxu t rd rs1 rs2 => Sys2Proof.Machine.execMaxu t rd rs1 rs2 s
  | .slt t rd rs1 rs2 => Sys2Proof.Machine.execSlt t rd rs1 rs2 s
  | .sltu t rd rs1 rs2 => Sys2Proof.Machine.execSltu t rd rs1 rs2 s
  | .addi t rd rs1 imm => Sys2Proof.Machine.execAddi t rd rs1 imm s
  | .andi t rd rs1 imm => Sys2Proof.Machine.execAndi t rd rs1 imm s
  | .ori t rd rs1 imm => Sys2Proof.Machine.execOri t rd rs1 imm s
  | .xori t rd rs1 imm => Sys2Proof.Machine.execXori t rd rs1 imm s
  | .slli t rd rs1 sh => Sys2Proof.Machine.execSlli t rd rs1 sh s
  | .srli t rd rs1 sh => Sys2Proof.Machine.execSrli t rd rs1 sh s
  | .srai t rd rs1 sh => Sys2Proof.Machine.execSrai t rd rs1 sh s
  | .lui t rd imm => Sys2Proof.Machine.execLui t rd imm s
  | .lw t rd rs1 imm => Sys2Proof.Machine.execLw t rd rs1 imm s
  | .sw t rd rs1 imm => Sys2Proof.Machine.execSw t rd rs1 imm s
  | .lc t rd addr => Sys2Proof.Machine.execLc t rd addr s
  | .mfs t rd sel => Sys2Proof.Machine.execMfs t rd sel s
  | .mts t rs1 sel => Sys2Proof.Machine.execMts t rs1 sel s
  | .agwWrite t ag rs1 fld => Sys2Proof.Machine.execAgwWrite t ag rs1 fld s
  | .agwReset t ag => Sys2Proof.Machine.execAgwReset t ag s
  | .agwRestore t ag => Sys2Proof.Machine.execAgwRestore t ag s
  | .loopi t last count => Sys2Proof.Machine.execLoopi t last count s
  | .loopc t last addr => Sys2Proof.Machine.execLoopc t last addr s
  | .loopEnd t => Sys2Proof.Machine.execLoopEnd t s
  | .br t target => Sys2Proof.Machine.execBr t target s
  | .blc t loop cond imm target => Sys2Proof.Machine.execBlc t loop cond imm target s
  | .bck t cond addr target => Sys2Proof.Machine.execBck t cond addr target s
  | .endf t => Sys2Proof.Machine.execEndf t s
  | .vadd t o => Sys2Proof.Machine.execVadd t o s
  | .vsub t o => Sys2Proof.Machine.execVsub t o s
  | .vmul t o => Sys2Proof.Machine.execVmul t o s
  | .vmin t o => Sys2Proof.Machine.execVmin t o s
  | .vmax t o => Sys2Proof.Machine.execVmax t o s
  | .vand t o => Sys2Proof.Machine.execVand t o s
  | .vor t o => Sys2Proof.Machine.execVor t o s
  | .vxor t o => Sys2Proof.Machine.execVxor t o s
  | .vmov t o => Sys2Proof.Machine.execVmov t o s
  | .vmac t o => Sys2Proof.Machine.execVmac t o s
  | .vdup t o => Sys2Proof.Machine.execVdup t o s
  | .vshl t o => Sys2Proof.Machine.execVshl t o s
  | .vsrl t o => Sys2Proof.Machine.execVsrl t o s
  | .vsra t o => Sys2Proof.Machine.execVsra t o s
  | .vsrar t o => Sys2Proof.Machine.execVsrar t o s
  | .vwiden t o => Sys2Proof.Machine.execVwiden t o s
  | .vnarrow t o => Sys2Proof.Machine.execVnarrow t o s
  | .vcvtf t o => Sys2Proof.Machine.execVcvtf t o s
  | .vcvti t o => Sys2Proof.Machine.execVcvti t o s
  | .vact t o => Sys2Proof.Machine.execVact t o s
  | .vfcvt t o => Sys2Proof.Machine.execVfcvt t o s
  | .vld t vd ag => Sys2Proof.Machine.execVld t vd ag s
  | .vst t vs ag part => Sys2Proof.Machine.execVst t vs ag part s
  | .vbc t vd rs1 w => Sys2Proof.Machine.execVbc t vd rs1 w s
  | .fire t f => Sys2Proof.Machine.execFire t f s
  | .fireIssue t => Sys2Proof.Machine.execFireIssue t s
  | .pfmt t wf xf sfmt => Sys2Proof.Machine.execPfmt t wf xf sfmt s
  | .wld t ag page => Sys2Proof.Machine.execWld t ag page s
  | .wswp t => Sys2Proof.Machine.execWswp t s
  | .pscl t ag zl => Sys2Proof.Machine.execPscl t ag zl s
  | .pbias t ag => Sys2Proof.Machine.execPbias t ag s
  | .pscs t port dport => Sys2Proof.Machine.execPscs t port dport s
  | .req t r => Sys2Proof.Machine.execReq t r s
  | .cclr t c => Sys2Proof.Machine.execCclr t c s
  | .cpy t rs1 => Sys2Proof.Machine.execCpy t rs1 s
  | .copierJob t => Sys2Proof.Machine.execCopierJob t s
  | .cpyw t => Sys2Proof.Machine.execCpyw t s
  | .qopSignal t rs1 rs2 imm => Sys2Proof.Machine.execQopSignal t rs1 rs2 imm s
  | .qopWait t rs1 rs2 imm => Sys2Proof.Machine.execQopWait t rs1 rs2 imm s
  | .qopTest t rd rs1 imm => Sys2Proof.Machine.execQopTest t rd rs1 imm s
  | .qopReset t rs1 rs2 imm => Sys2Proof.Machine.execQopReset t rs1 rs2 imm s
  | .gdrop t port => Sys2Proof.Machine.execGdrop t port s
  | .nop t => Sys2Proof.Machine.execNop t s
  | .tileHalt m t => Sys2Proof.Machine.execTileHalt m t s
  | .tileStep m t => Sys2Proof.Machine.execTileStep m t s
  | .tileResume m t => Sys2Proof.Machine.execTileResume m t s
  | .tileClear m t => Sys2Proof.Machine.execTileClear m t s
  | .tokenArrival t port parityBad => Sys2Proof.Machine.execTokenArrival t port parityBad s
  | .loopTokenLanding t port => Sys2Proof.Machine.execLoopTokenLanding t port s
  | .galleyEgress src => Sys2Proof.Machine.execGalleyEgress src s
  | .creditReturn route recv => Sys2Proof.Machine.execCreditReturn route recv s
  | .steeringFire sw k => Sys2Proof.Machine.execSteeringFire sw k s
  | .deadlockSuspect slot => Sys2Proof.Machine.execDeadlockSuspect slot s
  | .scaleWatchReport => Sys2Proof.Machine.execScaleWatchReport s
  | .scaleSlotFlip => Sys2Proof.Machine.execScaleSlotFlip s
  | .feInputFrame => Sys2Proof.Machine.execFeInputFrame s
  | .feOutputFrame => Sys2Proof.Machine.execFeOutputFrame s
  | .facingFault e => Sys2Proof.Machine.execFacingFault e s
  | .roundOpen slot => Sys2Proof.Machine.execRoundOpen slot s
  | .roundEnd slot => Sys2Proof.Machine.execRoundEnd slot s
  | .spillDone slot stream => Sys2Proof.Machine.execSpillDone slot stream s
  | .refillStart slot cut => Sys2Proof.Machine.execRefillStart slot cut s
  | .tileReconfigure t => Sys2Proof.Machine.execTileReconfigure t s
  | .governorWindow replicas tj ack => Sys2Proof.Machine.execGovernorWindow replicas tj ack s
  | .admissionDecision => Sys2Proof.Machine.execAdmissionDecision s
  | .admitWaitExpired => Sys2Proof.Machine.execAdmitWaitExpired s
  | .deadlineExpired ticket => Sys2Proof.Machine.execDeadlineExpired ticket s
  | .thermalShed tj => Sys2Proof.Machine.execThermalShed tj s
  | .timeStep m v => Sys2Proof.Machine.execTimeStep m v s
  | .regionEntryWrite m v => Sys2Proof.Machine.execRegionEntryWrite m v s
  | .regionSubWrite m v => Sys2Proof.Machine.execRegionSubWrite m v s
  | .accessWrite m => Sys2Proof.Machine.execAccessWrite m s
  | .accessRead m => Sys2Proof.Machine.execAccessRead m s
  | .eccFlipArm m => Sys2Proof.Machine.execEccFlipArm m s
  | .eccFlipDisarm m => Sys2Proof.Machine.execEccFlipDisarm m s
  | .scrubStart m hard => Sys2Proof.Machine.execScrubStart m hard s
  | .scrubAbort m => Sys2Proof.Machine.execScrubAbort m s
  | .scrubDone => Sys2Proof.Machine.execScrubDone s
  | .streamStart m e => Sys2Proof.Machine.execStreamStart m e s
  | .streamStop m e => Sys2Proof.Machine.execStreamStop m e s
  | .streamResume m e => Sys2Proof.Machine.execStreamResume m e s
  | .streamSkip m e => Sys2Proof.Machine.execStreamSkip m e s
  | .streamKick m e => Sys2Proof.Machine.execStreamKick m e s
  | .streamWaitq e => Sys2Proof.Machine.execStreamWaitq e s
  | .streamDescDone e => Sys2Proof.Machine.execStreamDescDone e s
  | .streamPageAbsent e => Sys2Proof.Machine.execStreamPageAbsent e s
  | .streamDescError e => Sys2Proof.Machine.execStreamDescError e s
  | .mergeTransfer c => Sys2Proof.Machine.execMergeTransfer c s
  | .galleyDrop m => Sys2Proof.Machine.execGalleyDrop m s
  | .galleyReset m => Sys2Proof.Machine.execGalleyReset m s
  | .ingressGalleyWrite g data last ty => Sys2Proof.Machine.execIngressGalleyWrite g data last ty s
  | .netCfgWrite m port v => Sys2Proof.Machine.execNetCfgWrite m port v s
  | .netLinkChange port link up fec => Sys2Proof.Machine.execNetLinkChange port link up fec s
  | .netFrameReceive port link fcsOk frame => Sys2Proof.Machine.execNetFrameReceive port link fcsOk frame s
  | .auRelease ctx => Sys2Proof.Machine.execAuRelease ctx s
  | .jitterBufferCheck => Sys2Proof.Machine.execJitterBufferCheck s
  | .auDecode d out => Sys2Proof.Machine.execAuDecode d out s
  | .pictureWhole ctx => Sys2Proof.Machine.execPictureWhole ctx s
  | .ptpSend m port v => Sys2Proof.Machine.execPtpSend m port v s
  | .ptpTxDone port => Sys2Proof.Machine.execPtpTxDone port s
  | .ptpRxqPop m port => Sys2Proof.Machine.execPtpRxqPop m port s
  | .timePps => Sys2Proof.Machine.execTimePps s
  | .resultDatagramSend port g => Sys2Proof.Machine.execResultDatagramSend port g s
  | .ctxCfgWrite m off v => Sys2Proof.Machine.execCtxCfgWrite m off v s
  | .sportLinkChange aligned => Sys2Proof.Machine.execSportLinkChange aligned s
  | .sportRecordReceive come => Sys2Proof.Machine.execSportRecordReceive come s
  | .sportRecTimeout => Sys2Proof.Machine.execSportRecTimeout s
  | .sportRecordSend g => Sys2Proof.Machine.execSportRecordSend g s
  | .spXoffIn level => Sys2Proof.Machine.execSpXoffIn level s
  | .sportXoffStuck => Sys2Proof.Machine.execSportXoffStuck s
  | .burlLoad m => Sys2Proof.Machine.execBurlLoad m s
  | .burlRelease m => Sys2Proof.Machine.execBurlRelease m s
  | .burlUnload m => Sys2Proof.Machine.execBurlUnload m s
  | .burlGalleyPacket q => Sys2Proof.Machine.execBurlGalleyPacket q s
  | .burlBridgeTimeout q => Sys2Proof.Machine.execBurlBridgeTimeout q s
  | .burlPictureWhole q => Sys2Proof.Machine.execBurlPictureWhole q s
  | .burlCaptureArm m v => Sys2Proof.Machine.execBurlCaptureArm m v s
  | .burlCaptureDone => Sys2Proof.Machine.execBurlCaptureDone s
  | .ioInputChange c level => Sys2Proof.Machine.execIoInputChange c level s
  | .bankSupplyChange g v => Sys2Proof.Machine.execBankSupplyChange g v s
  | .sessionOpen h version => Sys2Proof.Machine.execSessionOpen h version s
  | .sessionClose h => Sys2Proof.Machine.execSessionClose h s
  | .regRead h addr n => Sys2Proof.Machine.execRegRead h addr n s
  | .regWrite h addr words => Sys2Proof.Machine.execRegWrite h addr words s
  | .memRead h addr n => Sys2Proof.Machine.execMemRead h addr n s
  | .memWrite h addr data => Sys2Proof.Machine.execMemWrite h addr data s
  | .quoin h idx op operand timeout => Sys2Proof.Machine.execQuoin h idx op operand timeout s
  | .quoinRequestTimeout mgmt => Sys2Proof.Machine.execQuoinRequestTimeout mgmt s
  | .eventMask h mask => Sys2Proof.Machine.execEventMask h mask s
  | .mgmtSessionTimeout => Sys2Proof.Machine.execMgmtSessionTimeout s
  | .usbBusReset disconnect => Sys2Proof.Machine.execUsbBusReset disconnect s
  | .usbEventTransfer => Sys2Proof.Machine.execUsbEventTransfer s
  | .mgmtEventDatagram => Sys2Proof.Machine.execMgmtEventDatagram s
  | .usbResultTransfer => Sys2Proof.Machine.execUsbResultTransfer s
  | .eventsLost mgmt => Sys2Proof.Machine.execEventsLost mgmt s
  | .quoinSignal m idx n => Sys2Proof.Machine.execQuoinSignal m idx n s
  | .quoinTest m idx => Sys2Proof.Machine.execQuoinTest m idx s
  | .quoinReset m idx v => Sys2Proof.Machine.execQuoinReset m idx v s
  | .quoinWaitSuccess idx => Sys2Proof.Machine.execQuoinWaitSuccess idx s
  | .ctxBind m => Sys2Proof.Machine.execCtxBind m s
  | .ctxStart m => Sys2Proof.Machine.execCtxStart m s
  | .ctxStop m => Sys2Proof.Machine.execCtxStop m s
  | .ctxUnbind m => Sys2Proof.Machine.execCtxUnbind m s
  | .contextStopped ctx => Sys2Proof.Machine.execContextStopped ctx s
  | .usbCtrlWrite m v => Sys2Proof.Machine.execUsbCtrlWrite m v s
  | .mgmtCfgWrite m v => Sys2Proof.Machine.execMgmtCfgWrite m v s
  | .mgmtAddrWrite m off v => Sys2Proof.Machine.execMgmtAddrWrite m off v s
  | .boot net => Sys2Proof.Machine.execBoot net s
  | .recoveryStart => Sys2Proof.Machine.execRecoveryStart s
  | .fwUpdateStart m => Sys2Proof.Machine.execFwUpdateStart m s
  | .fwCommit m => Sys2Proof.Machine.execFwCommit m s
  | .fwFlashWrite m ok => Sys2Proof.Machine.execFwFlashWrite m ok s
  | .mcRestart core cause => Sys2Proof.Machine.execMcRestart core cause s
  | .ledgerWriteRetry ok => Sys2Proof.Machine.execLedgerWriteRetry ok s
  | .attest m => Sys2Proof.Machine.execAttest m s
  | .attestDone => Sys2Proof.Machine.execAttestDone s
  | .debugUnlock m => Sys2Proof.Machine.execDebugUnlock m s
  | .powerOnReset => Sys2Proof.Machine.execPowerOnReset s
  | .resetN lowNs bootSel held => Sys2Proof.Machine.execResetN lowNs bootSel held s
  | .refclkLoss ns => Sys2Proof.Machine.execRefclkLoss ns s
  | .sysReset m v => Sys2Proof.Machine.execSysReset m v s
  | .pwrBlockReset m v => Sys2Proof.Machine.execPwrBlockReset m v s
  | .pwrBudgetWrite m v => Sys2Proof.Machine.execPwrBudgetWrite m v s
  | .pwrSlotPark m v => Sys2Proof.Machine.execPwrSlotPark m v s
  | .tilePark t => Sys2Proof.Machine.execTilePark t s
  | .bistGroupStart => Sys2Proof.Machine.execBistGroupStart s
  | .bistDone u cause => Sys2Proof.Machine.execBistDone u cause s
  | .bistWaitTimeout u => Sys2Proof.Machine.execBistWaitTimeout u s
  | .pwrRetain m => Sys2Proof.Machine.execPwrRetain m s
  | .retainEnter => Sys2Proof.Machine.execRetainEnter s
  | .pwrRun m => Sys2Proof.Machine.execPwrRun m s
  | .pwrShutdown m => Sys2Proof.Machine.execPwrShutdown m s
  | .pmbusPoll r => Sys2Proof.Machine.execPmbusPoll r s
  | .pwrTrip tj => Sys2Proof.Machine.execPwrTrip tj s
  | .tripAutoReturn tj => Sys2Proof.Machine.execTripAutoReturn tj s
  | .steer d k => Sys2Proof.Machine.execSteer d k s
  | .sportLaneLock lane lock => Sys2Proof.Machine.execSportLaneLock lane lock s
  | .sportAbortBlock => Sys2Proof.Machine.execSportAbortBlock s
  | .burlClockEdge clk => Sys2Proof.Machine.execBurlClockEdge clk s
  | .usbAttach vbus speed configured => Sys2Proof.Machine.execUsbAttach vbus speed configured s
  | .mgmtLinkChange up speed => Sys2Proof.Machine.execMgmtLinkChange up speed s
  | .dhcpLease ip mask gw => Sys2Proof.Machine.execDhcpLease ip mask gw s
  | .tapInstruction idx => Sys2Proof.Machine.execTapInstruction idx s
  | .funcReady b n => Sys2Proof.Machine.execFuncReady b n s

end Sys2Proof.Machine
end

