-- ==== Sys2Proof/Machine/Tick.lean ====
section
/-! DEFINITION. What happens where no command waits: what is in progress goes on, base time and device time move on (10 R239), and an
entry of the log reaches the mirror in HBM (16 R380). -/
namespace Sys2Proof.Machine

/-- The address of the log mirror (R380). -/
def mirrorBase : Nat := 0x03FC000000

/-- Entries of the log mirror (R380). -/
def mirrorSize : Nat := 2097150

/-- The header of the log mirror: MAGIC, HEAD and the power-on count, 64 bytes (R380). -/
def mirrorHeader (head powerOns : Nat) : List Byte :=
  leBytes 4 0x474F4C4D ++ leBytes 4 head ++ leBytes 4 powerOns ++ zeros 52

/-- The oldest entry that waits for the mirror written, with HEAD moved on (R380); log mirror writes wait in Retain (17
R397) and while HBM carries no traffic. -/
def State.mirrorOne (s : State) : State :=
  match s.log.mirror with
  | [] => s
  | e :: rest =>
    if s.domainOn 124 ∧ s.rd HBMC_CH_READY_READY = 0xFFFFFFFF ∧ s.power ≠ 2 then
      let h := s.rd FW_LOG_HEAD_HEAD
      let h' := if h + 1 = mirrorSize then 0 else h + 1
      let s := (s.write .hbm (mirrorBase + 64 + 32 * h) e.bytes s.heaCore).2
      let s := (s.write .hbm mirrorBase (mirrorHeader h' s.log.powerOns) s.heaCore).2
      let s := s.wr FW_LOG_HEAD_HEAD h'
      { s with log := { s.log with mirror := rest } }
    else s

/-- 4 ns of base time pass; device time follows at the rate of TIME_RATE, in units of 10^-9 ns (R239). -/
def State.tick (s : State) : State :=
  { s with base := (s.base + 4) % 2 ^ 64
           dev := s.dev + (4 * (1000000000 + signed 32 (s.rd TIME_RATE_PPB))).toNat }

/-- What is in progress goes on: a core held in reset returns (16 R374), a load runs to its end (01 R30, R34), a live update takes its
next step (16 R378), and a warm reset that waited for its flash write runs (17 R390). -/
def State.goOn (s : State) : State :=
  let s := s.coreReturns
  match s.ld with
  | some j => s.loadFinish j
  | none =>
    let s := s.updStep
    match s.pwr.warmDue with
    | some m => s.warmReset m
    | none => s

/-- One step with no command waiting (log entry 1). -/
def State.idle (s : State) : State := s.goOn.tick.mirrorOne

end Sys2Proof.Machine
end

