-- ==== Sys2Proof/Safety.lean ====
section
/-! DEFINITION. What counts as a safe state of the block, in the terms the statements use: every table is in its canonical
form, and the parts that the spec numbers are all there. -/
namespace Sys2Proof.Machine

/-- The canonical form of every memory of a tile. -/
def Tile.memWf (x : Tile) : Bool := x.sram.wf && x.gsram.wf && x.prog.wf

/-- The canonical form of every memory of the device (Tables 0-2 and 11-13). -/
def State.memWf (s : State) : Bool :=
  s.hbm.wf && s.commons.wf && s.msram.wf && s.flash.wf && s.tiles.all Tile.memWf

/-- The canonical form of the registers and the counts. -/
def State.tabWf (s : State) : Bool := twf regReset s.regs && twf (fun _ => (0 : Word)) s.quoins.count

/-- The parts of a tile: 16 scalar and 8 vector registers, 4 generators, 12 port galleys and 16 combiner banks (R43 to R46,
R52, R58). -/
def Tile.shape (x : Tile) : Bool :=
  x.core.s.length == 16 && x.core.v.length == 8 && x.core.ag.length == 4 && x.ports.g.length == 12 && x.plat.comb.length == 16

/-- The number of parts of each kind that the spec gives the block: 104 tiles, 8 forme slots, 36 engines and merge channels,
16 ingress and 256 result galleys, 2 network ports, 133 units with a health record, 4 lanes of the stream port each way. -/
def State.shape (s : State) : Bool :=
  s.tiles.length == 104 && s.slots.length == 8 && s.eng.length == 36 && s.ing.length == 16 && s.res.length == 256 &&
  s.net.length == 2 && s.tiles.all Tile.shape && s.health.units.length == 133 &&
  s.sport.rx.length == 4 && s.sport.tx.length == 4

/-- The whole invariant. -/
def State.inv (s : State) : Bool := s.memWf && s.tabWf && s.shape

/-- The state in which tile `t` executes an instruction: the tile is RUNNING with no instruction waiting, the end of a loop
body that was due is performed (R84), the program counter is at most 4,095, and the word fetched there had no uncorrectable
error (R50); a correctable one is written back. None where one of these fails. -/
def State.atIssue (s : State) (t : Nat) : Option State :=
  let b := if (s.core t).loopDue then s.modCore t SCore.endBody else s
  if s.ready t && decide ((b.core t).pc < 4096) then
    let r := b.fetch t
    if r.1.isSome then some r.2 else none
  else none

/-- Whether master `m` may write the word `v` to the register at `a` (R9, R146, R254): the target is reachable, the access
is granted, the address lies in a register window, and the register takes the value. -/
def State.mayWrite (s : State) (m a v : Nat) : Bool :=
  s.reachable m a 4 && s.granted m a 4 rightW && (place a 4 == .reg) && regAccepts a v

end Sys2Proof.Machine
end

