-- ==== Sys2Proof/Certificates/Slice0/Obligations.lean ====
section
/-! DEFINITION. The statements for the provers. Each formalises rules of spec/, named in its docstring; `s.atIssue t = some u` says
that tile t executes its next word in u, `s.mayWrite m a v` that a register write reaches its register, and every free value
stands for any value. -/
open Sys2Proof Sys2Proof.Machine

/-- The block takes the command at the front of its queue and runs it on the rest of the queue (the model's queue, log entry
1). -/
def Obligations.StepRunsFrontCommand : Prop :=
  ∀ (s : State) (c : Instr) (rest : List Instr), s.pending = c :: rest →
    step s = exec c { s with pending := rest }

/-- With nothing commanded and no load, update, restart of a core or reset in progress, a step passes one period of base time,
device time follows at the rate of TIME_RATE, and the mirror may take one event record (the model's choice, log entry 1): the
tiles, the slots, the fabric, the frames, the quoins and the contexts stand still. -/
def Obligations.EmptyQueueIdles : Prop :=
  ∀ s : State, s.pending = [] → s.ld = none → s.fw.down = none → s.fw.upd = none → s.pwr.warmDue = none → ∃ t, step s = .next t ∧ t.base = (s.base + 4) % 2 ^ 64 ∧
    t.dev = s.dev + (4 * (1000000000 + signed 32 (s.rd TIME_RATE_PPB))).toNat ∧ t.pending = [] ∧
    t.tiles = s.tiles ∧ t.slots = s.slots ∧ t.fab = s.fab ∧ t.adm = s.adm ∧ t.quoins = s.quoins ∧ t.ctxs = s.ctxs

/-- After power-on reset every table of the device is in its canonical form and every part that the spec numbers is there. -/
def Obligations.ResetMeetsInvariant : Prop :=
 State.reset.inv = true

/-- No step takes a table of the device out of its canonical form or loses one of the numbered parts. -/
def Obligations.StepKeepsInvariant : Prop :=
  ∀ s t : State, s.inv = true → step s = .next t → t.inv = true

/-- The words of the spindle core (Tables 3-1 to 3-10, 4-3, 4-4, 4-6): every instruction that exists at the level decodes from
its word. -/
def Obligations.SpindleWordsRoundTrip : Prop :=
  ∀ (l2 : Bool) (t : Nat) (i : Instr), spindleWf l2 t i = true →
    encodeSpindle l2 i < 2 ^ 32 ∧ decodeSpindle l2 t (encodeSpindle l2 i) = some i

/-- Two instructions of one level never share a word: a word that decodes is the word of what it decodes to, bit for bit. -/
def Obligations.SpindleWordsExact : Prop :=
  ∀ (l2 : Bool) (t w : Nat) (i : Instr), w < 2 ^ 32 → decodeSpindle l2 t w = some i → i ≠ .nop t →
    spindleWf l2 t i = true ∧ encodeSpindle l2 i = w

/-- Words written out bit by bit from Tables 3-1 to 3-10 decode to the instructions they spell. A major opcode that neither
Table 3-2 nor Table 4-2 lists spells no instruction. -/
def Obligations.SpindleWordsDecode : Prop :=
  (decodeSpindle false 3 0b00000100010010001100000000000000 = some (.add 3 1 2 3) ∧
  decodeSpindle false 3 0b00000100010010001100000000001001 = some (.mulhs 3 1 2 3) ∧
  decodeSpindle false 3 0b00001000010010111111111111111111 = some (.addi 3 1 2 0x3FFFF) ∧
  decodeSpindle false 3 0b00011000010010100000000000000111 = some (.srai 3 1 2 7) ∧
  decodeSpindle false 3 0b01000000000000010100000000000011 = some (.loopi 3 5 3) ∧
  decodeSpindle false 3 0b01010001000000001001000000000111 = some (.bck 3 1 9 7) ∧
  decodeSpindle true 3 0b01100000101001101110000000010111 = some (.vcvti 3 ⟨1, 2, 3, 1, 3, false, 0⟩) ∧
  decodeSpindle false 3 0b01101010110010000000000000000000 = some (.vst 3 5 2 1) ∧
  decodeSpindle false 3 0b10000000000001000110010010101000 =
    some (.fire 3 ⟨1, 1, true, false, 2, 5, false, true, false, false, false⟩) ∧
  decodeSpindle false 3 0b10010010000000000000000000000000 = some (.pscl 3 2 false) ∧
  decodeSpindle true 3 0b10011001001100011010010101000000 =
    some (.req 3 (.l2 4 3 1 true 2 5 false true false)) ∧
  decodeSpindle false 3 0b10110000010010000010000000000101 = some (.qopTest 3 1 2 5) ∧
  decodeSpindle false 3 0b00110111000000000000000000001100 = some (.agwRestore 3 3) ∧
  decodeSpindle false 3 0b11111100000000000000000000000000 = some (.nop 3)) ∧
  (∀ (l2 : Bool) (t w : Nat),
    bits w 26 6 ∉ [0x01, 0x02, 0x03, 0x04, 0x05, 0x06, 0x07, 0x08, 0x09, 0x0A, 0x0B, 0x0C, 0x0D, 0x10, 0x11, 0x12, 0x13, 0x14,
      0x15, 0x18, 0x19, 0x1A, 0x1B, 0x20, 0x21, 0x22, 0x23, 0x24, 0x25, 0x26, 0x27, 0x28, 0x29, 0x2A, 0x2B, 0x2C, 0x3F] →
    decodeSpindle l2 t w = none)

/-- Table 3-3 and R78: what each scalar instruction leaves in rd. A write to s0 is discarded by `setS` (R44); the core goes on
to the next word. -/
def Obligations.ScalarResults : Prop :=
  ∀ (s u : State) (t : Nat) (rd a b : BitVec 4) (k : BitVec 18) (n : BitVec 5) (m : BitVec 22), s.atIssue t = some u →
    let x := (u.core t).sreg a
    let y := (u.core t).sreg b
    let put := fun (v : Word) => Host.Outcome.next (φ := Fault) (ρ := Refusal) (u.complete t (fun c => c.setS rd v))
    exec (.add t rd a b) s = put (x + y) ∧ exec (.sub t rd a b) s = put (x - y) ∧
    exec (.and t rd a b) s = put (x &&& y) ∧ exec (.or t rd a b) s = put (x ||| y) ∧
    exec (.xor t rd a b) s = put (x ^^^ y) ∧
    exec (.sll t rd a b) s = put (x <<< (y.toNat % 32)) ∧ exec (.srl t rd a b) s = put (x >>> (y.toNat % 32)) ∧
    exec (.sra t rd a b) s = put (x.sshiftRight (y.toNat % 32)) ∧
    exec (.mul t rd a b) s = put (BitVec.ofNat 32 (x.toNat * y.toNat)) ∧
    exec (.mulhs t rd a b) s = put ((x.signExtend 64 * y.signExtend 64).extractLsb' 32 32) ∧
    exec (.mulhu t rd a b) s = put ((x.zeroExtend 64 * y.zeroExtend 64).extractLsb' 32 32) ∧
    exec (.min t rd a b) s = put (if x.slt y then x else y) ∧ exec (.max t rd a b) s = put (if x.slt y then y else x) ∧
    exec (.minu t rd a b) s = put (if x.ult y then x else y) ∧ exec (.maxu t rd a b) s = put (if x.ult y then y else x) ∧
    exec (.slt t rd a b) s = put (if x.slt y then 1 else 0) ∧ exec (.sltu t rd a b) s = put (if x.ult y then 1 else 0) ∧
    exec (.addi t rd a k) s = put (x + k.signExtend 32) ∧ exec (.andi t rd a k) s = put (x &&& k.zeroExtend 32) ∧
    exec (.ori t rd a k) s = put (x ||| k.zeroExtend 32) ∧ exec (.xori t rd a k) s = put (x ^^^ k.zeroExtend 32) ∧
    exec (.slli t rd a n) s = put (x <<< n.toNat) ∧ exec (.srli t rd a n) s = put (x >>> n.toNat) ∧
    exec (.srai t rd a n) s = put (x.sshiftRight n.toNat) ∧ exec (.lui t rd m) s = put (m.zeroExtend 32 * 1024)

/-- What a scalar arithmetic instruction leaves alone when it completes: every other tile, every part of the device outside
the tiles, and of its own tile everything but the core; of the core everything but rd, the program counter and the mark of a
loop's end. Where the word fetched needs no correction and no loop's end was due, `u` is the state before it. -/
def Obligations.ScalarFrame : Prop :=
  ∀ (s u : State) (t : Nat) (rd a b : BitVec 4) (k : BitVec 18) (n : BitVec 5) (m : BitVec 22), s.atIssue t = some u →
    ((s.core t).loopDue = false → (∃ v, (s.tile t).prog.look (.prog t) (s.core t).pc = .good v) → u = s) ∧
    ∀ i ∈ [Instr.add t rd a b, .sub t rd a b, .and t rd a b, .or t rd a b, .xor t rd a b, .sll t rd a b, .srl t rd a b,
        .sra t rd a b, .mul t rd a b, .mulhs t rd a b, .mulhu t rd a b, .min t rd a b, .max t rd a b, .minu t rd a b,
        .maxu t rd a b, .slt t rd a b, .sltu t rd a b, .addi t rd a k, .andi t rd a k, .ori t rd a k, .xori t rd a k,
        .slli t rd a n, .srli t rd a n, .srai t rd a n, .lui t rd m],
      ∃ w, exec i s = .next w ∧ w = { u with tiles := w.tiles } ∧ (∀ t', t' ≠ t → w.tile t' = u.tile t') ∧
        w.tile t = { u.tile t with core := w.core t } ∧
        (let c := u.core t
         let d := w.core t
         d.v = c.v ∧ d.ag = c.ag ∧ d.loops = c.loops ∧ d.flags = c.flags ∧ d.tbase = c.tbase ∧ d.leaky = c.leaky ∧
         d.pc = c.pc + 1 ∧ ∀ r : BitVec 4, r ≠ rd → d.sreg r = c.sreg r)

/-- R44: s0 reads as 0 and a write to it is discarded; every other scalar and every vector register reads as the value last
written to it and keeps it under writes of others; lane i of width w of a vector register occupies bits w × (i + 1) − 1 to w ×
i. -/
def Obligations.RegistersAndLanes : Prop :=
  ∀ (c : SCore) (r q : BitVec 4) (x : Word) (a b : BitVec 3) (y : Vec) (n i : Nat) (l : List Nat),
    c.s.length = 16 → c.v.length = 8 →
    c.sreg 0 = 0 ∧ c.setS 0 x = c ∧ (r ≠ 0 → (c.setS r x).sreg r = x) ∧ (q ≠ r → (c.setS r x).sreg q = c.sreg q) ∧
    (c.setV a y).vreg a = y ∧ (b ≠ a → (c.setV a y).vreg b = c.vreg b) ∧
    (n ∈ [4, 8, 16, 32] → (vlanes n y).length = 512 / n ∧
      (i < 512 / n → (vlanes n y).getD i 0 = (y.extractLsb' (n * i) n).toNat ∧
        (l.length = 512 / n → ((ofLanes n l).extractLsb' (n * i) n).toNat = l.getD i 0 % 2 ^ n)))

/-- R79: LW and SW at an offset outside tile SRAM, at one not aligned, at a readable word, and at an uncorrectable one. R80,
R81: LC, MFS and MTS, with the specials of Table 3-4 that a program reads and writes and the values that MTS refuses. -/
def Obligations.LoadStoreConstants : Prop :=
  (∀ (s u w : State) (t : Nat) (rd a : BitVec 4) (k : BitVec 18) (bs : List Byte), s.atIssue t = some u →
    let off := ((u.core t).sreg a + k.signExtend 32).toNat
    let data := leBytes 4 ((u.core t).sreg rd).toNat
    (0x17FFFF < off → exec (.lw t rd a k) s = .next (u.stageFault t 1 (some off)) ∧
      exec (.sw t rd a k) s = .next (u.stageFault t 1 (some off))) ∧
    (off ≤ 0x17FFFF → off % 4 ≠ 0 → exec (.lw t rd a k) s = .next (u.stageFault t 2 (some off)) ∧
      exec (.sw t rd a k) s = .next (u.stageFault t 2 (some off))) ∧
    (off ≤ 0x17FFFF → off % 4 = 0 →
      (u.sramRead t off 4 = (some bs, w) →
        exec (.lw t rd a k) s = .next (w.complete t (fun c => c.setS rd (BitVec.ofNat 32 (leNat bs))))) ∧
      (u.sramRead t off 4 = (none, w) → exec (.lw t rd a k) s = .next (w.stageFault t 6 (some off))) ∧
      (u.sramWrite t off data = (true, w) → exec (.sw t rd a k) s = .next (w.complete t (fun c => c))) ∧
      (u.sramWrite t off data = (false, w) → exec (.sw t rd a k) s = .next (w.stageFault t 6 (some off))))) ∧
  (∀ (s u w : State) (t v : Nat) (rd a : BitVec 4) (k : BitVec 12) (e : BitVec 5), s.atIssue t = some u →
    let c := u.core t
    let put := fun (x : Word) => Host.Outcome.next (φ := Fault) (ρ := Refusal) (u.complete t (fun c => c.setS rd x))
    let set := fun (f : SCore → SCore) => Host.Outcome.next (φ := Fault) (ρ := Refusal) (u.complete t f)
    let x := c.sreg a
    (u.readWord (.prog t) k.toNat (u.tileMaster t) = (some v, w) →
      exec (.lc t rd k) s = .next (w.complete t (fun c => c.setS rd (BitVec.ofNat 32 v)))) ∧
    (u.readWord (.prog t) k.toNat (u.tileMaster t) = (none, w) → exec (.lc t rd k) s = .next (w.stageFault t 7)) ∧
    exec (.mfs t rd 0) s = put (BitVec.ofNat 32 (b2n c.flags.sat + 2 * b2n c.flags.nan)) ∧
    exec (.mfs t rd 1) s = put (BitVec.ofNat 32 c.tbase) ∧ exec (.mfs t rd 2) s = put (BitVec.ofNat 32 c.leaky) ∧
    exec (.mfs t rd 9) s = put (BitVec.ofNat 32 (u.rd (TILE_CFG_ISA_LEVEL.tile t))) ∧
    (∀ n < 4, exec (.mfs t rd (BitVec.ofNat 5 (4 + n))) s =
      put (BitVec.ofNat 32 (((c.loops.reverse[n]?).map (·.index)).getD 0))) ∧
    ((e = 11 ∨ 16 ≤ e.toNat) → exec (.mfs t rd e) s = .next (u.illegal t)) ∧
    (4 ≤ e.toNat → exec (.mts t a e) s = .next (u.illegal t)) ∧
    (x.toNat < 4 → exec (.mts t a 0) s = set (fun c => { c with flags := ⟨x.getLsbD 0, x.getLsbD 1⟩ })) ∧
    (4 ≤ x.toNat → exec (.mts t a 0) s = .next (u.illegal t)) ∧
    (x.toNat % 64 = 0 → x.toNat ≤ 0x17FF00 → exec (.mts t a 1) s = set (fun c => { c with tbase := x.toNat })) ∧
    (x.toNat % 64 ≠ 0 ∨ 0x17FF00 < x.toNat → exec (.mts t a 1) s = .next (u.illegal t)) ∧
    (bits x.toNat 23 8 ≠ 255 → exec (.mts t a 2) s = set (fun c => { c with leaky := x.toNat })) ∧
    (bits x.toNat 23 8 = 255 → exec (.mts t a 2) s = .next (u.illegal t)))

/-- What a memory holds after a write, read byte by byte: the bytes stored, and every other byte as before. It holds of every
memory in its canonical form without stored bit errors, with no mask armed (R259, R260, R263). -/
def Obligations.WriteChangesItsBytes : Prop :=
  ∀ (s : State) (i : MemId) (a m x : Nat) (bs : List Byte), s.inv = true →
    (s.mem i).flips = [] → s.rd ECC_FLIP_CTRL_ARMED = 0 →
    (∀ t, i = .sram t ∨ i = .gsram t ∨ i = .prog t → t < s.tiles.length) →
    let held := fun (u : State) => if (u.mem i).isValid i (x / i.cw) then (u.mem i).byte x else 0
    (s.write i a bs m).1 = true ∧
    held (s.write i a bs m).2 = (if a ≤ x ∧ x < a + bs.length then bs.getD (x - a) 0 else held s)

/-- R82: AGW writes BASE, an N_d or an S_d in its range, RESET and RESTORE; a value out of range is illegal and leaves the
generator unchanged. R47: the offset of a draw is the base plus every index times its stride; a draw steps the indices like an
odometer, and sets WRAP where the last one returns to 0. -/
def Obligations.Generators : Prop :=
  (∀ (s u : State) (t d : Nat) (g : BitVec 2) (a : BitVec 4), s.atIssue t = some u →
    let x := (u.core t).sreg a
    let old := (u.core t).gen g.toNat
    let zero := [0, 0, 0, 0, 0]
    let put := fun (n : Ag) => Host.Outcome.next (φ := Fault) (ρ := Refusal) (u.complete t (fun c => c.setGen g.toNat n))
    (x.toNat ≤ 0x17FFFF → exec (.agwWrite t g a 0) s = put { old with base := x.toNat }) ∧
    (0x17FFFF < x.toNat → exec (.agwWrite t g a 0) s = .next (u.illegal t)) ∧
    (d < 5 → 1 ≤ x.toNat → x.toNat ≤ 65536 → exec (.agwWrite t g a (BitVec.ofNat 4 (1 + d))) s =
      put { old with n := old.n.set d x.toNat, i := zero, wrap := false }) ∧
    (d < 5 → x.toNat = 0 ∨ 65536 < x.toNat →
      exec (.agwWrite t g a (BitVec.ofNat 4 (1 + d))) s = .next (u.illegal t)) ∧
    (d < 5 → -2097152 ≤ x.toInt → x.toInt ≤ 2097151 → exec (.agwWrite t g a (BitVec.ofNat 4 (6 + d))) s =
      put { old with s := old.s.set d x.toInt }) ∧
    (d < 5 → x.toInt < -2097152 ∨ 2097151 < x.toInt →
      exec (.agwWrite t g a (BitVec.ofNat 4 (6 + d))) s = .next (u.illegal t)) ∧
    exec (.agwReset t g) s = put { old with i := zero, wrap := false } ∧
    exec (.agwRestore t g) s = put (u.agConfig t g.toNat)) ∧
  (∀ (b n0 n1 n2 n3 n4 i0 i1 i2 i3 i4 : Nat) (s0 s1 s2 s3 s4 : Int) (w : Bool),
    i0 < n0 → i1 < n1 → i2 < n2 → i3 < n3 → i4 < n4 →
    let g : Ag := ⟨b, [n0, n1, n2, n3, n4], [s0, s1, s2, s3, s4], [i0, i1, i2, i3, i4], w⟩
    let count := fun (i j k l m : Nat) => i + n0 * (j + n1 * (k + n2 * (l + n3 * m)))
    g.offset = b + i0 * s0 + i1 * s1 + i2 * s2 + i3 * s3 + i4 * s4 ∧
    ∃ j0 j1 j2 j3 j4, g.next = ⟨b, [n0, n1, n2, n3, n4], [s0, s1, s2, s3, s4], [j0, j1, j2, j3, j4],
        w || count i0 i1 i2 i3 i4 + 1 == n0 * (n1 * (n2 * (n3 * n4)))⟩ ∧
      j0 < n0 ∧ j1 < n1 ∧ j2 < n2 ∧ j3 < n3 ∧ j4 < n4 ∧
      count j0 j1 j2 j3 j4 = (count i0 i1 i2 i3 i4 + 1) % (n0 * (n1 * (n2 * (n3 * n4)))))

/-- R83: LOOPI and LOOPC open a loop, skip it for a count of 0, and are refused beyond depth four (first), at the end word of
an open loop, or with an end word that is not ahead or lies outside the innermost loop. R84: after the end word of the
innermost loop its index is raised; the body repeats while the index is below the count, and otherwise the loop closes, as do
the enclosing loops that end there and are done. -/
def Obligations.Loops : Prop :=
  (∀ (s u w : State) (t v : Nat) (e k : BitVec 12) (n : BitVec 14), s.atIssue t = some u →
    let c := u.core t
    let fits := c.pc < e.toNat ∧ (∀ l ∈ c.loops, l.last ≠ c.pc) ∧ (∀ l ∈ c.loops.head?, e.toNat ≤ l.last)
    let opened := fun (u : State) (count : Nat) => u.modCore t (fun c =>
      { c with loops := ⟨c.pc + 1, e.toNat, 0, count⟩ :: c.loops, pc := c.pc + 1 })
    let skipped := fun (u : State) => u.modCore t (fun c =>
      { c with pc := e.toNat + 1, loopDue := c.loops.head?.any (fun l => l.last == e.toNat) })
    (4 ≤ c.loops.length → exec (.loopi t e n) s = .next (u.stageFault t 4) ∧
      exec (.loopc t e k) s = .next (u.stageFault t 4)) ∧
    (c.loops.length < 4 → fits → n ≠ 0 → exec (.loopi t e n) s = .next (opened u n.toNat)) ∧
    (c.loops.length < 4 → fits → n = 0 → exec (.loopi t e n) s = .next (skipped u)) ∧
    (c.loops.length < 4 → ¬ fits → exec (.loopi t e n) s = .next (u.illegal t)) ∧
    (c.loops.length < 4 → u.readWord (.prog t) k.toNat (u.tileMaster t) = (some v, w) → fits → v < 2 ^ 24 → w = u →
      exec (.loopc t e k) s = .next (if v = 0 then skipped u else opened u v)) ∧
    (c.loops.length < 4 → u.readWord (.prog t) k.toNat (u.tileMaster t) = (some v, w) → ¬ fits → w = u →
      exec (.loopc t e k) s = .next (u.illegal t)) ∧
    (c.loops.length < 4 → u.readWord (.prog t) k.toNat (u.tileMaster t) = (some v, w) → 2 ^ 24 ≤ v →
      exec (.loopc t e k) s = .next (w.illegal t)) ∧
    (c.loops.length < 4 → u.readWord (.prog t) k.toNat (u.tileMaster t) = (none, w) →
      exec (.loopc t e k) s = .next (w.stageFault t 7))) ∧
  (∀ (s : State) (t : Nat) (l : Loop) (done rest : List Loop), s.ready t = true → (s.core t).loopDue = true →
    (s.core t).loops = done ++ rest → (∀ d ∈ done, d.last + 1 = (s.core t).pc ∧ d.count ≤ d.index + 1) →
    (rest = [] ∨ (∃ r rs, rest = r :: rs ∧ r.last + 1 ≠ (s.core t).pc) →
      1 ≤ (s.core t).pc →
      exec (.loopEnd t) s = .next (s.modCore t (fun c => { c with loops := rest, loopDue := false }))) ∧
    (∀ rs, rest = l :: rs → l.last + 1 = (s.core t).pc → l.index + 1 < l.count →
      exec (.loopEnd t) s = .next (s.modCore t (fun c =>
        { c with loops := { l with index := l.index + 1 } :: rs, pc := l.first, loopDue := false }))))

/-- R85: BR, BLC and BCK. A branch at the end word of an open loop is illegal, as is a taken branch that leaves the innermost
loop's body or names no open loop. -/
def Obligations.Branches : Prop :=
  ∀ (s u w : State) (t v : Nat) (g k : BitVec 12) (n q : BitVec 2) (m : BitVec 10) (l : Loop), s.atIssue t = some u →
    let c := u.core t
    let atEnd := ∃ x ∈ c.loops, x.last = c.pc
    let inside := ∀ x ∈ c.loops.head?, x.first ≤ g.toNat ∧ g.toNat ≤ x.last
    let go := fun (p : Nat) => Host.Outcome.next (φ := Fault) (ρ := Refusal) (u.modCore t (fun c => { c with pc := p }))
    let taken := (q = 0 ∧ l.index = m.toNat) ∨ (q = 1 ∧ l.index ≠ m.toNat) ∨ (q = 2 ∧ l.index = 0) ∨
      (q = 3 ∧ l.index + 1 = l.count)
    (atEnd → exec (.br t g) s = .next (u.illegal t) ∧ exec (.blc t n q m g) s = .next (u.illegal t) ∧
      exec (.bck t q k g) s = .next (u.illegal t)) ∧
    (¬ atEnd → inside → exec (.br t g) s = go g.toNat) ∧
    (¬ atEnd → ¬ inside → exec (.br t g) s = .next (u.illegal t)) ∧
    (c.loops.reverse[n.toNat]? = none → exec (.blc t n q m g) s = .next (u.illegal t)) ∧
    (c.loops.reverse[n.toNat]? = some l → 2 ≤ q.toNat → m ≠ 0 → exec (.blc t n q m g) s = .next (u.illegal t)) ∧
    (¬ atEnd → c.loops.reverse[n.toNat]? = some l → (2 ≤ q.toNat → m = 0) →
      (taken → inside → exec (.blc t n q m g) s = go g.toNat) ∧
      (taken → ¬ inside → exec (.blc t n q m g) s = .next (u.illegal t)) ∧
      (¬ taken → exec (.blc t n q m g) s = go (c.pc + 1))) ∧
    (2 ≤ q.toNat → exec (.bck t q k g) s = .next (u.illegal t)) ∧
    (¬ atEnd → q.toNat < 2 → u.readWord (.prog t) k.toNat (u.tileMaster t) = (some v, w) → w = u →
      ((v = 0 ↔ q = 0) → inside → exec (.bck t q k g) s = go g.toNat) ∧
      ((v = 0 ↔ q = 0) → ¬ inside → exec (.bck t q k g) s = .next (u.illegal t)) ∧
      (¬ (v = 0 ↔ q = 0) → exec (.bck t q k g) s = go (c.pc + 1))) ∧
    (¬ atEnd → q.toNat < 2 → u.readWord (.prog t) k.toNat (u.tileMaster t) = (none, w) →
      exec (.bck t q k g) s = .next (w.stageFault t 7))

/-- Table 3-6 and R87 to R91, R117, R118: a VOP whose fields are legal at the tile's level computes its lanes, writes them to
vd, joins their SAT and NAN to FLAGS, and the core goes on; one whose fields are reserved is illegal. R88: an integer lane of
VADD, VSUB, VMUL and VMAC is exact, then reduced modulo 2^width with S = 0, and with S = 1 held to the range of its type with
SAT where that changed it. R91: mode 3 of VACT replaces each byte lane by the byte of tile SRAM at TBASE plus the lane's code;
an offset outside tile SRAM and an uncorrectable byte are stage faults, with the offset of the first. -/
def Obligations.VectorLanes : Prop :=
  (∀ (s u : State) (t : Nat) (o : VecOp), s.atIssue t = some u →
    let n := laneBits o.w.toNat
    let ty := o.ty.toNat
    let m := o.imm.toNat
    let d := vlanes n ((u.core t).vreg o.vd)
    let a := vlanes n ((u.core t).vreg o.va)
    let b := vlanes n ((u.core t).vreg o.vb)
    let r := u.away t
    let raw := fun (l : List Nat) => l.map (fun x => (⟨x, false, false⟩ : LaneOut))
    let runs := fun (i : Instr) (fn : Nat) (l : List LaneOut) =>
      (u.vopOk t fn o = true → exec i s = .next (u.complete t (fun c =>
        { c with v := setAt c.v o.vd.toNat (ofLanes n (l.map (·.code))),
                 flags := c.flags.join (l.any (·.sat)) (l.any (·.nan)) }))) ∧
      (u.vopOk t fn o = false → exec i s = .next (u.illegal t))
    runs (.vadd t o) 0 (List.zipWith (laneArith 0 r n ty o.sat) a b) ∧
    runs (.vsub t o) 1 (List.zipWith (laneArith 1 r n ty o.sat) a b) ∧
    runs (.vmul t o) 2 (List.zipWith (laneArith 2 r n ty o.sat) a b) ∧
    runs (.vmin t o) 3 (List.zipWith (lanePick true n ty) a b) ∧
    runs (.vmax t o) 4 (List.zipWith (lanePick false n ty) a b) ∧
    runs (.vand t o) 5 (raw (List.zipWith (· &&& ·) a b)) ∧
    runs (.vor t o) 6 (raw (List.zipWith (· ||| ·) a b)) ∧
    runs (.vxor t o) 7 (raw (List.zipWith (· ^^^ ·) a b)) ∧
    runs (.vmov t o) 8 (raw a) ∧
    runs (.vmac t o) 9 ((List.range (512 / n)).map (fun i => laneMac r n ty o.sat (d.getD i 0) (a.getD i 0) (b.getD i 0))) ∧
    runs (.vdup t o) 10 (raw ((List.range (512 / n)).map (fun i => a.getD (m * (512 / n / 2) + i / 2) 0))) ∧
    runs (.vshl t o) 16 (a.map (fun x => intOut n ty o.sat (laneInt n ty x * (2 ^ m : Nat)))) ∧
    runs (.vsrl t o) 17 (raw (a.map (· / 2 ^ m))) ∧
    runs (.vsra t o) 18 (raw (a.map (fun x => wrap n (laneInt n ty x / (2 ^ m : Nat))))) ∧
    runs (.vsrar t o) 19 (a.map (fun x => laneSrar r n x m)) ∧
    runs (.vwiden t o) 20 (widenLanes n ty m ((u.core t).vreg o.va)) ∧
    runs (.vnarrow t o) 21 (narrowLanes n ty o.sat ((u.core t).vreg o.va) ((u.core t).vreg o.vb)) ∧
    runs (.vcvtf t o) 22 (a.map (laneCvtf r ty)) ∧ runs (.vcvti t o) 23 (a.map (laneCvti r (laneFmt ty))) ∧
    runs (.vfcvt t o) 25 (a.map (laneFcvt r ty o.sat)) ∧
    (m ≠ 3 → runs (.vact t o) 24 (if m = 0 then a.map (laneRelu n ty) else if m = 1 then List.zipWith (laneClamp n ty) a b
      else a.map (laneLeaky r n ty (u.core t).leaky)))) ∧
  (∀ (n t d a b : Nat) (away : Bool), 0 < n → t < 2 →
    let num := fun (x : Nat) => if t = 0 then ((x % 2 ^ n : Nat) : Int) else (BitVec.ofNat n x).toInt
    let lo : Int := if t = 0 then 0 else -(2 ^ (n - 1) : Nat)
    let hi : Int := if t = 0 then (2 ^ n : Nat) - 1 else (2 ^ (n - 1) : Nat) - 1
    let exact := fun (l : Bool → LaneOut) (x : Int) =>
      l false = ⟨(x % (2 ^ n : Nat)).toNat, false, false⟩ ∧
      (lo ≤ x → x ≤ hi → l true = ⟨(x % (2 ^ n : Nat)).toNat, false, false⟩) ∧
      (hi < x → l true = ⟨(hi % (2 ^ n : Nat)).toNat, true, false⟩) ∧
      (x < lo → l true = ⟨(lo % (2 ^ n : Nat)).toNat, true, false⟩)
    exact (fun s => laneArith 0 away n t s a b) (num a + num b) ∧
    exact (fun s => laneArith 1 away n t s a b) (num a - num b) ∧
    exact (fun s => laneArith 2 away n t s a b) (num a * num b) ∧
    exact (fun s => laneMac away n t s d a b) (num d + num a * num b)) ∧
  (∀ (s u w : State) (t x : Nat) (o : VecOp) (f : Nat → Byte) (done rest : List Nat), s.atIssue t = some u →
    u.vopOk t 24 o = true → o.imm = 3 →
    let b := (u.core t).tbase
    let codes := vlanes 8 ((u.core t).vreg o.va)
    let reads := fun (l : List Nat) => ∀ y ∈ l, u.sramRead t (b + y) 1 = (some [f y], u)
    let inside := ∀ y ∈ codes, b + y ≤ 0x17FFFF
    (inside → reads codes → exec (.vact t o) s = .next (u.complete t (fun c =>
      c.setV o.vd (ofLanes 8 (codes.map (fun y => (f y).toNat)))))) ∧
    (codes = done ++ x :: rest → (∀ y ∈ done, b + y ≤ 0x17FFFF) → 0x17FFFF < b + x →
      exec (.vact t o) s = .next (u.stageFault t 1 (some ((b + x : Nat) : Int)))) ∧
    (inside → codes = done ++ x :: rest → reads done → u.sramRead t (b + x) 1 = (none, w) →
      exec (.vact t o) s = .next (w.stageFault t 6 (some ((b + x : Nat) : Int)))))

/-- R90: VLD, VST and VBC. The generator advances only where the access is made. -/
def Obligations.VectorMemory : Prop :=
  ∀ (s u w : State) (t : Nat) (v : BitVec 3) (g p q : BitVec 2) (a : BitVec 4) (bs : List Byte) (ok : Bool),
    s.atIssue t = some u →
    let x := (u.core t).gen g.toNat
    let src := leBytes 64 ((u.core t).vreg v).toNat
    let part := if p = 0 then src else if p = 1 then src.take 32 else src.drop 32
    let size : Int := if p = 0 then 64 else 32
    let inside := 0 ≤ x.offset ∧ x.offset ≤ 0x17FFFF
    (¬ inside → exec (.vld t v g) s = .next (u.stageFault t 1 (some x.offset)) ∧
      (p ≠ 3 → exec (.vst t v g p) s = .next (u.stageFault t 1 (some x.offset)))) ∧
    (inside → x.offset % 64 ≠ 0 → exec (.vld t v g) s = .next (u.stageFault t 2 (some x.offset))) ∧
    (inside → p ≠ 3 → x.offset % size ≠ 0 → exec (.vst t v g p) s = .next (u.stageFault t 2 (some x.offset))) ∧
    (inside → x.offset % 64 = 0 → u.sramRead t x.offset.toNat 64 = (some bs, w) →
      exec (.vld t v g) s = .next (w.complete t (fun c =>
        (c.setV v (BitVec.ofNat 512 (leNat bs))).setGen g.toNat (c.gen g.toNat).next))) ∧
    (inside → x.offset % 64 = 0 → u.sramRead t x.offset.toNat 64 = (none, w) →
      exec (.vld t v g) s = .next (w.stageFault t 6 (some x.offset))) ∧
    (inside → p ≠ 3 → x.offset % size = 0 → u.sramWrite t x.offset.toNat part = (ok, w) →
      exec (.vst t v g p) s = .next (w.complete t (fun c => c.setGen g.toNat (c.gen g.toNat).next))) ∧
    exec (.vst t v g 3) s = .next (u.illegal t) ∧
    (q ≠ 3 ∨ u.level2 t = true → exec (.vbc t v a q) s = .next (u.complete t (fun c => c.setV v
      (ofLanes (laneBits q.toNat) (List.replicate (512 / laneBits q.toNat) ((u.core t).sreg a).toNat))))) ∧
    (u.level2 t = false → exec (.vbc t v a 3) s = .next (u.illegal t))

/-- R92 to R95, R100, R107, R114: the platen's formats, pages, scales and biases, and CCLR. R110: PSCS waits for two tokens at
its scale port, then sets K, ZW and ZX from the scale block they carry and arms the block-tag check with the tag that both
bear. -/
def Obligations.PlatenSetup : Prop :=
  (∀ (s u w : State) (t : Nat) (g : BitVec 2) (wf xf c : BitVec 4) (sf z page : Bool) (rows : List Nat),
    s.atIssue t = some u →
    let p := u.plat t
    let x := (u.core t).gen g.toNat
    let row := fun (f : Nat) => fmtRow f
    let done := fun (w : State) (f : PlatenSt → PlatenSt) (n : Nat) => Host.Outcome.next (φ := Fault) (ρ := Refusal)
      ((w.modPlat t f).complete t (fun c => c.setGen g.toNat ((c.gen g.toNat).after n)))
    let still := fun (f : PlatenSt → PlatenSt) => Host.Outcome.next (φ := Fault) (ρ := Refusal)
      ((u.modPlat t f).complete t (fun c => c))
    let paired := (row wf.toNat).isSome = true ∧ row wf.toNat = row xf.toNat
    let read := fun (n : Nat) => (x.draws n).all (fun o => (drawCheck 64 o).isNone) = true ∧
      u.readDraws t (x.draws n) = (rows, none, w)
    (u.level2 t = false → wf.toNat < 4 → xf.toNat < 4 → paired →
      exec (.pfmt t wf xf false) s = still (fun p => { p with wf := wf.toNat, xf := xf.toNat })) ∧
    (u.level2 t = true → paired →
      exec (.pfmt t wf xf sf) s = still (fun p => { p with wf := wf.toNat, xf := xf.toNat, sfmt := sf })) ∧
    (¬ paired → exec (.pfmt t wf xf sf) s = .next (u.illegal t)) ∧
    exec (.wswp t) s = still (fun p => { p with active1 := !p.active1 }) ∧
    exec (.cclr t c) s = still (fun p => { p with comb := p.comb.set c.toNat (List.replicate 32 0) }) ∧
    (page = p.active1 → exec (.wld t g page) s = .next (u.illegal t)) ∧
    (page ≠ p.active1 → read (pageRows p.wf) → exec (.wld t g page) s =
      done w (fun p => if page then { p with page1 := ⟨false, (u.plat t).wf, rows⟩ }
        else { p with page0 := ⟨false, (u.plat t).wf, rows⟩ }) (pageRows p.wf)) ∧
    (read 2 → exec (.pbias t g) s =
      done w (fun p => { p with bv := lanes16 (rows.getD 0 0) ++ lanes16 (rows.getD 1 0) }) 2) ∧
    (u.level2 t = false → read 2 → w.level2 t = false → exec (.pscl t g false) s =
      done w (fun p => { p with k := lanes16 (rows.getD 0 0) ++ lanes16 (rows.getD 1 0) }) 2) ∧
    (u.level2 t = true → read (if z then 3 else 2) → w.level2 t = true →
      (z = true → (drawZw (rows.getD 2 0)).all (zpOk (w.plat t).wf) = true) → exec (.pscl t g z) s =
      done w (fun p => { p with k := lanes16 (rows.getD 0 0) ++ lanes16 (rows.getD 1 0), stream := false,
                                zw := if z then drawZw (rows.getD 2 0) else p.zw }) (if z then 3 else 2)) ∧
    (u.level2 t = false → exec (.pscl t g true) s = .next (u.illegal t))) ∧
  (∀ (s u w w' : State) (t x y : Nat) (p d : BitVec 3), s.atIssue t = some u →
    let c := u.portCfg t p.toNat
    let tags := ((u.tile t).ports.gal p.toNat).tags
    let blk := scaleBlock (w'.plat t).wf (w'.plat t).sfmt x y
    let ready := u.level2 t = true ∧ c.en = true ∧ (u.portCfg t d.toNat).en = true ∧ c.net = 0 ∧ c.count = 2 ∧ p ≠ d
    (u.level2 t = false → exec (.pscs t p d) s = .next (u.illegal t)) ∧
    (u.level2 t = true → (c.en = false ∨ (u.portCfg t d.toNat).en = false) →
      exec (.pscs t p d) s = .next (u.stageFault t 8)) ∧
    (ready → u.frameAvail t p.toNat < 2 → exec (.pscs t p d) s = .next (u.stall t (.pscs t p d))) ∧
    (ready → 2 ≤ u.frameAvail t p.toNat → tags.getD 0 0 ≠ tags.getD 1 0 →
      exec (.pscs t p d) s = .next (u.stageFault t 0x11)) ∧
    (ready → 2 ≤ u.frameAvail t p.toNat → tags.getD 0 0 = tags.getD 1 0 → u.peekToken t p.toNat 0 = (some x, w) →
      w.peekToken t p.toNat 1 = (some y, w') → scaleBlockOk (w'.plat t).wf (w'.plat t).xf blk = true →
      exec (.pscs t p d) s = .next (((((w'.popTokens t p.toNat 2).modPlat t (fun q => { q with
        k := scaleK (w'.away t) blk, zw := blk.zw, zx := blk.zx, stag := tags.getD 0 0, dp := d.toNat,
        stream := true })).complete t (fun c => c)).unstall t))))

/-- R64, R65, R96: a FIRE that passes its checks waits with nothing taken; FIRE_ISSUE then moves COUNT tokens per named port,
inputs first, and performs its platen operation on what the ports have moved. -/
def Obligations.FireWaitsThenIssues : Prop :=
  ∀ (s u w w' : State) (t x code : Nat) (f : FireOp) (addr : Option Int),
    (s.atIssue t = some u → u.fireFault t f = some (code, addr) →
      exec (.fire t f) s = .next (u.stageFault t code addr)) ∧
    (s.atIssue t = some u → u.fireFault t f = none → u.fireable t f = true → u.tagDiffers t f = false →
      exec (.fire t f) s = .next (u.modCore t (fun c => { c with waiting := some (.fire t f) }))) ∧
    (s.atIssue t = some u → u.fireFault t f = none → u.fireable t f = false → t < u.tiles.length →
      ∃ v, exec (.fire t f) s = .next v ∧ (v.core t).waiting = some (.fire t f) ∧ (v.tile t).st = .stalled ∧
        (v.tile t).ports = (u.tile t).ports ∧ (v.tile t).plat = (u.tile t).plat) ∧
    (s.atIssue t = some u → u.fireFault t f = none → u.fireable t f = true → u.tagDiffers t f = true →
      exec (.fire t f) s = .next (u.stageFault t 0x11)) ∧
    (s.dueFire t = none → exec (.fireIssue t) s = .next s) ∧
    (s.dueFire t = some f → s.tagDiffers t f = true → exec (.fireIssue t) s = .next (s.stageFault t 0x11)) ∧
    (∀ e, s.dueFire t = some f → s.tagDiffers t f = false → s.movePorts t (firePorts f) = (some e, w) →
      exec (.fireIssue t) s = .next (w.stageFault t 6 e.addr)) ∧
    (s.dueFire t = some f → s.tagDiffers t f = false → s.movePorts t (firePorts f) = (none, w) → f.p = true →
      w.fireX t f = (none, w') → exec (.fireIssue t) s =
        .next (w'.stageFault t 6 (some ((w.core t).gen (f.xr.toNat % 4)).offset))) ∧
    (s.dueFire t = some f → s.tagDiffers t f = false → s.movePorts t (firePorts f) = (none, w) → f.p = false →
      exec (.fireIssue t) s = .next (w.fireDone t)) ∧
    (s.dueFire t = some f → s.tagDiffers t f = false → s.movePorts t (firePorts f) = (none, w) → f.p = true →
      w.fireX t f = (some x, w') → exec (.fireIssue t) s = .next ((w'.platenOp t f x).fireDone t))

/-- R99, R115, R160 to R163: REQ. Its operands are those that the level's word names where the word is legal there; with
operands in range it requantises the 32 lanes of its combiner bank with their biases, writes the codes packed to the low bytes
of vd or to the next draw, joins SAT and NAN to FLAGS, clears the bank and the core goes on. With ACT 3 the header of the
table and the entry that each lane needs are read well; where they are not, and for a draw that is not legal, the stage fault
of the cause is raised (which address it shows is the model's choice, log entry 68). Tables 3-9 and 4-4, R99, R115: the
operands that a legal REQ word names at each level, and what the end of a REQ leaves. -/
def Obligations.Requantise : Prop :=
  (∀ (s u w : State) (t i : Nat) (r : ReqOp) (a : ReqArgs) (h : List Byte) (e : Nat → List Byte) (done rest : List Nat),
    s.atIssue t = some u → h.length = 64 → (∀ k, (e k).length = 8) →
    let b := (u.core t).tbase
    let tab := actTableOf (h ++ (List.range 256).flatMap e)
    let lanes := u.reqLanes t a tab
    let codes := packCodes a.ofmt (lanes.map (·.code))
    let size := reqBytes a.ofmt
    let off := ((u.core t).gen (a.dreg % 4)).offset
    let legal := u.reqArgs t r = some a ∧ a.ok = true
    let inside := b + 2111 ≤ 0x17FFFF
    let header := inside ∧ u.sramRead t b 64 = (some h, u)
    let needs := (u.reqValues t a).filterMap (tableSeg (u.away t) tab)
    let read := fun (l : List Nat) => ∀ k ∈ l, u.sramRead t (b + 64 + 8 * k) 8 = (some (e k), u)
    let table := a.act ≠ 3 ∨ (header ∧ actTableOk (h ++ zeros 2048) = true ∧ read needs)
    let goes := fun (v : State) => Host.Outcome.next (φ := Fault) (ρ := Refusal) (v.reqDone t a lanes)
    (u.reqArgs t r = none → exec (.req t r) s = .next (u.illegal t)) ∧
    (u.reqArgs t r = some a → a.ok = false → exec (.req t r) s = .next (u.illegal t)) ∧
    (legal → table → a.dst = false → exec (.req t r) s = goes (u.modCore t (fun c =>
      c.setV (BitVec.ofNat 3 a.dreg) (lowBytes size (c.vreg (BitVec.ofNat 3 a.dreg)) codes)))) ∧
    (legal → table → a.dst = true → drawCheck size off = none → exec (.req t r) s =
      goes ((u.sramWrite t off.toNat (leBytes size codes)).2.modCore t (fun c => c.draw (a.dreg % 4)))) ∧
    (legal → table → a.dst = true → ∀ f, drawCheck size off = some f →
      exec (.req t r) s = .next (u.stageFault t f.code (some off))) ∧
    (legal → a.act = 3 → ¬ inside → exec (.req t r) s = .next (u.stageFault t 1 (some (b + 2111)))) ∧
    (legal → a.act = 3 → inside → u.sramRead t b 64 = (none, w) → exec (.req t r) s = .next (w.stageFault t 6 (some b))) ∧
    (legal → a.act = 3 → header → actTableOk (h ++ zeros 2048) = false → exec (.req t r) s = .next (u.stageFault t 3)) ∧
    (legal → a.act = 3 → header → actTableOk (h ++ zeros 2048) = true → needs = done ++ i :: rest → read done →
      u.sramRead t (b + 64 + 8 * i) 8 = (none, w) →
      exec (.req t r) s = .next (w.stageFault t 6 (some ((b + 64 + 8 * i : Nat) : Int))))) ∧
  (∀ (u : State) (t : Nat) (c : BitVec 4) (act : BitVec 2) (o : BitVec 3) (q rsc rzp rcl rq : BitVec 4) (d : BitVec 3)
    (dst ix fr sw : Bool) (a : ReqArgs) (l : List ReqLane),
    let k := u.core t
    let clamp := fun (full : Bool) (n : Nat) (x : Word) =>
      if full then fmtRange n else ((x.extractLsb' 0 16).toInt, (x.extractLsb' 16 16).toInt)
    let zero := fun (x : Word) => (x.extractLsb' 0 16).toInt
    let place := (dst = true → d.toNat < 4) ∧ (ix = true → k.loops ≠ [])
    let v := u.reqDone t a l
    (u.level2 t = false → o.toNat < 4 → place → (o = 3 → rzp = 0 ∧ rcl = 0) →
      u.reqArgs t (.l1 c act o dst d rsc rzp rcl ix) = some ⟨k.bankIx c.toNat ix, act.toNat, o.toNat, dst, d.toNat,
        (k.sreg rsc).toNat, zero (k.sreg rzp), (clamp (rcl == 0) o.toNat (k.sreg rcl)).1,
        (clamp (rcl == 0) o.toNat (k.sreg rcl)).2, none⟩) ∧
    (u.level2 t = true → 0 < rq.toNat → rq.toNat < 14 → q.toNat < 9 → place →
      (floatFmt q.toNat = true → fr = true ∧ zero (k.sreg (rq + 1)) = 0) →
      u.reqArgs t (.l2 c act q dst d rq fr sw ix) = some ⟨k.bankIx c.toNat ix, act.toNat, q.toNat, dst, d.toNat,
        (k.sreg rq).toNat, zero (k.sreg (rq + 1)), (clamp fr q.toNat (k.sreg (rq + 2))).1,
        (clamp fr q.toNat (k.sreg (rq + 2))).2, if sw then some rq.toNat else none⟩) ∧
    (u.level2 t = false → 4 ≤ o.toNat ∨ ¬ place → u.reqArgs t (.l1 c act o dst d rsc rzp rcl ix) = none) ∧
    (u.level2 t = true → rq = 0 ∨ 14 ≤ rq.toNat ∨ 9 ≤ q.toNat ∨ ¬ place → u.reqArgs t (.l2 c act q dst d rq fr sw ix) = none) ∧
    (t < u.tiles.length → a.bank < (u.plat t).comb.length →
      (v.plat t).comb.getD a.bank [] = List.replicate 32 0 ∧ (∀ n, n ≠ a.bank → (v.plat t).comb[n]? = (u.plat t).comb[n]?) ∧
      (v.core t).pc = k.pc + 1 ∧ (v.core t).flags = k.flags.join (l.any (·.sat)) (l.any (·.nan)) ∧ (v.core t).v = k.v ∧
      v = { u with tiles := v.tiles }))

/-- R100, R174 to R179: CPY holds a job for its descriptor and waits while two are held; the copier works on the oldest, unit
by unit in the job's order, and ends it after its last or at an uncorrectable read; a unit of MODE 0 is one 64-byte
destination row, each byte element of it the source byte that its tap reads or FILL; CPYW waits until no job is held. -/
def Obligations.CopierJobs : Prop :=
  ∀ (s u w : State) (t n bad : Nat) (a : BitVec 4) (bs : List Byte) (j : CopyJob) (rest : List CopyJob)
    (h : List (List Nat)) (x : Nat × Nat × Nat) (f : Nat → Byte),
    let off := ((u.core t).sreg a).toNat
    let d := copyDesc j.desc
    let left := d.units.drop j.done
    let run := s.copyUnits t d j.held (left.take n)
    let turn := exec (.copierJob ⟨t, n⟩) s
    let els := (List.range 64).map (fun k => 64 * x.2.1 + k)
    (s.atIssue t = some u → 0x17FFFF < off → exec (.cpy t a) s = .next (u.stageFault t 1 (some off))) ∧
    (s.atIssue t = some u → off ≤ 0x17FFFF → off % 64 ≠ 0 → exec (.cpy t a) s = .next (u.stageFault t 2 (some off))) ∧
    (s.atIssue t = some u → off ≤ 0x17FFFF → off % 64 = 0 → 2 ≤ (u.tile t).jobs.length →
      exec (.cpy t a) s = .next (u.stall t (.cpy t a))) ∧
    (s.atIssue t = some u → off ≤ 0x17FFFF → off % 64 = 0 → (u.tile t).jobs.length < 2 →
      u.sramRead t off 64 = (some bs, w) → (copyDesc bs).ok = true → (copyDesc bs).top ≤ 0x17FFFF →
      exec (.cpy t a) s = .next (((w.modTile t (fun x =>
        { x with jobs := x.jobs ++ [⟨bs, (w.core t).pc, 0, []⟩] })).complete t (fun c => c)).unstall t)) ∧
    (s.atIssue t = some u → off ≤ 0x17FFFF → off % 64 = 0 → (u.tile t).jobs.length < 2 →
      u.sramRead t off 64 = (some bs, w) → (copyDesc bs).ok = false → exec (.cpy t a) s = .next (w.illegal t)) ∧
    (s.atIssue t = some u → (u.tile t).jobs = [] → exec (.cpyw t) s = .next (u.complete t (fun c => c))) ∧
    (s.atIssue t = some u → (u.tile t).jobs ≠ [] → exec (.cpyw t) s = .next (u.stall t (.cpyw t))) ∧
    ((s.tile t).jobs = [] → turn = .next s) ∧
    ((s.tile t).jobs = j :: rest → run = (.ok h, w) → left.length ≤ n →
      turn = .next ((w.modTile t (fun x => { x with jobs := rest })).retryCopy t)) ∧
    ((s.tile t).jobs = j :: rest → run = (.ok h, w) → n < left.length →
      turn = .next (w.modTile t (fun x => { x with jobs := { j with done := j.done + n, held := h } :: rest }))) ∧
    ((s.tile t).jobs = j :: rest → run = (.error bad, w) →
      turn = .next ((w.modTile t (fun x => { x with jobs := [] })).stageFaultAt t j.pc 6 (some bad))) ∧
    (d.mode = 0 → d.elem = 1 → (∀ e ∈ els, ∀ b ∈ d.source x.1 e, s.sramRead t b 1 = (some [f b], s)) →
      s.copyUnit t d [] x = (.ok [], (s.sramWrite t (d.entry x.1 + 64 * x.2.1) (els.map (fun e =>
        (d.source x.1 e).elim (BitVec.ofNat 8 d.fill) f))).2))

/-- R101, R102, R120: the quoin instructions under the access table of the tile's slot; an index of 2^17 or more and a refused
access are TILE_QUOIN_DENIED; RESET is reserved at level 2. R73, R119, R105: NOP only goes on; GDROP is reserved at level 1,
faults on a disabled port, and otherwise discards the rest of the packet in progress. -/
def Obligations.QuoinInstructions : Prop :=
  (∀ (s u w v : State) (t : Nat) (rd a b : BitVec 4) (k : BitVec 12), s.atIssue t = some u →
    let i := ((u.core t).sreg a + k.zeroExtend 32).toNat
    let n := ((w.core t).sreg b).toNat
    let m := u.tileMaster t
    let may := fun (off right : Nat) => i < 2 ^ 17 ∧ u.accessCheck m (0x0A10000000 + 16 * i + off) 4 right = (true, w)
    let denied := fun (off right : Nat) => i < 2 ^ 17 ∧ u.accessCheck m (0x0A10000000 + 16 * i + off) 4 right = (false, w)
    (2 ^ 17 ≤ i → exec (.qopSignal t a b k) s = .next (u.stageFault t 9) ∧
      exec (.qopWait t a b k) s = .next (u.stageFault t 9) ∧ exec (.qopTest t rd a k) s = .next (u.stageFault t 9)) ∧
    (denied 4 rightW → exec (.qopSignal t a b k) s = .next (w.stageFault t 9)) ∧
    (may 4 rightW → exec (.qopSignal t a b k) s =
      .next ((w.qsignal (w.tileMaster t) i n).complete t (fun c => c))) ∧
    (may 0 rightW → w.qwait i n (.tile t) = (true, v) → exec (.qopWait t a b k) s = .next (v.complete t (fun c => c))) ∧
    (may 0 rightW → w.qwait i n (.tile t) = (false, v) →
      exec (.qopWait t a b k) s = .next (v.stall t (.qopWait t a b k))) ∧
    (may 0 rightR → exec (.qopTest t rd a k) s = .next ((w.settle i).complete t (fun c =>
      c.setS rd (BitVec.ofNat 32 ((w.settle i).qcount i))))) ∧
    (u.level2 t = true → exec (.qopReset t a b k) s = .next (u.illegal t)) ∧
    (u.level2 t = false → may 0 rightW →
      exec (.qopReset t a b k) s = .next (((w.settle i).setCount i n).complete t (fun c => c)))) ∧
  (∀ (s u : State) (t : Nat) (p : BitVec 3), s.atIssue t = some u →
    exec (.nop t) s = .next (u.complete t (fun c => c)) ∧
    (u.level2 t = false → exec (.gdrop t p) s = .next (u.illegal t)) ∧
    (u.level2 t = true → (u.portCfg t p.toNat).en = false → exec (.gdrop t p) s = .next (u.stageFault t 8)) ∧
    (u.level2 t = true → (u.portCfg t p.toNat).en = true →
      exec (.gdrop t p) s = .next ((u.dropPacket t p.toNat).2.complete t (fun c => c))))

/-- R69, steps 1 to 3: what a stage fault with a code other than TILE_PROG_ECC leaves: the first fault in the tile's fault
registers and only OVERFLOW for a later one, its event, and the abort of the frame that the tile holds. -/
def Obligations.StageFaultRecorded : Prop :=
  ∀ (s : State) (t code : Nat) (addr : Option Int) (f : TFrame), s.inv = true → t < 104 → code < 32 → code ≠ 7 →
    s.rd LOAD_IMP_CTRL_FAULT_SCAN = 0 →
    let w := s.stageFault t code addr
    let a := match addr with
      | some x => 2 ^ 31 + offsetBits x
      | none => 0
    (s.rd (TILE_FAULT_VALID.tile t) = 0 → (s.tile t).ctl.frame = none →
      w.rd (TILE_FAULT_VALID.tile t) = 1 ∧ w.rd (TILE_FAULT_CODE.tile t) = code ∧
      w.rd (TILE_FAULT_PC_PC.tile t) = (s.core t).pc % 4096 ∧ w.reg 0 (TILE_FAULT_ADDR_OFFSET.tile t).addr = a % 2 ^ 32 ∧
      w.tiles = s.tiles) ∧
    (s.rd (TILE_FAULT_VALID.tile t) = 1 → (s.tile t).ctl.frame = none →
      w.rd (TILE_FAULT_OVERFLOW.tile t) = 1 ∧ w.rd (TILE_FAULT_CODE.tile t) = s.rd (TILE_FAULT_CODE.tile t) ∧
      w.rd (TILE_FAULT_PC_PC.tile t) = s.rd (TILE_FAULT_PC_PC.tile t) ∧
      w.reg 0 (TILE_FAULT_ADDR_OFFSET.tile t).addr = s.reg 0 (TILE_FAULT_ADDR_OFFSET.tile t).addr) ∧
    ((s.tile t).ctl.frame = none → ∃ e, w.log.ring.head? = some e ∧ e.code = 0x200 + code ∧ e.source = 0x100 + t ∧
      (s.host.usb.lost = 0 → s.host.mgmt.lost = 0 → e.seq = s.log.seq) ∧ e.time = s.now ∧ e.a2 = a) ∧
    ((s.tile t).ctl.frame = some f → f.aborted = false → (s.tile t).st ≠ .halted →
      (w.tile t).ctl.frame = some { f with aborted := true } ∧ (w.tile t).st = .draining ∧
      (w.core t).waiting = none ∧ (w.core t).loops = [])

/-- R71, R259: the debug commands of a tile. HALT, STEP and RESUME need the halt controls to be accepted; HALT keeps the state
it came from, RESUME returns to it, and an instruction that waited goes on where its condition has come true meanwhile (R75);
STEP executes the word at the program counter, whatever it does, and halts again; CLEAR takes every valid bit of an IDLE
tile's SRAM. Otherwise the write is refused. -/
def Obligations.TileDebugCommands : Prop :=
  ∀ (s : State) (m t w : Nat) (i : Instr),
    let a := tileCtrlAddr t
    let ok := fun (u : State) => Host.Outcome.next (φ := Fault) (ρ := Refusal) (u.answer (.ok []))
    let run := s.modTile t (fun x => { x with st := .running })
    (s.mayWrite m a 1 = true → s.haltOk t = true → (s.tile t).st ≠ .halted →
      exec (.tileHalt m t) s = ok (s.modTile t (fun x => { x with st := .halted, back := x.st }))) ∧
    (s.mayWrite m a 2 = true → s.haltOk t = true → (s.tile t).st = .halted →
      exec (.tileResume m t) s = ok ((((s.modTile t (fun x => { x with st := x.back })).retryPscs t).retryCopy t).ctlGo t)) ∧
    (s.mayWrite m a 4 = true → s.haltOk t = true → t < s.tiles.length → (s.tile t).st = .halted →
      (s.tile t).back = .running → (s.tile t).ctl.frame.isSome = true → (s.core t).waiting = none →
      (s.core t).loopDue = false → (s.core t).pc < 4096 → (s.tile t).prog.look (.prog t) (s.core t).pc = .good w →
      decodeSpindle (s.level2 t) t w = some i →
      (∃ v x, exec i run = .next v ∧ exec (.fireIssue t) v = .next x ∧ exec (.tileStep m t) s = ok (x.halt t)) ∧
      (i = .nop t → exec (.tileStep m t) s = ok (s.modCore t (fun c => { c with
        pc := c.pc + 1, loopDue := c.loops.head?.any (fun l => l.last == c.pc) })))) ∧
    (s.mayWrite m a 4 = true → s.haltOk t = false → exec (.tileStep m t) s = .next (s.refuse m a)) ∧
    (s.mayWrite m a 8 = true → (s.tile t).st = .idle → exec (.tileClear m t) s = ok (s.clearAll (.sram t))) ∧
    (s.mayWrite m a 1 = true → s.haltOk t = false → exec (.tileHalt m t) s = .next (s.refuse m a)) ∧
    (s.mayWrite m a 8 = true → (s.tile t).st ≠ .idle → exec (.tileClear m t) s = .next (s.refuse m a))

/-- R131 to R137: the token at the head of sub-channel A of an input is taken by the command that names its type, where its
node may take it, and by no other; a frame end that is taken frees its source. One that arrives with bits changed acts as the
word it has become (Table 5-6), and with its parity broken or a reserved type it is lost (R131; what a unit other than a tile
does then is the model's choice, log entry 67). R136: an ABORT is taken whatever stands on sub-channel A: a tile that holds
the frame aborts it and passes the ABORT on once; for a frame that has left it passes it on; any other it keeps in its pending
table and passes on. -/
def Obligations.ControlTokens : Prop :=
  (∀ (s : State) (d : Node) (c : CtlOp) (i n sel : Nat) (r : CtlRoute) (rest : List CtlTok) (tok : CtlTok),
    s.ctlInto d c.k = some i → s.fab.ctl[i]? = some r → r.a = tok :: rest → (d = .fe → s.absorbAll = s) →
    let v := (s.touch r.slot).modCtl i (fun r => { r with a := rest })
    let w := match tok.received c.flip with
      | some x => v.nodeTake d c.k r x
      | none => v.ctlLost d c.k c.flip
    (s.mayTake d c.k r tok = true →
      (tok = .start n → exec (.frameStart d c) s = .next w) ∧ (tok = .ticket n → exec (.frameTicket d c) s = .next w) ∧
      (tok = .steer n sel → exec (.steer d c) s = .next w) ∧ (tok = .eos n → exec (.endOfStream d c) s = .next w) ∧
      (tok = .tagReset → exec (.tagReset d c) s = .next w) ∧
      (tok = .frameEnd n false → exec (.frameEnd d c) s = .next (w.endSent r.src)) ∧
      (tok = .frameEnd n true → exec (.frameEndAborted d c) s = .next (w.endSent r.src))) ∧
    (s.mayTake d c.k r tok = false → exec (.frameStart d c) s = .next s ∧ exec (.frameTicket d c) s = .next s ∧
      exec (.steer d c) s = .next s ∧ exec (.endOfStream d c) s = .next s ∧ exec (.tagReset d c) s = .next s ∧
      exec (.frameEnd d c) s = .next s ∧ exec (.frameEndAborted d c) s = .next s) ∧
    ((∀ m, tok ≠ .start m) → exec (.frameStart d c) s = .next s) ∧
    ((∀ m, tok ≠ .frameEnd m false) → exec (.frameEnd d c) s = .next s) ∧
    (c.flip = 0 → tok.received c.flip = some tok) ∧
    (∀ b < 17, c.flip = 2 ^ b → tok.received c.flip = none ∧ ∀ t, d = .tile t →
      v.ctlLost d c.k c.flip = (v.inc LOAD_FAB_PARITY_COUNT).disorder t)) ∧
  (∀ (s : State) (t i n : Nat) (o : CtlOp) (r : CtlRoute) (rest : List Nat), s.ctlInto (.tile t) o.k = some i →
    s.fab.ctl[i]? = some r → r.x = n :: rest → o.flip = 0 →
    let u := (s.touch r.slot).modCtl i (fun r => { r with x := rest })
    let c := (u.tile t).ctl
    let held := ∃ f, c.frame = some f ∧ f.ticket = n
    ((∃ f, c.frame = some f ∧ f.ticket = n ∧ f.aborted = true) → exec (.abort (.tile t) o) s = .next u) ∧
    ((∃ f, c.frame = some f ∧ f.ticket = n ∧ f.aborted = false) →
      exec (.abort (.tile t) o) s = .next ((u.sendX (ctlOut t) n).abortHere t)) ∧
    (¬ held → n ∈ c.past → exec (.abort (.tile t) o) s = .next (u.sendX (ctlOut t) n)) ∧
    (¬ held → n ∉ c.past → n ∈ c.pending → exec (.abort (.tile t) o) s = .next u) ∧
    (¬ held → n ∉ c.past → n ∉ c.pending → c.pending.length < 64 → exec (.abort (.tile t) o) s =
      .next ((u.modTile t (fun x => { x with ctl := { x.ctl with pending := x.ctl.pending ++ [n] } })).sendX (ctlOut t) n)))

/-- R135, R51: once FRAME_START and FRAME_TICKET are on every enabled control input, a tile between frames starts the frame:
the core at ENTRY with its generators as configured, no loop open and FLAGS 0, the frame held, and the start, ticket and
STEERs passed on. R134: a frame end taken at control input k of a tile marks the write position of every input port in that
input's PORT_MASK and of no other. R86, R39: ENDF is illegal in a loop; else it waits until every copier job is done and the
frame's end is on every enabled input, and TILE_FRAME_END ends the frame once everything that the tile shipped has left it. -/
def Obligations.TileFrames : Prop :=
  (∀ (s : State) (t fidx ticket : Nat), t < s.tiles.length → s.between t = true → (s.tile t).st = .waitFrame →
    s.ctlInputs (.tile t) ≠ [] → (∀ k ∈ s.ctlInputs (.tile t), (s.ctlIn t k).start = some fidx ∧
      (s.ctlIn t k).ticket = some ticket ∧ (s.ctlIn t k).ended = none) →
    (s.tile t).ctl.pending = [] → (s.tile t).ctl.abortNext = false → s.unusable t = false →
    let w := s.tryStart t
    (w.tile t).st = .running ∧ (w.tile t).ctl.frame = some ⟨fidx, ticket, false, false⟩ ∧
    (w.core t).pc = s.rd (TILE_CFG_ENTRY.tile t) ∧ (w.core t).loops = [] ∧ (w.core t).waiting = none ∧
    (w.core t).flags = ⟨false, false⟩ ∧ (w.core t).ag = [s.agConfig t 0, s.agConfig t 1, s.agConfig t 2, s.agConfig t 3] ∧
    (w.core t).s = (s.core t).s ∧ (w.core t).v = (s.core t).v ∧ (w.tile t).plat = (s.tile t).plat ∧
    (w.tile t).sram = (s.tile t).sram ∧
    ∃ steers, w.fab.ctl = s.fab.ctl.map (fun r =>
      if s.ctlFrom (ctlOut t) r then { r with a := r.a ++ (.start fidx :: .ticket ticket :: steers) } else r)) ∧
  (∀ (s : State) (t k n i : Nat) (r : CtlRoute) (rest : List CtlTok) (p : Nat), t < s.tiles.length →
    s.ctlInto (.tile t) k = some i → s.fab.ctl[i]? = some r → r.a = .frameEnd n false :: rest →
    (s.ctlIn t k).start.isSome = true → (s.ctlIn t k).ended = none → (s.ctlIn t k).eos = none →
    (s.ctlIn t k).tagReset = false → s.delivered r.src = true → p < 8 → ((s.tile t).ports.g.length = 12) →
    ∃ w, exec (.frameEnd (.tile t) ⟨k, 0⟩) s = .next w ∧
      ((w.tile t).ports.gal p).marks = ((s.tile t).ports.gal p).marks ++
        (if r.mask.testBit p then [⟨n, ((s.tile t).ports.gal p).tags.length⟩] else []) ∧
      ((w.tile t).ports.gal p).tags = ((s.tile t).ports.gal p).tags) ∧
  (∀ (s u : State) (t : Nat) (f : TFrame),
    (s.atIssue t = some u → (u.core t).loops ≠ [] → exec (.endf t) s = .next (u.illegal t)) ∧
    (s.atIssue t = some u → (u.core t).loops = [] → ((u.tile t).jobs ≠ [] ∨ u.frameEnded t = false) →
      exec (.endf t) s = .next (u.stall t (.endf t))) ∧
    (s.atIssue t = some u → (u.core t).loops = [] → (u.tile t).jobs = [] → u.frameEnded t = true →
      (u.tile t).ctl.frame = some f → t < u.tiles.length → ∃ w, exec (.endf t) s = .next w ∧
        (w.tile t).ctl.frame = some { f with endf := true } ∧ (w.core t).waiting = none) ∧
    ((s.tile t).ctl.frame = some f → f.aborted = true ∨ f.endf = true → s.frameEnded t = true → s.shipped t = true →
      exec (.tileFrameEnd t) s = .next ((s.endFrame t f).ctlGo t)))

/-- R130, R133, R166: a returned credit reaches its sender's counter, and a token leaves its source only where every receiver
of every route it takes has a credit; each counter then falls by one and the token is delivered, with the tag that its source
counts. A tile sends none while a frame end of it is on its way; an engine sends its frame's end behind the last token. R127,
R130, R131, R289: a token on the lane of a port's active feed is written to the galley, or discarded with its credit on the
way back where the feed window does not pass it or its frame is aborted; bad parity is counted and is a stage fault, and
copies of the galley's pointer that differ empty it. A loop port's token lands at its context's place and raises AVAIL (R189).
R139, R140: a steering unit that holds its STEER, a whole block of the frame on every input and credits for a block at its
receivers forwards the block of the selected input and discards the others; otherwise nothing moves. -/
def Obligations.FabricTokens : Prop :=
  (∀ (s : State) (i j d t p : Nat) (x : Route) (v : Recv) (ds : List Nat), s.fab.routes[i]? = some x →
    let can := s.credited 1 (s.group i) = true
    let go := exec (.galleyEgress ⟨i, false⟩) s
    let put := fun (next tag : Nat) =>
      let w := ((s.touch x.slot).modRoute i (fun x => { x with todo := ds, tag := next })).send (s.group i) ⟨d, tag⟩
      Host.Outcome.next (φ := Fault) (ρ := Refusal) (if ds = [] then w.endSent x.src else w)
    (x.recvs[j]? = some v → 0 < v.coming →
      exec (.creditReturn i j) s = .next (s.modRoute i (fun x => { x with
        recvs := modAt x.recvs j (fun v => { v with credits := v.credits + 1, coming := v.coming - 1 }) }))) ∧
    (¬ can → go = .next s) ∧
    (x.src = .port t p → s.endPending (ctlOut t) = true ∨ s.readable t p = 0 → go = .next s) ∧
    (can → x.src = .port t p → x.imp = (s.tile t).imp → 0 < s.readable t p → s.endPending (ctlOut t) = false →
      go = .next ((s.touch x.slot).egressPort t p (s.group i))) ∧
    (can → (∃ e, x.src = .eng e) → x.todo = d :: ds → go = put ((x.tag + 1) % 32) (x.tag / 2 % 16)) ∧
    (can → (∃ e, x.src = .feIn e) → x.todo = d :: ds → go = put ((x.tag + 1) % 16) (x.tag % 16)) ∧
    ((∀ t p, x.src ≠ .port t p) → x.todo = [] → go = .next s)) ∧
  (∀ (s : State) (t p r j : Nat) (x : Route) (v : Recv) (tok : Token) (rest : List Token) (b : Bool), p < 8 →
    s.feedRecv t p ((s.tile t).ports.gal p).feed = some (r, j) → s.fab.routes[r]? = some x → x.recvs[j]? = some v →
    v.lane = tok :: rest →
    let u := s.modRecv r j (fun v => { v with lane := v.lane.drop 1, seen := v.seen + 1 })
    let stay := ((u.pushToken t p tok.data tok.tag).retryPscs t).lagAt t p
    let gone := u.modRecv r j (fun v => { v with coming := v.coming + 1 })
    let land := (s.modRecv r j (fun v => { v with coming := v.coming + 1, lane := v.lane.drop 1 })).landLoop t p tok
    let broken := fun (w : State) => Host.Outcome.next (φ := Fault) (ρ := Refusal)
      ((w.inc LOAD_FAB_PARITY_COUNT).stageFault t 11)
    let pass := v.all = true ∨ (v.skip ≤ v.seen / (s.portCfg t p).count ∧ v.seen / (s.portCfg t p).count < v.skip + v.take)
    (s.isLoopIn t p = false → pass → s.discarding t r = false → ((s.tile t).ports.gal p).dropLeft = 0 →
      exec (.tokenArrival t p ⟨false, false, b⟩) s = .next stay ∧ exec (.tokenArrival t p ⟨true, false, b⟩) s = broken stay ∧
      exec (.tokenArrival t p ⟨false, true, b⟩) s = .next (stay.portMismatch t p b)) ∧
    (s.isLoopIn t p = false → ¬ pass ∨ s.discarding t r = true → exec (.tokenArrival t p ⟨false, b, b⟩) s = .next gone) ∧
    (s.isLoopIn t p = false → pass → s.discarding t r = false → 0 < ((s.tile t).ports.gal p).dropLeft →
      exec (.tokenArrival t p ⟨false, b, b⟩) s = .next (gone.modGal t p (fun g => { g with dropLeft := g.dropLeft - 1 }))) ∧
    (s.isLoopIn t p = true → exec (.loopTokenLanding t ⟨p, false⟩) s = .next land ∧
      exec (.loopTokenLanding t ⟨p, true⟩) s = broken land)) ∧
  (∀ (s : State) (sw k sel : Nat) (u : Steerer) (rj : Nat × Nat), s.steerer sw k = some u →
    let ins := (s.steerInputs sw k u.inputs).filterMap id
    let out := s.steerOut sw k
    let whole := ins.length = u.inputs ∧ ∀ e ∈ ins, u.block ≤ (s.frameLane e).length
    (u.sel = some sel → ins[sel]? = some rj → u.frame.isSome = true → u.aborted = false →
      s.endPending (.steer sw k) = false → whole → s.credited u.block out = true →
      exec (.steeringFire sw k) s = .next (((s.laneAt rj).take u.block).foldl
        (fun w tok => out.foldl (fun w r => w.deliverAll tok r) w)
        ((ins.foldl (fun w e => w.dropLane u.block e) ((s.touch u.slot).modSteer sw k (fun x =>
          { x with done := x.done + 1 }))).spend u.block out))) ∧
    (u.sel = none ∨ ¬ whole ∨ s.credited u.block out = false ∨ u.aborted = true →
      exec (.steeringFire sw k) s = .next s))

/-- R145: a slot whose frames have made no progress for LOAD_WDOG_PERIOD is stopped and its frames in flight are aborted; one
that has made progress, or holds no frame, is left alone. -/
def Obligations.DeadlockStopsSlot : Prop :=
  ∀ (s : State) (k : Nat),
    let due := (s.slot k).overridden = true ∧ 2 ≤ (s.slot k).st ∧ 0 < s.inFlight k ∧
      (s.slot k).progress + s.rd LOAD_WDOG_PERIOD_PERIOD_US * 1000 ≤ s.now
    (due → ∃ w, exec (.deadlockSuspect k) s = .next w ∧ (w.slot k).st = 4 ∧
      (∀ f ∈ w.adm.flights, f.slot = k → f.aborted = true) ∧
      w.adm.flights.map (·.ticket) = s.adm.flights.map (·.ticket)) ∧
    (¬ due → exec (.deadlockSuspect k) s = .next s)

/-- R173, R170: the oldest watch report is decided once its frame is no longer in flight, over every report of its group; a
decided flip is carried out in the first gap of its context, and forgotten where the context no longer runs as it did. -/
def Obligations.DynamicScales : Prop :=
  ∀ (s : State) (r : Report) (rest : List Report) (d : ScaleDir) (f : Flip) (fs : List Flip), s.roleHeld s.admCore = true →
    let key := fun (x : Report) => (x.ticket, x.accepted, x.slot, s.stageOf x, x.rq)
    let w := combineReports (s.adm.reports.filter (fun x => key x == key r))
    let taken := { s with adm := { s.adm with reports := s.adm.reports.filter (fun x => key x != key r) } }
    let flying := ∃ g, s.flightOf r.ticket = some g ∧ g.accepted = r.accepted
    let lost := (r.ticket, r.accepted) ∈ s.adm.dropped
    let free := fun (c : Nat) => ∀ g ∈ s.adm.flights, g.ctx ≠ c
    let gone := { s with adm := { s.adm with flips := s.adm.flips.filter (fun g => g != f) } }
    let live := ((s.ctx f.ctx).st = 2 ∨ (s.ctx f.ctx).st = 3) ∧ (s.ctx f.ctx).eosDone = false ∧
      (s.ctx f.ctx).slot = f.slot ∧ (s.ctx f.ctx).fidx = f.fidx
    (s.adm.reports = r :: rest → flying → exec .scaleWatchReport s = .next s) ∧
    (s.adm.reports = r :: rest → ¬ flying →
      (s.slot r.slot).dir.find? (fun d => some (d.stage, d.unit) == s.stageOf r && d.rq == r.rq) = some d → ¬ lost →
      s.rd GOV_SCALE_MIN_LANES_LANES ≤ w.lanes → s.reportLive r = true →
      exec .scaleWatchReport s = .next (taken.decideScale r d w)) ∧
    (s.adm.reports = r :: rest → ¬ flying → lost ∨ w.lanes < s.rd GOV_SCALE_MIN_LANES_LANES →
      exec .scaleWatchReport s = .next taken) ∧
    (s.adm.flips = f :: fs → free f.ctx → live → exec .scaleSlotFlip s = .next (gone.flip f)) ∧
    (s.adm.flips = f :: fs → free f.ctx → ¬ live → exec .scaleSlotFlip s = .next gone) ∧
    ((∀ g ∈ s.adm.flips, ¬ free g.ctx) → exec .scaleSlotFlip s = .next s)

/-- R193, R194, R260: with both roles held, the input engine sends what is due: an END_OF_STREAM first, else the next frame;
the output engine writes the records of the frame at work once every input has ended it, and an error record where it was
aborted, where its data cannot be read, or where its records cannot be written. R201: a facing engine that fails is unusable
for life; the spare takes its role where it is usable, and otherwise every resident slot stops and FACING is cleared. -/
def Obligations.FacingEngines : Prop :=
  (∀ (s u v : State) (c k : Nat) (f : Flight) (a : Bool) (e : Nat × Nat) (l : List (Nat × FeDesc × List (List (List Nat)))),
    s.facingHeld = true →
    let bodies := frameBodies (u.slot k).away l
    let fails := fun (w : State) (code addr : Nat) => Host.Outcome.next (φ := Fault) (ρ := Refusal)
      (let x := w.outFail f code addr
       (x.errorRecord ((x.flightOf f.ticket).getD f)).outDone k f)
    (s.face.sending = none → s.eosDue = some c → exec .feInputFrame s = .next (s.sendEos c)) ∧
    (s.face.sending = none → s.eosDue = none → s.nextFrame = some f → exec .feInputFrame s = .next (s.sendFrame f)) ∧
    (s.face.sending ≠ none → exec .feInputFrame s = .next s) ∧
    (s.feSlot = some k → s.outReady k = none → exec .feOutputFrame s = .next s) ∧
    (s.feSlot = some k → s.outReady k = some (f, true) →
      exec .feOutputFrame s = .next ((s.errorRecord f).outDone k f)) ∧
    (s.feSlot = some k → s.outReady k = some (f, false) → s.headMaps k (s.slot k).heads = (.ok l, u) →
      u.writeRecords f bodies = (true, v) → exec .feOutputFrame s = .next ((v.present f.ctx bodies).outDone k f)) ∧
    (s.feSlot = some k → s.outReady k = some (f, false) → s.headMaps k (s.slot k).heads = (.ok l, u) →
      u.writeRecords f bodies = (false, v) → exec .feOutputFrame s =
      fails v EV_FACING_READ_ERROR (0x0800000000 + (v.cgalCfg 2 (s.resultGalley f.ctx)).base)) ∧
    (s.feSlot = some k → s.outReady k = some (f, false) → s.headMaps k (s.slot k).heads = (.error e, u) →
      exec .feOutputFrame s = fails u e.1 e.2) ∧
    (∀ w, s.feSlot = some k → s.outReady k = some (f, a) → exec .feOutputFrame s = .next w →
      ∀ g ∈ w.adm.flights, g.ticket ≠ f.ticket)) ∧
  (∀ (s : State) (e : Nat), s.inv = true → e < 3 → s.unusable (104 + e) = false → 106 < s.health.units.length →
    let spare := s.rd LOAD_FE_ROLE_SPARE
    let usable := spare < 3 ∧ spare ≠ e ∧ s.unusable (104 + spare) = false
    ∃ w, exec (.facingFault e) s = .next w ∧ w.unusable (104 + e) = true ∧
      (s.rd LOAD_FE_ROLE_INPUT = e → usable → w.rd LOAD_FE_ROLE_INPUT = spare ∧ w.rd LOAD_FE_ROLE_SPARE = 3 ∧
        w.slots.map (·.st) = s.slots.map (·.st)) ∧
      (s.rd LOAD_FE_ROLE_INPUT ≠ e → s.rd LOAD_FE_ROLE_OUTPUT = e → usable →
        w.rd LOAD_FE_ROLE_OUTPUT = spare ∧ w.rd LOAD_FE_ROLE_SPARE = 3) ∧
      (s.rd LOAD_FE_ROLE_INPUT = e → ¬ usable → w.rd LOAD_FE_ROLE_INPUT = 3 ∧ w.rd SYS_FUNC_READY_FACING = 0 ∧
        ∀ x ∈ w.slots, x.st ≠ 2))

/-- R207 to R213: the impression sequencer. A round opens with every waiting frame; it ends with a SIGNAL of DONE_QUOIN; a
spill stream that has written the round's last frame slot signals its cut; refill streams start behind their cut's barrier; a
drained tile takes the next impression step by step (Table 9-5): DRAINING, IDLE until no tile is left in an earlier
impression, the new impression's state, and its switch words. R212, R213, steps 3 to 5 of Table 9-5: a tile that carries no
stage in the next impression is as after a block reset, IDLE, one impression further, its switch words due; the words stay due
until the switch is drained and no tile is left behind. R207: what an opened round holds: every frame that waited, in
admission order, none left waiting, each with its frame slot. -/
def Obligations.Impressions : Prop :=
  (∀ (s : State) (k j t : Nat) (st : CutStream),
    let x := s.slot k
    let next := ((s.tile t).imp + 1) % max 1 x.imp.count
    let ready := ∀ u ∈ x.tiles, x.carries 0 u = true → (s.tile u).imp = 0 ∧ (s.tile u).st = .waitFrame
    let runs := k < 8 ∧ x.multi = true ∧ 2 ≤ x.st ∧ x.imp.lost = false
    let turn := exec (.tileReconfigure t) s
    let tail := fun (w : State) => Host.Outcome.next (φ := Fault) (ρ := Refusal) (((w.outsideWords k).waveWait k).impPhase k)
    let behind := ∃ u ∈ x.tiles, (s.tile u).wave < (s.tile t).wave
    (runs → x.imp.round = [] → x.imp.waiting ≠ [] → ready → x.imp.hostGate = false →
      exec (.roundOpen k) s = .next (s.openRound k)) ∧
    (k < 8 → x.imp.waiting = [] → exec (.roundOpen k) s = .next s) ∧
    (runs → x.imp.round ≠ [] → (∀ e ∈ x.imp.round, s.flightOf e.1 = none) →
      let u := s.modImp k (fun i => { i with round := [], roundEnd := s.base })
      exec (.roundEnd k) s = .next (((u.qsignal u.admCore x.imp.doneQ 1).inc (LOAD_IMP_ROUNDS_COUNT.idx k)).impPhase k)) ∧
    (x.imp.streams[j]? = some st → st.spill = true → st.done = false → x.imp.round ≠ [] →
      st.fslot = x.imp.round.length → exec (.spillDone k j) s = .next ((s.modStream k j (fun c =>
        { c with done := true })).qsignal (0x10 + st.engine) (x.imp.cuts.getD st.cut ⟨0, 0, 0, 0, 0, 0, 0⟩).quoin 1)) ∧
    (let u := s.seqNext k (x.imp.cuts.length + 1)
     (j ∉ (u.slot k).imp.passed → exec (.refillStart k j) s = .next u) ∧
     (j ∈ (u.slot k).imp.passed → (u.slot k).imp.round ≠ [] → (u.slot k).imp.lost = false → (u.slot k).imp.streams = [st] →
       st.spill = false → st.cut = j → st.started = false → u.refillReady k 0 st = true →
       exec (.refillStart k j) s = .next ((u.modStream k 0 (fun c => { c with started := true })).refillNext k 0))) ∧
    (s.tileSlot t = some k → runs → t ∉ x.imp.due → t ∉ x.imp.drained → s.drainedTile k t = true → s.mayLeave k t = true →
      turn = tail (s.drainTile k t) ∧ (t < s.tiles.length → ((s.drainTile k t).tile t).st = .draining)) ∧
    (s.tileSlot t = some k → runs → t ∉ x.imp.due → t ∉ x.imp.drained → s.drainedTile k t = false ∨ s.mayLeave k t = false →
      turn = tail s) ∧
    (s.tileSlot t = some k → runs → t ∉ x.imp.due → t ∈ x.imp.drained → turn = tail (s.leaveTile k t) ∧
      (behind → s.leaveTile k t = s.modTile t (fun z => { z with st := .idle, back := .idle })) ∧
      (¬ behind → s.leaveTile k t =
        ((s.modTile t (fun z => { z with st := .idle, back := .idle })).saveTile k t).giveTile k t next)) ∧
    (s.tileSlot t = some k → runs → t ∈ x.imp.due → turn = tail (s.wireTile k t)) ∧
    (s.tileSlot t = none → turn = .next s)) ∧
  (∀ (s : State) (k t next : Nat), t < s.tiles.length → k < s.slots.length →
    let x := (s.slot k).imp
    let w := s.giveTile k t next
    let v := s.wireTile k t
    (x.store.find? (fun y => y.imp == next && y.phys == t) = none →
      (w.tile t).st = .idle ∧ (w.tile t).imp = next ∧ (w.tile t).wave = (s.tile t).wave + 1 ∧ (w.core t) = {} ∧ (w.plat t) = {} ∧
      (w.tile t).ports = {} ∧ (w.tile t).sram = (s.tile t).sram ∧ (∀ u, u ≠ t → w.tile u = s.tile u) ∧
      t ∈ (w.slot k).imp.due ∧ t ∉ (w.slot k).imp.drained) ∧
    ((∃ u ∈ (s.slot k).tiles, (s.tile u).wave + 1 < (s.tile t).wave) → v = s) ∧
    (s.switchDrained k (((s.tile t).imp + x.count - 1) % max 1 x.count) t = false → v = s) ∧
    (s.switchDrained k (((s.tile t).imp + x.count - 1) % max 1 x.count) t = true →
      (∀ u ∈ (s.slot k).tiles, (s.tile t).wave ≤ (s.tile u).wave + 1) → t ∉ (v.slot k).imp.due ∧ v.tiles = s.tiles)) ∧
  (∀ (s : State) (k : Nat), k < s.slots.length →
    let x := (s.slot k).imp
    let w := s.openRound k
    (w.slot k).imp.round.map (·.1) = x.waiting ∧ (w.slot k).imp.waiting = [] ∧
    w.adm.flights.map (·.ticket) = s.adm.flights.map (·.ticket))

/-- R220, R222: a window of the governor. Below the floor BELOW is set and every contract in flight is broken; the setpoint
goes up by 5 mV to at most 880 mV while the pace is short of the guarded floor, and down by 5 mV to at least 620 mV after 64
good windows; BELOW clears after 16 windows at or above the guarded floor. R237: the shed level goes up by one per STEP_MS
while Tj is at or above SHED_C, to at most 8, and down by one per STEP_MS while it is more than 3 degrees below; in between it
stays. -/
def Obligations.GovernorAndThermal : Prop :=
  (∀ (s : State) (r : Nat) (rs : List Nat) (tj : Int) (ack : Bool), s.inv = true →
    let meas := min 1023 (rs.foldl min r)
    let f := s.rd GOV_PACE_FLOOR_FLOOR
    let g := s.rd GOV_PACE_FLOOR_GUARD
    let v := s.rd GOV_PACE_STATUS_VOUT_MV
    ∃ w, exec (.governorWindow (r :: rs) tj ack) s = .next w ∧ w.rd GOV_PACE_STATUS_MEAS = meas ∧
      (meas < f → w.rd GOV_PACE_STATUS_BELOW = 1 ∧ ∀ x ∈ w.adm.flights, x.broken = true) ∧
      (f ≤ meas → s.rd GOV_PACE_STATUS_BELOW = 0 → w.rd GOV_PACE_STATUS_BELOW = 0 ∧ w.adm.flights = s.adm.flights) ∧
      (s.rd GOV_PACE_STATUS_BELOW = 1 → f * (1024 + g) ≤ meas * 1024 → s.pwr.lowWin = 15 →
        w.rd GOV_PACE_STATUS_BELOW = 0) ∧
      (s.rd GOV_PACE_STATUS_BELOW = 1 → meas * 1024 < f * (1024 + g) → w.rd GOV_PACE_STATUS_BELOW = 1) ∧
      (meas * 1024 < f * (1024 + g) → w.rd GOV_PACE_STATUS_VOUT_MV = min 880 (v + 5)) ∧
      (f * (1024 + 2 * g) ≤ meas * 1024 → tj < 110 → s.pwr.goodWin = 63 → 620 ≤ v →
        w.rd GOV_PACE_STATUS_VOUT_MV = max 620 (v - 5)) ∧
      (f * (1024 + g) ≤ meas * 1024 → s.pwr.goodWin < 63 → w.rd GOV_PACE_STATUS_VOUT_MV = v)) ∧
  (∀ (s : State) (tj : Int) (t : Nat), s.inv = true → s.roleHeld s.powCore = true →
    let shed : Int := s.rd GOV_THERM_SHED_C
    let step := s.rd GOV_THERM_STEP_MS * 1000000
    let lv := s.rd GOV_THERM_LEVEL
    ∃ w, exec (.thermalShed tj) s = .next w ∧
      (shed ≤ tj → lv < 8 → s.pwr.stepSince = none → w.rd GOV_THERM_LEVEL = lv + 1 ∧ w.pwr.stepSince = some s.base ∧
        ∃ e, w.log.ring.head? = some e ∧ e.code = EV_THERMAL_SHED ∧ e.a0 = lv + 1) ∧
      (shed ≤ tj → lv < 8 → s.pwr.stepSince = some t → t + step ≤ s.base → w.rd GOV_THERM_LEVEL = lv + 1) ∧
      (shed ≤ tj → s.pwr.stepSince = some t → s.base < t + step → w.rd GOV_THERM_LEVEL = lv) ∧
      (shed ≤ tj → 8 ≤ lv → w.rd GOV_THERM_LEVEL = lv) ∧
      (tj < shed → shed - 3 ≤ tj → w.rd GOV_THERM_LEVEL = lv) ∧
      (tj < shed - 3 → s.pwr.thermCool = some t → t + step ≤ s.base → w.rd GOV_THERM_LEVEL = lv - 1) ∧
      (tj < shed - 3 → s.pwr.thermCool = none → w.rd GOV_THERM_LEVEL = lv))

/-- R230 to R232, R222: the oldest whole input is decided, in RUN only: accepted with the next ticket of its slot and its
deadline, and marked broken at once while the pace is below its floor, or refused with its reason, its buffer freed and the
count raised. R236: a frame in flight whose deadline has passed is marked, counted and aborted, once; otherwise nothing
happens. -/
def Obligations.Admission : Prop :=
  (∀ (s : State) (w : Waiting) (ws : List Waiting) (why : Nat), s.adm.waiting = w :: ws →
    s.roleHeld s.admCore = true →
    let u := ({ s with adm := { s.adm with waiting := ws } }).dropNotice w
    (s.power ≠ 0 → exec .admissionDecision s = .next s) ∧
    (s.power = 0 → u.refusal w u.base = some why → exec .admissionDecision s = .next (u.refuseFrame w why)) ∧
    (s.power = 0 → u.refusal w u.base = none → exec .admissionDecision s = .next (u.accept w u.base) ∧
      ∃ f, (u.accept w u.base).adm.flights.getLast? = some f ∧ f.ctx = w.ctx ∧ f.slot = (u.ctx w.ctx).slot ∧
        f.deadline = u.base + u.rdc (1 + w.ctx) CTX_BIND1_LIMIT_US * 1000 ∧ f.ticket = u.nextTicket f.slot ∧
        (u.rd GOV_PACE_STATUS_BELOW = 1 → f.broken = true) ∧ (u.accept w u.base).adm.waiting = ws) ∧
    (w.since + s.rd GOV_ADMIT_WAIT_WAIT_US * 1000 < s.base → exec .admitWaitExpired s = .next (u.refuseFrame w 6)) ∧
    (s.base ≤ w.since + s.rd GOV_ADMIT_WAIT_WAIT_US * 1000 → exec .admitWaitExpired s = .next s)) ∧
  (∀ (s : State) (n : Nat) (f : Flight), s.flightOf n = some f →
    (f.deadline < s.base → f.expired = false → ∃ w g, exec (.deadlineExpired n) s = .next w ∧ w.flightOf n = some g ∧
      g.expired = true ∧ g.aborted = true) ∧
    (f.deadline < s.base → f.expired = false → f.aborted = false → s.starvedUnit n = none →
      exec (.deadlineExpired n) s = .next ((((s.modFlight n (fun x => { x with expired := true })).inc
        GOV_DEADLINE_EXPIRED_COUNT).raise EV_DEADLINE_EXPIRED 0x201 (tickCtx n f.ctx) 0 f.deadline).abortFlight n
          EV_DEADLINE_EXPIRED)) ∧
    (s.base ≤ f.deadline ∨ f.expired = true → exec (.deadlineExpired n) s = .next s))

/-- R231: an admission never lets the predicted end of a contract frame in flight pass its deadline. -/
def Obligations.ContractsStayWithinBounds : Prop :=
  ∀ s w : State, (∀ f ∈ s.adm.flights, f.contract = true → f.o ≤ f.deadline) →
    exec .admissionDecision s = .next w → ∀ f ∈ w.adm.flights, f.contract = true → f.o ≤ f.deadline

/-- R239, R240: a write of TIME_STEP moves device time forward by the word written, in ns, and raises TIME_STEPPED; base time,
on which admission and deadlines run, does not move. -/
def Obligations.TimeSteps : Prop :=
  ∀ (s : State) (m v : Nat), v < 2 ^ 32 → s.mayWrite m TIME_STEP_NS.addr v = true →
    ∃ w, exec (.timeStep m v) s = .next w ∧ w.now = s.now + v ∧ w.base = s.base ∧ w.adm = s.adm ∧ w.resp = .ok [] ∧
      ∃ e, w.log.ring.head? = some e ∧ e.code = EV_TIME_STEPPED

/-- R312: a rising edge on TIME_PPS. -/
def Obligations.PpsLatches : Prop :=
  ∀ (s : State) (t : Nat), s.inv = true →
    (s.ppsEdge = some t → s.base < t + 100000000 → exec .timePps s = .next s) ∧
    (s.ppsEdge = none ∨ (s.ppsEdge = some t ∧ t + 100000000 ≤ s.base) → ∃ w, exec .timePps s = .next w ∧
      w.rd TIME_PPS_LO_NS = s.now % 2 ^ 32 ∧ w.rd TIME_PPS_HI_NS = s.now / 2 ^ 32 % 2 ^ 32 ∧
      w.rd TIME_PPS_STATUS_VALID = 1 ∧ w.ppsEdge = some s.base ∧
      (s.rd TIME_PPS_STATUS_VALID = 1 → w.rd TIME_PPS_STATUS_OVERRUN = 1) ∧
      (s.rd TIME_PPS_STATUS_VALID = 0 → w.rd TIME_PPS_STATUS_OVERRUN = s.rd TIME_PPS_STATUS_OVERRUN))

/-- R9, R2: what any register command that the access tables grant does: the write of a register without a rule of its own
sets its fields and answers well; a word that the register does not take is refused whole, and an access outside the map is a
bus error. LOAD_WDOG_PERIOD stands for the registers whose fields have no further effect. R9: a refused register write changes
nothing but the answer, the event log and the sessions' event queues. R10: a read of a register with an RC field answers its
value and leaves the field 0, here the count of management requests dropped (Table 15-13); any other register of the machine
keeps its word. -/
def Obligations.RegisterAccesses : Prop :=
  (∀ (s : State) (m a v : Nat), s.inv = true → v < 2 ^ 32 →
    (s.mayWrite m a v = true → ∀ w, s.regAct m a v = (true, w) →
      exec (.registerWrite m a v) s = .next (w.answer (.ok []))) ∧
    (s.mayWrite m a v = true → ∀ w, s.regAct m a v = (false, w) → exec (.registerWrite m a v) s = .next (w.refuse m a)) ∧
    (place a 4 = .reg → s.reachable m a 4 = true → s.granted m a 4 rightW = true → regAccepts a v = false →
      exec (.registerWrite m a v) s = .next (s.refuse m a)) ∧
    (place a 4 = .none → exec (.registerWrite m a v) s = .next (s.answer .busError) ∧
      exec (.rcRead m a) s = .next (s.answer .busError)) ∧
    (place a 4 = .reg → s.reachable m a 4 = false → exec (.registerWrite m a v) s = .next (s.answer .busError)) ∧
    (∀ x, a = LOAD_WDOG_PERIOD_PERIOD_US.addr → s.mayWrite m a v = true → s.regAct m a v = (true, x) →
      x.rd LOAD_WDOG_PERIOD_PERIOD_US = bits v LOAD_WDOG_PERIOD_PERIOD_US.lo LOAD_WDOG_PERIOD_PERIOD_US.len)) ∧
  (∀ (s : State) (m a : Nat),
    let w := s.refuse m a
    w = { s with resp := w.resp, log := w.log, host := w.host } ∧ w.resp = .refused ∧ w.host.out = s.host.out ∧
    ∃ e, w.log.ring.head? = some e ∧ e.code = EV_REG_WRITE_REFUSED ∧ e.a0 = m ∧ e.a2 = a) ∧
  (∀ (s : State) (m : Nat), s.inv = true → s.reachable m MGMT_DROP_COUNT.addr 4 = true → s.granted m MGMT_DROP_COUNT.addr 4 rightR = true →
    ∃ w, exec (.rcRead m MGMT_DROP_COUNT.addr) s = .next w ∧ w.resp = .ok (leBytes 4 (s.reg 0 MGMT_DROP_COUNT.addr)) ∧
      w.rd MGMT_DROP_COUNT = 0 ∧ (∀ c a, rkey c a ≠ rkey 0 MGMT_DROP_COUNT.addr → w.reg c a = s.reg c a) ∧
      w = { s with resp := w.resp, regs := w.regs })

/-- R254, R257: an access that no entry of the target's table grants has no effect but its denial: the answer, the denial
registers, the count, and at most one event a millisecond. -/
def Obligations.DeniedAccessHasNoEffect : Prop :=
  ∀ (s : State) (m a v : Nat), s.inv = true → s.reachable m a 4 = true → place a 4 = .reg → s.granted m a 4 rightW = false →
    ∃ w, exec (.registerWrite m a v) s = .next w ∧ w.resp = .busError ∧
      w = { s with resp := w.resp, regs := w.regs, log := w.log, host := w.host } ∧
      (∀ c b, ¬ (0x0A00070000 ≤ b ∧ b < 0x0A00080000) → b < 0x10000000000 → c < 2 ^ 20 → w.reg c b = s.reg c b) ∧
      w.rd ACCESS_DENY_INFO_VALID = 1 ∧
      (s.rd ACCESS_DENY_INFO_VALID = 0 → m < 256 → w.rd ACCESS_DENY_INFO_MASTER = m ∧
        w.rd ACCESS_DENY_INFO_TARGET = (targetOf a).1 % 256) ∧
      (s.rd ACCESS_DENY_INFO_VALID = 1 → w.rd ACCESS_DENY_INFO_OVERFLOW = 1)

/-- R252, R255, R256: the protection tables. An entry that no pin rule forbids is written whole; a forbidden one is refused;
the staged access entry is written to the selected place and read back from it; entry 63 is refused. R254: who an entry grants
what: an enabled entry with the right, whose master range holds the master and whose span holds the whole access; entry 63 of
every table grants masters 0x60 to 0x64 every access. -/
def Obligations.Protection : Prop :=
  (∀ (s : State) (m v : Nat),
    let c := 1 + m
    let i := s.rdc c REGION_SEL_INDEX
    let j := s.rdc c REGION_SUBSEL_TABLE * 32 + s.rdc c REGION_SUBSEL_SUB
    let old := (tget (fun _ => (0 : Word)) s.prot.region i).toNat
    let olds := (tget (fun _ => (0 : Word)) s.prot.sub j).toNat
    let target := s.rdc c ACCESS_SEL_TARGET
    let e := s.rdc c ACCESS_SEL_ENTRY
    let staged : AccEnt := ⟨s.reg c ACCESS_E0_EN.addr, s.rdc c ACCESS_E1_BASE, s.rdc c ACCESS_E2_LIMIT⟩
    let sane := e ≠ 63 ∧ s.rdc c ACCESS_E0_MASTER_LO ≤ s.rdc c ACCESS_E0_MASTER_HI ∧
      s.rdc c ACCESS_E1_BASE ≤ s.rdc c ACCESS_E2_LIMIT ∧ s.rdc c ACCESS_E2_LIMIT * 64 < targetSize target ∧
      s.rd ACCESS_CMD_BUSY ≠ 1
    let ok := fun (u : State) => Host.Outcome.next (φ := Fault) (ρ := Refusal) (u.answer (.ok []))
    (s.mayWrite m REGION_ENTRY_P.addr v = true → bit old 30 = false → (bit v 31 = true ∨ bit v 30 = false) →
      bit v 29 = false → exec (.regionEntryWrite m v) s = ok { s with prot := { s.prot with
        region := tput (fun _ => (0 : Word)) s.prot.region i (BitVec.ofNat 32 v) } }) ∧
    (s.mayWrite m REGION_ENTRY_P.addr v = true → bit old 30 = true → bits old 0 13 ≠ bits v 0 13 ∨ bit v 31 = false →
      exec (.regionEntryWrite m v) s = .next (s.refuse m REGION_ENTRY_P.addr)) ∧
    (s.mayWrite m REGION_SUB_P.addr v = true → bit olds 30 = false → (bit v 31 = true ∨ bit v 30 = false) →
      exec (.regionSubWrite m v) s = ok { s with prot := { s.prot with
        sub := tput (fun _ => (0 : Word)) s.prot.sub j (BitVec.ofNat 32 v) } }) ∧
    (s.mayWrite m REGION_SUB_P.addr v = true → bit olds 30 = true → bits olds 0 18 ≠ bits v 0 18 ∨ bit v 31 = false →
      exec (.regionSubWrite m v) s = .next (s.refuse m REGION_SUB_P.addr)) ∧
    (s.mayWrite m ACCESS_CMD_WRITE.addr 1 = true → sane → exec (.accessWrite m) s = ok (s.setAcc target e staged)) ∧
    (s.mayWrite m ACCESS_CMD_WRITE.addr 1 = true → e = 63 →
      exec (.accessWrite m) s = .next (s.refuse m ACCESS_CMD_WRITE.addr)) ∧
    (s.mayWrite m ACCESS_CMD_READ.addr 2 = true → exec (.accessRead m) s =
      ok (((s.setReg c ACCESS_E0_EN.addr (s.accEntry target e).e0).setReg c ACCESS_E1_BASE.addr
        (s.accEntry target e).e1).setReg c ACCESS_E2_LIMIT.addr (s.accEntry target e).e2))) ∧
  (∀ (s : State) (m a n right : Nat), s.granted m a n right = true ↔
    (∃ e < 63, let x := tget (fun _ => ({} : AccEnt)) s.prot.access ((targetOf a).1 * 64 + e)
      bit x.e0 31 = true ∧ bit x.e0 right = true ∧ bits x.e0 0 8 ≤ m ∧ m ≤ bits x.e0 8 8 ∧ x.e1 * 64 ≤ (targetOf a).2 ∧
      (targetOf a).2 + n ≤ (x.e2 + 1) * 64) ∨
    (bit 0xF0006460 right = true ∧ 0x60 ≤ m ∧ m ≤ 0x64 ∧
      (targetOf a).2 + n ≤ (targetSize (targetOf a).1 / 64 - 1 + 1) * 64))

/-- R263 to R266: the flip mask is armed for a code word of the map and taken back, and the scrubber starts, is stopped after
the words that it has come further by then (and the one at hand), and ends its range with DONE and SCRUB_DONE. R259, R261,
R262: one code word read: an invalid one reads 0; one inverted bit is corrected, written back and counted; two are not, and
the read fails with the error counted. -/
def Obligations.EccCommands : Prop :=
  (∀ (s : State) (m n : Nat) (hard : List Nat) (i : MemId) (off : Nat) (x : Scrub), s.inv = true →
    let ok := fun (u : State) => Host.Outcome.next (φ := Fault) (ρ := Refusal) (u.answer (.ok []))
    (s.mayWrite m ECC_FLIP_CTRL_ARM.addr 1 = true → codeWord s.flipAddr = some (i, off) → s.flipMask ≠ 0 →
      s.flipMask < 2 ^ (if i.cw = 8 then 72 else 39) → s.rd ECC_FLIP_CTRL_ARMED = 0 →
      exec (.eccFlipArm m) s = ok (s.wr ECC_FLIP_CTRL_ARMED 1)) ∧
    (s.mayWrite m ECC_FLIP_CTRL_ARM.addr 1 = true → s.flipMask = 0 →
      exec (.eccFlipArm m) s = .next (s.refuse m ECC_FLIP_CTRL_ARM.addr)) ∧
    (s.mayWrite m ECC_FLIP_CTRL_DISARM.addr 2 = true → ∃ w, exec (.eccFlipDisarm m) s = .next w ∧
      w.rd ECC_FLIP_CTRL_ARMED = 0 ∧ w.flipMask = 0 ∧ w.resp = .ok []) ∧
    (s.mayWrite m ECC_SCRUB_CTRL_START.addr 1 = true → s.scrubOk = true → ∃ w, exec (.scrubStart m hard) s = .next w ∧
      w.scrub = some ⟨s.scrubBase, s.scrubBase + s.rd ECC_SCRUB_LEN_UNITS * 64, hard⟩ ∧
      w.rd ECC_SCRUB_STATUS_BUSY = 1 ∧ w.rd ECC_SCRUB_CORR_COUNT = 0 ∧ w.rd ECC_SCRUB_UNCORR_COUNT = 0) ∧
    (s.mayWrite m ECC_SCRUB_CTRL_START.addr 1 = true → s.scrubOk = false →
      exec (.scrubStart m hard) s = .next (s.refuse m ECC_SCRUB_CTRL_START.addr)) ∧
    (s.mayWrite m ECC_SCRUB_CTRL_ABORT.addr 2 = true → s.scrub = some x →
      exec (.scrubAbort ⟨m, n⟩) s = ok ((s.scrubOn x (n + 1)).scrubEnd true)) ∧
    (s.scrub = some x → exec .scrubDone s = .next ((s.scrubOn x (x.stop - x.next)).scrubEnd false)) ∧
    (s.scrub = some x → (s.scrubOn x (x.stop - x.next)).health.hardSeen = [] → (s.scrubOn x (x.stop - x.next)).inv = true →
      ∃ w, exec .scrubDone s = .next w ∧ w.scrub = none ∧ w.rd ECC_SCRUB_STATUS_BUSY = 0 ∧ w.rd ECC_SCRUB_STATUS_DONE = 1)) ∧
  (∀ (s : State) (i : MemId) (w m : Nat), s.inv = true → (∀ t, i = .sram t ∨ i = .gsram t ∨ i = .prog t → t < s.tiles.length) →
    let x := s.mem i
    let v := leNat (x.bytesAt (w * i.cw) i.cw)
    (x.isValid i w = false → s.readWord i w m = (some 0, s)) ∧
    (x.isValid i w = true → x.flip w = 0 → s.readWord i w m = (some v, s)) ∧
    (x.isValid i w = true → popCount 72 (x.flip w) = 1 → ∃ u, s.readWord i w m = (some v, u) ∧ (u.mem i).flip w = 0 ∧
      u.rd ECC_ERR_CORR_COUNT = (s.rd ECC_ERR_CORR_COUNT + 1) % 2 ^ ECC_ERR_CORR_COUNT.len) ∧
    (x.isValid i w = true → popCount 72 (x.flip w) = 2 → ∃ u, s.readWord i w m = (none, u) ∧ u.mem i = s.mem i ∧
      u.rd ECC_ERR_UNCORR_COUNT = (s.rd ECC_ERR_UNCORR_COUNT + 1) % 2 ^ ECC_ERR_UNCORR_COUNT.len))

/-- R280, R277: the commands of a stream engine, each in the states that accept it; in any other it is refused. R276, R278,
R279, R281, R289: a running engine completes its descriptor or keeps what it has moved where it must wait, or stops on an
absent page or a descriptor error with its position kept; an error of an engine that a slot holds aborts the frame it feeds; a
WAITQ that has succeeded lets its accesses begin; a merge channel works as engine 32 and on. -/
def Obligations.StreamEngines : Prop :=
  (∀ (s : State) (m e : Nat), e < 36 → s.engUser e m = true →
    let a := (STREAM_ENG_CTRL_START.idx e).addr
    let st := (s.engine e).st
    let ok := fun (u : State) => Host.Outcome.next (φ := Fault) (ρ := Refusal) (u.answer (.ok []))
    let no := Host.Outcome.next (φ := Fault) (ρ := Refusal) (s.refuse m a)
    (s.mayWrite m a 1 = true → st = 0 → (s.engStart e).secondDrain e = false →
      exec (.streamStart m e) s = ok (s.engStart e)) ∧
    (s.mayWrite m a 1 = true → st ≠ 0 → exec (.streamStart m e) s = no) ∧
    (s.mayWrite m a 2 = true → st = 3 → exec (.streamKick m e) s = ok (s.engKick e)) ∧
    (s.mayWrite m a 2 = true → st ≠ 3 → exec (.streamKick m e) s = no) ∧
    (s.mayWrite m a 4 = true → st = 4 ∨ st = 5 → exec (.streamResume m e) s = ok (s.engResume e)) ∧
    (s.mayWrite m a 4 = true → st ≠ 4 → st ≠ 5 → exec (.streamResume m e) s = no) ∧
    (s.mayWrite m a 8 = true → st = 1 ∨ st = 2 ∨ st = 3 → ∃ w, exec (.streamStop m e) s = .next w ∧
      (e < s.eng.length → (w.engine e).st = 5 ∧ (w.engine e).done = (s.engine e).done) ∧ w.resp = .ok []) ∧
    (s.mayWrite m a 8 = true → st = 0 ∨ 4 ≤ st → exec (.streamStop m e) s = no) ∧
    (s.mayWrite m a 16 = true → st = 4 ∨ st = 5 ∨ st = 6 → exec (.streamSkip m e) s = ok (s.engSkip e)) ∧
    (s.mayWrite m a 16 = true → st < 4 → exec (.streamSkip m e) s = no)) ∧
  (∀ (s u : State) (e c addr cause n : Nat) (b : Bool) (d : Desc),
    (s.engRunning e = true → s.engineRun e false = (.done, u) ∨ s.engineRun e false = (.blocked, u) →
      exec (.streamDescDone e) s = .next u ∧ exec (.streamPageAbsent e) s = .next s ∧
      exec (.streamDescError ⟨e, false⟩) s = .next s) ∧
    (c < 4 → s.engRunning (32 + c) = true → s.engineRun (32 + c) false = (.done, u) →
      exec (.mergeTransfer c) s = .next u) ∧
    (s.engRunning e = true → s.engineRun e false = (.halt (.absent addr), u) →
      exec (.streamDescDone e) s = .next s ∧ exec (.streamPageAbsent e) s =
        .next (((u.regionMiss (0x10 + e) addr).modEng e (fun x => { x with st := 4 })).raise EV_STREAM_PAGE_ABSENT (0x10 + e)
          e 0 addr)) ∧
    (s.engRunning e = true → e < 32 → s.engineRun e b = (.halt (.error cause addr), u) →
      let w := (u.modEng e (fun x => { x with st := 6, err := cause })).raise EV_STREAM_DESC_ERROR (0x10 + e) e cause addr
      (b = false → exec (.streamDescDone e) s = .next s) ∧
      (w.engTicket e = none → exec (.streamDescError ⟨e, b⟩) s = .next w) ∧
      (w.engTicket e = some n → exec (.streamDescError ⟨e, b⟩) s =
        .next (((w.cutSource (.eng e) n).sendX (.eng e) n).abortFlight n EV_STREAM_DESC_ERROR))) ∧
    (e < 36 → (s.engine e).st = 2 → (s.engine e).desc = some d → ((s.settle d.qidx).engine e).passed = true →
      exec (.streamWaitq e) s = .next ((s.settle d.qidx).modEng e (fun x => { x with st := 1, passed := false }))) ∧
    (s.engRunning e = false → exec (.streamDescDone e) s = .next s ∧
      (s.engTicket e = none → exec (.streamDescError ⟨e, b⟩) s = .next s)))

/-- R285, R286, R289: a writer that cannot wait puts bytes into an ingress galley. Outside packet mode those enter that find
free slots; in packet mode they join the packet being assembled, which becomes readable with its last, is closed and the rest
of it lost where no slot is free, and is discarded further where that has happened; copies of the write pointer that differ
empty the galley. What stands in the ring is written by `ringWrite`. R287, R290: DROP and RESET act on the galley that the
master has selected. DROP closes the packet being assembled with what it holds and discards the rest of it, at a tile input
galley discards the rest of the packet in progress, and does nothing where there is none; RESET empties a disabled galley of
any kind and is refused on an enabled one. -/
def Obligations.GalleyCommands : Prop :=
  (∀ (s : State) (g ty : Nat) (bs : List Byte) (last : Bool), s.inv = true → g < 16 → packetType ty = true →
    let c := s.cgalCfg 1 g
    let x := s.cgal 1 g
    let put := exec (.ingressGalleyWrite g bs last ⟨ty, false⟩) s
    let fit := if c.en then min bs.length (s.cgalFree 1 g / 4 * 4) else 0
    let a := x.asm.getD { len := 0, ty := ty }
    let len := a.len + bs.length
    let room := s.asmRoom 1 g a
    let next := fun (k : Nat) => (x.wptr + k) % (c.cap / 4)
    let ring := fun (at' : Nat) (l : List Byte) => (s.ringWrite 1 g at' l 0x38).2.commons
    let rest := fun (w : State) => w.res = s.res ∧ w.tiles = s.tiles ∧ ∀ h < 16, h ≠ g → w.cgal 1 h = s.cgal 1 h
    let grows := c.pkt = true ∧ a.discard = false ∧ bs ≠ [] ∧ len ≤ c.max
    (c.pkt = false → ∃ w, put = .next w ∧ (w.cgal 1 g).raw = x.raw + 4 * ceilDiv fit 4 ∧ (w.cgal 1 g).pkts = x.pkts ∧
      (w.cgal 1 g).asm = x.asm ∧ (0 < c.cap → (w.cgal 1 g).wptr = next (ceilDiv fit 4)) ∧
      w.commons = ring (4 * x.wptr) (bs.take fit ++ zeros (4 * ceilDiv fit 4 - fit)) ∧ rest w) ∧
    (grows → len ≤ room → last = false → ∃ w, put = .next w ∧ (w.cgal 1 g).asm = some { a with len := len } ∧
      (w.cgal 1 g).pkts = x.pkts ∧ (w.cgal 1 g).raw = x.raw ∧ (w.cgal 1 g).wptr = x.wptr ∧
      w.commons = ring (4 * x.wptr + a.len) bs ∧ rest w) ∧
    (grows → len ≤ room → last = true → ∃ w, put = .next w ∧ (w.cgal 1 g).asm = none ∧ (w.cgal 1 g).raw = x.raw ∧
      (w.cgal 1 g).pkts = x.pkts ++ [⟨packetSlots 4 c.pad len, len, 0, false⟩] ∧
      (0 < c.cap → (w.cgal 1 g).wptr = next (packetSlots 4 c.pad len)) ∧ rest w) ∧
    (grows → room < len → a.len ≤ room → ∃ w, put = .next w ∧
      (w.cgal 1 g).asm = (if last then none else some { len := 0, discard := true }) ∧
      (w.cgal 1 g).pkts = x.pkts ++ (if room = 0 then [] else [⟨packetSlots 4 c.pad room, room, 0, false⟩]) ∧
      w.rdc (1 + galKey 1 0 g) STREAM_GCNT_DROP_COUNT = (s.rdc (1 + galKey 1 0 g) STREAM_GCNT_DROP_COUNT + 1) % 2 ^ 32 ∧
      (∃ e, w.log.ring.head? = some e ∧ e.code = EV_GALLEY_OVERFLOW ∧ e.a0 = g) ∧ rest w) ∧
    (c.pkt = true → a.discard = true → a.len = 0 → ∃ w, put = .next w ∧
      (w.cgal 1 g).asm = (if last then none else some a) ∧ (w.cgal 1 g).pkts = x.pkts ∧ (w.cgal 1 g).raw = x.raw ∧
      w.commons = s.commons ∧ rest w) ∧
    (∃ w, exec (.ingressGalleyWrite g bs last ⟨ty, true⟩) s = .next w ∧ (w.cgal 1 g).mismatch = true ∧
      (w.cgal 1 g).pkts = [] ∧ (w.cgal 1 g).raw = 0 ∧ (w.cgal 1 g).rptr = 0 ∧ (w.cgal 1 g).wptr = 0 ∧
      (∃ e, w.log.ring.head? = some e ∧ e.code = EV_GALLEY_PTR_MISMATCH ∧ e.a0 = g) ∧ rest w)) ∧
  (∀ (s : State) (m len : Nat) (a : Asm), s.inv = true →
    let kind := s.rdc (1 + m) STREAM_GSEL_KIND
    let t := s.rdc (1 + m) STREAM_GSEL_TILE
    let n := s.rdc (1 + m) STREAM_GSEL_NUM
    let c := s.cgalCfg kind n
    let x := s.cgal kind n
    let p := s.portCfg t n
    let g := (s.tile t).ports.gal n
    let key := 1 + galKey kind t n
    let ok := fun (u : State) => Host.Outcome.next (φ := Fault) (ρ := Refusal) (u.answer (.ok []))
    let drop := exec (.galleyDrop m) s
    let reset := exec (.galleyReset m) s
    let shared := (kind = 1 ∧ n < 16) ∨ (kind = 2 ∧ n < 256)
    let counted := fun (w : State) (k : Nat) => w.rdc k STREAM_GCNT_DROP_COUNT = (s.rdc k STREAM_GCNT_DROP_COUNT + 1) % 2 ^ 32
    let alone := fun (w : State) => w.tiles = s.tiles ∧ (∀ h, h ≠ n → w.cgal kind h = s.cgal kind h) ∧
      (kind = 1 → w.res = s.res) ∧ (kind = 2 → w.ing = s.ing)
    (s.mayWrite m STREAM_GCMD_DROP.addr 1 = true →
      (shared → c.pkt = true → x.asm = some a → 0 < a.len → ∃ w, drop = .next w ∧ w.resp = .ok [] ∧
        (w.cgal kind n).pkts = x.pkts ++ [⟨packetSlots 4 c.pad a.len, a.len, 0, false⟩] ∧
        (w.cgal kind n).asm = some { len := 0, discard := true } ∧ counted w (1 + galKey kind 0 n) ∧ alone w) ∧
      (shared → c.pkt = false ∨ x.asm = none ∨ (x.asm = some a ∧ a.len = 0) → drop = ok s) ∧
      (kind = 0 → n < 8 → p.pkt = true → g.pktLeft = len + 1 → ∃ w, drop = .next w ∧ w.resp = .ok [] ∧ counted w key ∧
        (t < 104 → ((w.tile t).ports.gal n).tags = g.tags.drop (len + 1) ∧
          ((w.tile t).ports.gal n).dropLeft = len + 1 - g.tags.length ∧ ((w.tile t).ports.gal n).pktLeft = 0)) ∧
      (kind = 0 → n < 8 → p.pkt = false ∨ g.pktLeft = 0 → drop = ok s) ∧
      (kind = 0 → 8 ≤ n → n < 12 → p.pkt = true → 0 < g.asm → ∃ w, drop = .next w ∧ w.resp = .ok [] ∧ counted w key ∧
        (t < 104 → ((w.tile t).ports.gal n).asm = 0 ∧ ((w.tile t).ports.gal n).dropLeft = p.pktTokens - g.asm)) ∧
      (kind = 0 → 8 ≤ n → p.pkt = false ∨ g.asm = 0 → drop = ok s)) ∧
    (s.mayWrite m STREAM_GCMD_RESET.addr 2 = true →
      (shared → c.en = false → ∃ w, reset = .next w ∧ (w.cgal kind n).pkts = [] ∧ (w.cgal kind n).raw = 0 ∧
        (w.cgal kind n).rptr = 0 ∧ (w.cgal kind n).wptr = 0 ∧ (w.cgal kind n).asm = none ∧ w.resp = .ok [] ∧ alone w) ∧
      (shared → c.en = true → reset = .next (s.refuse m STREAM_GCMD_RESET.addr)) ∧
      (kind = 0 → n < 12 → t < 104 → p.en = false → ∃ w, reset = .next w ∧ w.resp = .ok [] ∧
        (w.tile t).ports.gal n = { mismatch := g.mismatch } ∧ (∀ h, h ≠ n → (w.tile t).ports.gal h = (s.tile t).ports.gal h) ∧
        ∀ h, h ≠ t → w.tile h = s.tile h) ∧
      (kind = 0 → p.en = true → reset = .next (s.refuse m STREAM_GCMD_RESET.addr))))

/-- R291, R292, R310, R311: configuration of an Ethernet port and the state of its links, a PTP frame sent and stamped, and
the PTP receive queue. -/
def Obligations.NetPortCommands : Prop :=
  ∀ (s : State) (m p l v : Nat) (up fec : Bool) (bs : List Byte), s.inv = true → p < 2 →
    let a := (NET_CFG_MODE.net p).addr
    let b := (NET_PTP_TX_CTRL_SEND.net p).addr
    let c := (NET_PTP_RXQ_POP.net p).addr
    let mode := bits v 0 3
    let bad := fecFits mode (bits v 10 8) = false ∨ (mode ≠ 0 ∧ s.unusable (125 + p) = true)
    let frame := ((List.range 64).flatMap (fun k => leBytes 4 (s.rd ((NET_PTP_TXB_WORD.idx k).net p)))).take (bits v 0 9)
    (s.mayWrite m a v = true → bad → exec (.netCfgWrite m p v) s = .next (s.refuse m a)) ∧
    (s.mayWrite m a v = true → ¬ bad → (mode = 0 ∨ (s.powerUp [125 + p]).1 = true) → ∃ w,
      exec (.netCfgWrite m p v) s = .next w ∧ w.resp = .ok [] ∧ w.rd (NET_CFG_MODE.net p) = mode ∧
      (mode ≠ s.rd (NET_CFG_MODE.net p) → ∀ k < 4, w.linkUp p k = false) ∧ w.net = s.net ∧ w.tiles = s.tiles) ∧
    (l < modeLinks (s.rd (NET_CFG_MODE.net p)) → ∃ w, exec (.netLinkChange p l up fec) s = .next w ∧ w.linkUp p l = up ∧
      (∀ k < 4, k ≠ l → w.linkUp p k = s.linkUp p k) ∧ (s.linkUp p l = up → w = { s with regs := w.regs }) ∧
      (s.linkUp p l ≠ up → w = { s with regs := w.regs, log := w.log, host := w.host } ∧
        ∃ e, w.log.ring.head? = some e ∧ e.code = EV_NET_LINK_CHANGE ∧ e.a0 = p ∧ e.a1 = l ∧ e.a2 = b2n up)) ∧
    (modeLinks (s.rd (NET_CFG_MODE.net p)) ≤ l → exec (.netLinkChange p l up fec) s = .next s) ∧
    (s.mayWrite m b v = true → bit v 31 = true → s.rd (NET_PTP_TX_CTRL_BUSY.net p) = 0 → 60 ≤ bits v 0 9 → ∃ w,
      exec (.ptpSend m p v) s = .next w ∧ w.resp = .ok [] ∧ (w.port p).txWait = some (bits v 16 2, frame) ∧
      w.rd (NET_PTP_TX_CTRL_BUSY.net p) = 1 ∧ w = { s with resp := w.resp, regs := w.regs, net := w.net }) ∧
    (s.mayWrite m b v = true → bit v 31 = true → s.rd (NET_PTP_TX_CTRL_BUSY.net p) = 1 ∨ bits v 0 9 < 60 →
      exec (.ptpSend m p v) s = .next (s.refuse m b)) ∧
    ((s.port p).txWait = some (l, bs) → s.linkUp p l = true → ∃ w, exec (.ptpTxDone p) s = .next w ∧
      w.host.out = s.host.out ++ [.netFrame p l bs] ∧ (w.port p).txWait = none ∧
      w.rd (NET_PTP_TX_TS_LO_NS.net p) = s.now % 2 ^ 32 ∧ w.rd (NET_PTP_TX_TS_HI_NS.net p) = s.now / 2 ^ 32 % 2 ^ 32 ∧
      w.rd (NET_PTP_TX_CTRL_TS_VALID.net p) = 1 ∧ w.rd (NET_PTP_TX_CTRL_BUSY.net p) = 0 ∧
      w = { s with regs := w.regs, net := w.net, host := w.host }) ∧
    ((s.port p).txWait = none → exec (.ptpTxDone p) s = .next s) ∧
    (s.mayWrite m c (2 ^ 31) = true → (s.port p).rxCount = 0 → exec (.ptpRxqPop m p) s = .next (s.refuse m c)) ∧
    (s.mayWrite m c (2 ^ 31) = true → (s.port p).rxCount ≠ 0 → exec (.ptpRxqPop m p) s =
      .next ((s.modNet p (fun x => { x with rxCount := x.rxCount - 1, head := (x.head + 1) % 64 })).answer (.ok [])))

/-- R293, R297, R298, R301 to R309: a frame received is discarded under the cause of the first check that it fails, for want
of room in the receive buffer, queued for PTP or placed in the jitter buffer of its context; a complete access unit is
released, an incomplete one is lost after JB_TIMEOUT; a decoder takes its next unit, and a picture that it makes is recorded
and goes to a free buffer; a picture written makes an input whole; the ingest registers are guarded. That a unit which cannot
be read is not decoded is the model's choice (log entry 80). -/
def Obligations.IngestPath : Prop :=
  ∀ (s : State) (m p l k c d b i n refs off v : Nat) (fcs irap : Bool) (f : List Byte) (r : Rtp) (a : Nat) (x : Ctx) (q : JPkt)
    (out : DecOut) (pics : List (Nat × Picture)) (cs : List Nat) (au : Au) (pic : Picture)
    (rest : List (Nat × Picture × Au)), s.inv = true →
    let g := (s.ctx c).ing
    let fits := n + f.length ≤ 524288
    let live := p < 2 ∧ l < 4 ∧ s.netReady p = true ∧ s.linkUp p l = true
    let limit := s.ictx c NET_CTX_JB_JB_TIMEOUT * 100000
    let next := s.decQ.getD d [] = i :: cs ∧ i % 4096 = c ∧ g.aus.find? (fun u => u.seq == i / 4096) = some au ∧ out ≠ .begun irap ∧
      out ≠ .begun (!irap)
    let taken := (s.unqueue d i).modIng c (fun g => { g with aus := g.aus.filter (fun u => u.seq != au.seq) })
    let read := if (s.ctx c).jbCount = 0 then (true, taken) else taken.auRead d (au.addrs.zip (au.data.map (fun b => b.length)))
    let works := next ∧ s.unusable (107 + d) = false ∧ read.1 = true
    let bare := { au with data := [], addrs := [] }
    let good := works ∧ out = .pictures irap refs [(0, pic)] ∧ refs ≤ s.ictx c NET_CTX_DEC_DPB_FRAMES ∧
      codedOk (s.ictx c NET_CTX_CFG_PAYLOAD) pic = true ∧ (g.st ≠ 1 ∨ irap = true) ∧ g.part = none
    let number := if g.st = 1 then 0 else g.picIdx
    let word := 0x0A00090000 + off
    let cfg := s.rdc (1 + m) NET_CTX_SEL_CTX
    (live → s.rxCheck p l fcs f = .drop k → exec (.netFrameReceive p l ⟨fcs, n⟩ f) s =
      .next (s.inc ((NET_DROP_COUNT.idx k).net p))) ∧
    (live → exec (.netFrameReceive p l ⟨false, n⟩ f) s = .next (s.inc ((NET_DROP_COUNT.idx 0).net p))) ∧
    (live → (∀ j < 16, s.rxCheck p l fcs f ≠ .drop j) → ¬ fits → exec (.netFrameReceive p l ⟨fcs, n⟩ f) s =
      .next (s.inc ((NET_DROP_COUNT.idx 13).net p))) ∧
    (live → s.rxCheck p l fcs f = .ptp → fits → (s.port p).rxCount < 64 → ∃ w, exec (.netFrameReceive p l ⟨fcs, n⟩ f) s = .next w ∧
      (w.port p).rxCount = (s.port p).rxCount + 1 ∧ w = { s with regs := w.regs, net := w.net }) ∧
    (live → s.rxCheck p l fcs f = .rtp c r → fits → exec (.netFrameReceive p l ⟨fcs, n⟩ f) s = .next (s.ingest c p r)) ∧
    (¬ live → exec (.netFrameReceive p l ⟨fcs, n⟩ f) s = .next s) ∧
    (g.first = some a → (s.ctx c).st = 2 → g.complete a = true → s.ictx c NET_CTX_CFG_PAYLOAD ≠ 2 → ∃ w,
      exec (.auRelease c) s = .next w ∧ (w.ctx c).ing.held = g.held.filter (fun p => p.au != a) ∧
      (w.ctx c).ing.aus.map (·.data) = g.aus.map (·.data) ++ [(g.unit a).map (·.payload)] ∧
      (s.ictx c NET_CTX_CFG_SLICE = 0 → w.decQ = s.decQ) ∧ w = { s with regs := w.regs, ctxs := w.ctxs, decQ := w.decQ }) ∧
    (g.first = some a → g.complete a = false → exec (.auRelease c) s = .next s) ∧
    (s.ctxs = [(c, x)] → x.st = 2 → g.units = [a] → g.complete a = false → g.held.find? (fun p => p.au == a) = some q →
      (q.time + limit ≤ s.base → exec .jitterBufferCheck s = .next (s.loseAu c a)) ∧
      (s.base < q.time + limit → exec .jitterBufferCheck s = .next s)) ∧
    (s.decQ.getD d [] = [] → exec (.auDecode d out) s = .next s) ∧
    (next → s.unusable (107 + d) = true → exec (.auDecode d out) s = .next (taken.dropPart c)) ∧
    (next → s.unusable (107 + d) = false → read.1 = false → exec (.auDecode d out) s = .next (read.2.dropPart c)) ∧
    (works → g.st = 1 → out = .pictures false refs pics → refs ≤ s.ictx c NET_CTX_DEC_DPB_FRAMES →
      exec (.auDecode d out) s = .next (read.2.dropPart c)) ∧
    (works → out = .pictures irap refs pics → s.ictx c NET_CTX_DEC_DPB_FRAMES < refs → g.part = none → exec (.auDecode d out) s =
      .next ((read.2.modIng c (fun g => { g with st := 1 })).raise EV_DEC_UNSUPPORTED (0x40 + d) 0 0 0)) ∧
    (works → out = .streamError → g.part = none → exec (.auDecode d out) s =
      .next (((read.2.modIng c (fun g => { g with part := none, st := 1 })).ctxCount c 4).raise EV_DEC_STREAM_ERROR (0x40 + d) 0 0 0)) ∧
    (good → ∃ w, exec (.auDecode d out) s = .next w ∧ w.decQ = modAt s.decQ d (fun l => l.filter (fun j => j != i)) ∧
      (w.ctx c).ing.aus = g.aus.filter (fun u => u.seq != au.seq) ∧ (w.ctx c).ing.st = (if g.st = 1 then 2 else g.st) ∧
      (w.ctx c).ing.decoded.head? = some bare ∧ (w.ctx c).ing.part = none ∧ w.tiles = s.tiles ∧ w.adm = s.adm) ∧
    (good → number % (s.ictx c NET_CTX_PIC_OUT_DIV_M1 + 1) = 0 → indexOf? (fun y => y == BufSt.free) (s.ctx c).bufs = some b → ∃ w,
      exec (.auDecode d out) s = .next w ∧ (w.ctx c).ing.pics = g.pics ++ [(b, pic, bare)] ∧ (w.ctx c).ing.picIdx = number + 1 ∧
      (w.ctx c).bufs = setAt (s.ctx c).bufs b .claimed) ∧
    (s.decQ.getD d [] = i :: cs → i % 4096 = c → g.early = some (i / 4096) → (∀ u ∈ g.aus, u.seq ≠ i / 4096) →
      s.unusable (107 + d) = false → exec (.auDecode d (.begun irap)) s = .next (s.decBegun c irap)) ∧
    (g.pics = (b, pic, au) :: rest → (s.ctx c).st ≠ 2 → exec (.pictureWhole c) s =
      .next ((s.modIng c (fun g => { g with pics := rest })).freeBuf c b)) ∧
    (g.pics = (b, pic, au) :: rest → (s.ctx c).st = 2 → ∃ w, exec (.pictureWhole c) s = .next w ∧
      (w.ctx c).bufs = setAt (s.ctx c).bufs b .whole ∧
      w.adm.waiting = s.adm.waiting ++ [⟨c, b, s.base, au.seq, au.ts, au.arrival⟩] ∧ w.tiles = s.tiles ∧ w.quoins = s.quoins) ∧
    (0x1004 ≤ off → off ≤ 0x103C → s.mayWrite m word v = true → 2 ≤ (s.ctx cfg).st →
      exec (.ctxCfgWrite m off v) s = .next (s.refuse m word)) ∧
    (s.mayWrite m 0x0A00091004 v = true → bit v 27 = true → bits v 0 12 = 0 ∨ bits v 0 12 = 4095 →
      exec (.ctxCfgWrite m 0x1004 v) s = .next (s.refuse m 0x0A00091004)) ∧
    (0x1004 ≤ off → off ≤ 0x103C → s.mayWrite m word v = true → (s.ctx cfg).st < 2 → evenOk word v = true →
      vidOk ((s.setFields m word v).ictx cfg NET_CTX_CFG_VLAN_EN) ((s.setFields m word v).ictx cfg NET_CTX_CFG_VID) = true →
      (s.setFields m word v).ictx cfg NET_CTX_CFG_EN = 0 → ((s.setFields m word v).decoderPower).1 = true →
      exec (.ctxCfgWrite m off v) s = .next ((((s.setFields m word v).decoderPower).2.noteLoads).answer (.ok [])))

/-- R311, R315, R323, R324, R353, R423: the result galleys of a port take turns, and each datagram carries what fits of the
oldest record, which is removed with its last one; a record leaves over USB in one transfer, and over the stream port as one
record, which pauses where SP_XOFF_IN stops it. That one command sends one datagram is the model's reading (log entry 85). -/
def Obligations.ResultsLeave : Prop :=
  ∀ (s u : State) (p g j : Nat) (bs : List Byte) (k : Pkt) (ks : List Pkt), s.inv = true →
    let free := ∀ x ∈ (s.port p).txWait, s.linkUp p x.1 = false
    let ready := p < 2 ∧ g < 256 ∧ s.resultTurn p = some g ∧ free ∧ (s.cgal 2 g).pkts = k :: ks
    let n := min (s.resultMtu p g) (k.len - k.drained)
    let read := s.ringRead 2 g (4 * (s.cgal 2 g).rptr + k.drained) n (0x51 + p)
    let passed := fun (w : State) => w.modNet p (fun x => { x with turn := g })
    let ahead := fun (i : Nat) => (i + 256 - ((s.port p).turn + 1) % 256) % 256
    let port := s.rd SPORT_CFG_EN ≠ 0 ∧ s.rd SPORT_STATUS_ALIGNED ≠ 0 ∧ s.rd SPORT_STATUS_STALLED ≠ 1 ∧
      s.spTurn = some g ∧ s.sport.sending = none ∧ (s.cgal 2 g).pkts = k :: ks
    let ch := s.rdc (1 + g) SPORT_RES_CFG_CH
    let size := 4 * ceilDiv k.len 4
    (ready → read = (some bs, u) → k.len ≤ k.drained + n → exec (.resultDatagramSend p g) s =
      .next (passed ((u.sendFragment p g k.drained k.len bs).popPacket 2 g))) ∧
    (ready → read = (some bs, u) → k.drained + n < k.len → exec (.resultDatagramSend p g) s =
      .next (passed ((u.sendFragment p g k.drained k.len bs).setDrained g (k.drained + n)))) ∧
    (ready → read = (none, u) → exec (.resultDatagramSend p g) s = .next (passed (u.popPacket 2 g))) ∧
    (∃ l f, (u.sendFragment p g k.drained k.len bs).host.out = u.host.out ++ [.netFrame p l f]) ∧
    (s.resultTurn p ≠ some g ∨ ¬ free → exec (.resultDatagramSend p g) s = .next s) ∧
    (s.resultTurn p = some g → s.resultReady p g = true ∧ (j < 256 → s.resultReady p j = true → ahead g ≤ ahead j)) ∧
    (j < 256 → s.resultReady p j = true → s.resultTurn p ≠ none) ∧
    (s.linked false = true → s.usbGalley = some g → s.headPacket 2 g 0x70 = (some bs, u) → exec .usbResultTransfer s =
      .next ((({ u with host := { u.host with usbNext := (g + 1) % 256 } }).emit (.usbRecord bs)).popPacket 2 g)) ∧
    (s.linked false = true → s.usbGalley = some g → s.headPacket 2 g 0x70 = (none, u) → exec .usbResultTransfer s =
      .next (({ u with host := { u.host with usbNext := (g + 1) % 256 } }).popPacket 2 g)) ∧
    (s.linked false = false ∨ s.usbGalley = none → exec .usbResultTransfer s = .next s) ∧
    (port → s.rd SPORT_STATUS_XOFF_IN = 0 → s.headPacket 2 g 0xFF = (some bs, u) → ∃ w ws,
      exec (.sportRecordSend g) s = .next w ∧ w.host.out = u.host.out ++
        [.sportRecord ch (s.sport.seqs.getD ch 0) (bs ++ zeros (4 * ceilDiv bs.length 4 - bs.length)), .sportWords ws] ∧
      w.sport.sending = none ∧ w.sport.galTurn = g) ∧
    (port → s.rd SPORT_STATUS_XOFF_IN = 1 → size ≤ s.sport.left → exec (.sportRecordSend g) s =
      .next (({ s with sport := { s.sport with left := s.sport.left - size } }).spSend g)) ∧
    (port → s.rd SPORT_STATUS_XOFF_IN = 1 → s.sport.left < 8 → s.sport.left < size → exec (.sportRecordSend g) s = .next s) ∧
    (port → s.rd SPORT_STATUS_XOFF_IN = 1 → 8 ≤ s.sport.left → s.sport.left < size → s.headPacket 2 g 0xFF = (some bs, u) →
      ∃ w ws, exec (.sportRecordSend g) s = .next w ∧ w.sport.left = 0 ∧ w.sport.sending = some g ∧
      w.host.out = u.host.out ++ [.sportWords ws] ∧ (w.cgal 2 g).pkts.map (·.len) = (u.cgal 2 g).pkts.map (·.len)) ∧
    (s.spTurn ≠ some g ∨ s.sport.sending ≠ none → exec (.sportRecordSend g) s = .next s)

/-- R316 to R321, R324: the stream port's scrambler, the lock of a lane by the sync headers of its words, its link, records
received, their errors, and SP_XOFF_IN. -/
def Obligations.StreamPortLink : Prop :=
  (∀ (h w : Nat), h < 2 ^ 58 → w < 2 ^ 64 → descramble h (scramble h w).2 = ((scramble h w).1, w)) ∧
  ∀ (s : State) (lane t header word : Nat) (b : Bool) (r : SpRec), s.inv = true → s.rd SPORT_CFG_EN = 1 →
    let up := s.rd SPORT_STATUS_ALIGNED = 1
    let locked := (s.rd SPORT_STATUS_LOCK).testBit lane
    let come : SpIn := .words (List.replicate lane [] ++ [[(header, word)]])
    let valid := header = 1 ∨ header = 2
    let z := { s with sport := { s.sport with cur := none, tail := [] } }
    let whole := r.kind = .whole ∧ r.ch < 16 ∧ 4 ≤ r.payload.length ∧ r.payload.length ≤ 65532 ∧ r.payload.length % 4 = 0
    let crc := spCrc r.ch r.seq r.payload = r.crc
    ((b = true → s.rd SPORT_STATUS_LOCK % 2 ^ s.lanes = 2 ^ s.lanes - 1) → ∃ w, exec (.sportLinkChange b) s = .next w ∧
      w.rd SPORT_STATUS_ALIGNED = b2n b ∧ (b = false → up → w.sport.cur = none)) ∧
    (s.rd SPORT_STATUS_LOCK % 2 ^ s.lanes ≠ 2 ^ s.lanes - 1 → exec (.sportLinkChange true) s = .next s) ∧
    (lane < s.lanes → ∃ w, exec (.sportLaneLock lane false) s = .next w ∧ (w.rd SPORT_STATUS_LOCK).testBit lane = false ∧
      w.rd SPORT_STATUS_ALIGNED = 0) ∧
    (lane < s.lanes → lane < 4 → ∃ w, exec (.sportLaneLock lane true) s = .next w ∧
      (w.rd SPORT_STATUS_LOCK).testBit lane = true ∧ w = { s with regs := w.regs, sport := w.sport }) ∧
    (lane < s.lanes → lane < 4 → ¬ up → locked = false → (s.lane lane).good = 63 → valid → ∃ w,
      exec (.sportRecordReceive come) s = .next w ∧ (w.rd SPORT_STATUS_LOCK).testBit lane = true) ∧
    (lane < s.lanes → lane < 4 → ¬ up → locked = false → (s.lane lane).good < 63 ∨ ¬ valid → ∃ w,
      exec (.sportRecordReceive come) s = .next w ∧ (w.rd SPORT_STATUS_LOCK).testBit lane = false ∧
      (w.lane lane).good = (if header = 1 ∨ header = 2 then (s.lane lane).good + 1 else 0)) ∧
    (lane < s.lanes → lane < 4 → locked = true → ¬ valid →
      15 ≤ (((s.lane lane).recent.take 63).filter (fun x => !x)).length → ∃ w, exec (.sportRecordReceive come) s = .next w ∧
      (w.rd SPORT_STATUS_LOCK).testBit lane = false ∧ w.rd SPORT_STATUS_ALIGNED = 0) ∧
    (¬ up → exec (.sportRecordReceive (.record r)) s = .next s ∧ exec .sportAbortBlock s = .next s) ∧
    (up → s.sport.cur = none → whole → crc → s.rd (SPORT_CH_EN.idx r.ch) ≠ 0 →
      exec (.sportRecordReceive (.record r)) s = .next ((z.spWrite r none true).inc (SPORT_CNT_COUNT.idx 0))) ∧
    (up → s.sport.cur = none → whole → crc → s.rd (SPORT_CH_EN.idx r.ch) = 0 →
      exec (.sportRecordReceive (.record r)) s = .next (z.inc (SPORT_CNT_COUNT.idx 4))) ∧
    (up → s.sport.cur = none → whole → ¬ crc → exec (.sportRecordReceive (.record r)) s = .next (s.spError 1)) ∧
    (s.sport.cur = some r → s.sport.since + s.rd SPORT_CFG_REC_TIMEOUT * 1000 ≤ s.base → ∃ w,
      exec .sportRecTimeout s = .next w ∧ w.sport.cur = none) ∧
    (s.sport.cur = some r → s.base < s.sport.since + s.rd SPORT_CFG_REC_TIMEOUT * 1000 → exec .sportRecTimeout s = .next s) ∧
    (up → s.sport.cur = none → exec .sportAbortBlock s = .next (s.inc (SPORT_CNT_COUNT.idx 5))) ∧
    (up → s.sport.cur = some r → exec .sportAbortBlock s = .next (s.spWithdraw 5)) ∧
    (s.rd SPORT_STATUS_XOFF_IN = 0 → exec (.spXoffIn false) s = .next s ∧ ∃ w, exec (.spXoffIn true) s = .next w ∧
      w.rd SPORT_STATUS_XOFF_IN = 1 ∧ w.sport = { s.sport with xoffSince := some s.base, left := 512 } ∧
      w = { s with regs := w.regs, sport := w.sport }) ∧
    (s.sport.xoffSince = some t → t + s.rd SPORT_EGR_XOFF_TIMEOUT * 1000 ≤ s.base → ∃ w, exec .sportXoffStuck s = .next w ∧
      w.rd SPORT_STATUS_STALLED = 1 ∧ w.sport = { s.sport with xoffSince := none, cut := s.sport.sending.isSome } ∧
      ∃ e, w.log.ring.head? = some e ∧ e.code = EV_SPORT_XOFF_STUCK) ∧
    (s.sport.xoffSince = some t → s.base < t + s.rd SPORT_EGR_XOFF_TIMEOUT * 1000 → exec .sportXoffStuck s = .next s)

/-- R329 to R335, R337, R418: the Burl fabric's commands, its staged release on edges of CLK0, its bridges, capture, and the
I/O cells' inputs and supplies. -/
def Obligations.BurlCommands : Prop :=
  ∀ (s u : State) (m q k c v t w0 : Nat) (x : Bool) (put : PutEnd), s.inv = true → put ≠ .waits →
    let a := BURL_CTRL_LOAD.addr
    let word := fun (b : Nat) => 2 ^ b + 16 * s.rd BURL_CTRL_HOLD_RELEASE
    let z := s.bq q
    let g := s.qf q BURL_QCFG_GALLEY
    let ctx := s.qf q BURL_QCFG_CTX
    (s.mayWrite m a (word 1) = true → s.burl.st = 0 → s.powerUp [127] = (true, u) → exec (.burlLoad m) s =
      .next (((u.setFields m a (word 1)).burlLoad).answer (.ok []))) ∧
    (s.mayWrite m a (word 1) = true → s.burl.st ≠ 0 → exec (.burlLoad m) s = .next (s.refuse m a)) ∧
    (s.mayWrite m a (word 3) = true → s.burl.st = 2 → exec (.burlRelease m) s =
      .next (((s.setFields m a (word 3)).burlStep4).answer (.ok []))) ∧
    (s.mayWrite m a (word 3) = true → s.burl.st ≠ 2 → exec (.burlRelease m) s = .next (s.refuse m a)) ∧
    (s.mayWrite m a (word 2) = true → s.burl.st = 2 ∨ s.burl.st = 4 → ∃ w, exec (.burlUnload m) s = .next w ∧
      w.burl.st = 3 ∧ w.burl.unloading = true ∧ w.burl.edges = 8 ∧ w.burl.run = false ∧ w.burl.cap = none ∧ w.resp = .ok []) ∧
    (s.mayWrite m a (word 2) = true → s.burl.st ≠ 2 → s.burl.st ≠ 4 → exec (.burlUnload m) s = .next (s.refuse m a)) ∧
    (4 ≤ k ∨ s.burl.st < 2 → exec (.burlClockEdge k) s = .next s) ∧
    (k < 4 → s.burl.st = 4 → ∃ w, exec (.burlClockEdge k) s = .next w ∧ w.burl.st = 4 ∧ w.burl.run = s.burl.run ∧
      w.burl.lastEdge = setAt s.burl.lastEdge k s.base ∧ w.tiles = s.tiles ∧ w.base = s.base) ∧
    (s.burl.st = 3 → s.burl.edges = 1 → s.burl.unloading = false → ∃ w, exec (.burlClockEdge 0) s = .next w ∧
      (s.burl.writes = false → w.burl.st = 3 ∧ w.burl.writes = true ∧ w.burl.edges = 4) ∧
      (s.burl.writes = true → w.burl.st = 4 ∧ w.burl.run = true ∧
        ∃ e, w.log.ring.head? = some e ∧ e.code = EV_BURL_CONFIGURED)) ∧
    (s.burl.st = 3 → s.burl.edges = 1 → s.burl.unloading = true → ∃ w, exec (.burlClockEdge 0) s = .next w ∧ w.burl.st = 0 ∧
      w.burl.outs = false) ∧
    (s.bridgeOn q 2 = false ∨ z.level = 0 → exec (.burlGalleyPacket q) s = .next s) ∧
    (s.bridgeOn q 2 = true → z.level ≠ 0 → z.head = (w0, 2) → z.run = true → z.bad = false →
      s.galleyPut 1 g (leBytes 4 w0) true true 0x11 0x38 = (put, u) → exec (.burlGalleyPacket q) s =
      .next (u.modQ q (fun y => { y.pop with run := false, bad := false, waitSince := none }))) ∧
    (z.waitSince = some t → s.bridgeOn q 2 = true → t + s.rd BURL_BRIDGE_TIMEOUT_US * 1000 ≤ s.base → ∃ w,
      exec (.burlBridgeTimeout q) s = .next w ∧ (w.bq q).run = true ∧ (w.bq q).bad = true ∧ (w.bq q).waitSince = none ∧
      ∃ e, w.log.ring.head? = some e ∧ e.code = EV_BURL_BRIDGE_TIMEOUT) ∧
    (z.waitSince = some t → s.base < t + s.rd BURL_BRIDGE_TIMEOUT_US * 1000 → exec (.burlBridgeTimeout q) s = .next s) ∧
    (s.bridgeOn q 3 = false → exec (.burlPictureWhole q) s = .next s) ∧
    (s.bridgeOn q 3 = true → z.due = true → (s.ctx ctx).st = 2 →
      s.galleyPut 1 g (zeros 4 ++ leBytes 4 ctx ++ leBytes 4 (z.buf.getD 0) ++ leBytes 4 s.now) true true 0x11 0x38 = (put, u) →
      ∃ w, exec (.burlPictureWhole q) s = .next w ∧ (w.bq q).due = false ∧
        w.adm.waiting = s.adm.waiting ++ [⟨ctx, z.buf.getD 0, s.base, z.seq, 0, z.arrival⟩]) ∧
    (s.mayWrite m BURL_CAPTURE_ARM.addr v = true → bits v 23 1 = 0 → bits v 0 10 = 0 →
      exec (.burlCaptureArm m v) s = .next (s.refuse m BURL_CAPTURE_ARM.addr)) ∧
    (s.mayWrite m BURL_CAPTURE_ARM.addr v = true → bits v 23 1 = 1 ∨ bits v 0 10 ≠ 0 → bit v 31 = true → s.burl.st = 4 →
      s.rd BURL_CAPTURE_BUSY = 0 → ∃ w, exec (.burlCaptureArm m v) s = .next w ∧ w.burl.cap = some (bits v 0 10) ∧
      w.rd BURL_CAPTURE_BUSY = 1 ∧ w = { s with resp := .ok [], regs := w.regs, burl := w.burl }) ∧
    (s.burl.fired = true → ∃ w, exec .burlCaptureDone s = .next w ∧ w.rd BURL_CAPTURE_BUSY = 0 ∧ w.rd BURL_CAPTURE_DONE = 1 ∧
      w.burl = { s.burl with fired := false }) ∧
    (s.burl.fired = false → exec .burlCaptureDone s = .next s) ∧
    (s.io.bank.getD (c / 8) 0 = 0 ∨ s.base < s.io.since.getD (c / 8) 0 + 100000 → exec (.ioInputChange c x) s = .next s) ∧
    (s.io.bank.getD (c / 8) 0 ≠ 0 → s.io.since.getD (c / 8) 0 + 100000 ≤ s.base → ∃ w, exec (.ioInputChange c x) s = .next w ∧
      w.io = { s.io with filt := s.io.filt.set c x } ∧ w = { s with io := w.io, burl := w.burl }) ∧
    (k < 4 → v < 3 → s.io.bank.getD k 0 ≠ v → exec (.bankSupplyChange k v) s =
      .next { s with io := { s.io with bank := s.io.bank.set k v, since := s.io.since.set k s.base } })

/-- R341 to R345, R355: sessions are opened and closed, a QUOIN request is answered or holds its session to a deadline,
EVENT_MASK is set, and the management session ends after 30 s without a request; a datagram that is no packet is discarded. -/
def Obligations.HostSessions : Prop :=
  (∀ (s u v : State) (h : HostHdr) (ver mask i n timeout : Nat), s.linked h.mgmt = true → h.form = .right →
    (s.sess h.mgmt).waitQ = none →
    (h.mgmt = true → (s.sess true).isOpen = true → (s.sess true).src = h.src ∧
      (s.sess true).kept.find? (fun k => k.1 == h.tag) = none) →
    let q := s.sess h.mgmt
    let seen := s.setSess h.mgmt { q with lastReq := s.base }
    let sent := fun (w : State) => w.host.out.length = s.host.out.length + 1
    (q.isOpen = false → s.fw.running = true → ∃ w, exec (.sessionOpen h ver) s = .next w ∧ sent w ∧
      (w.sess h.mgmt).isOpen = true ∧ (w.sess h.mgmt).restricted = !hostOk s.openCompat ver ∧ (w.sess h.mgmt).version = ver ∧
      (w.sess h.mgmt).waitQ = none ∧ w.tiles = s.tiles) ∧
    (q.isOpen = true → exec (.sessionOpen h ver) s = .next (seen.respond h 1 8 [])) ∧
    (q.isOpen = true → ∃ w, exec (.sessionClose h) s = .next w ∧ sent w ∧ w.sess h.mgmt = {}) ∧
    (q.isOpen = false → exec (.sessionClose h) s = .next (s.respond h 2 4 []) ∧
      exec (.eventMask h mask) s = .next (s.respond h 8 4 [])) ∧
    (q.isOpen = true → s.fw.running = true → ∃ w, exec (.eventMask h mask) s = .next w ∧ sent w ∧
      (w.sess h.mgmt).mask = mask % 2 ^ 32) ∧
    (q.isOpen = true → q.restricted = true → exec (.quoin h i 0 n timeout) s = .next (seen.respond h 7 5 [])) ∧
    (q.isOpen = true → q.restricted = false → s.fw.running = true → i < 131072 → timeout ≤ 1000000 →
      (seen.accessCheck (hostMaster h) (quoinWord i) 4 rightW = (true, u) →
        exec (.quoin h i 0 n timeout) s = .next ((u.qsignal (hostMaster h) i n).reply h 7 0
          (leBytes 4 ((u.qsignal (hostMaster h) i n).qcount i))) ∧
        (u.qwait i n (.host h.mgmt) = (true, v) → exec (.quoin h i 1 n timeout) s =
          .next (v.reply h 7 0 (leBytes 4 (v.qcount i)))) ∧
        (u.qwait i n (.host h.mgmt) = (false, v) → timeout ≠ 0 → exec (.quoin h i 1 n timeout) s =
          .next (v.setSess h.mgmt { v.sess h.mgmt with waitQ := some (h, i, v.base + timeout * 1000) }))))) ∧
  (∀ (s : State) (h : HostHdr) (ver mask i n timeout : Nat), s.linked h.mgmt = true → h.form ≠ .right →
    let q := s.sess h.mgmt
    let drop := s.inc MGMT_DROP_COUNT
    (h.mgmt = true → h.form = .wrongHeader → exec (.sessionOpen h ver) s = .next drop ∧ exec (.sessionClose h) s = .next drop ∧
      exec (.eventMask h mask) s = .next drop ∧ exec (.quoin h i 0 n timeout) s = .next drop ∧
      exec (.regRead h i n) s = .next drop) ∧
    (h.mgmt = false → q.waitQ = none → exec (.sessionOpen h ver) s = .next (s.respond h 1 3 [])) ∧
    (h.mgmt = false → q.waitQ = none → q.isOpen = true → q.restricted = false →
      exec (.quoin h i 0 n timeout) s = .next ((s.setSess false { q with lastReq := s.base }).respond h 7 3 []))) ∧
  (∀ (s : State) (b : Bool) (w : HostHdr × Nat × Nat),
    let x := s.sess b
    (x.waitQ = none → exec (.quoinRequestTimeout b) s = .next s) ∧
    (x.waitQ = some w → ((s.settle w.2.1).sess b).waitQ = some w → w.2.2 ≤ (s.settle w.2.1).base →
      exec (.quoinRequestTimeout b) s = .next (((((s.settle w.2.1).dropWaits (.host b)).unhold b)).respond w.1 7 6
        (leBytes 4 ((((s.settle w.2.1).dropWaits (.host b)).unhold b).qcount w.2.1)))) ∧
    (s.host.mgmt.isOpen = true → s.host.mgmt.lastReq + 30000000000 ≤ s.base → ∃ w,
      exec .mgmtSessionTimeout s = .next w ∧ w.host.mgmt = {} ∧ w.host.usb = s.host.usb ∧ w.host.out = s.host.out) ∧
    (s.base < s.host.mgmt.lastReq + 30000000000 → exec .mgmtSessionTimeout s = .next s))

/-- R340, R343: the requests of an open session over registers and memory are made word by word and piece by piece as the
transport's master, and answered with their status; fields out of range, no session and a restricted session are answered at
once. -/
def Obligations.HostAccesses : Prop :=
  ∀ (s : State) (h : HostHdr) (a n v : Nat) (data bs : List Byte), s.linked h.mgmt = true → h.form = .right →
    (s.sess h.mgmt).waitQ = none →
    (h.mgmt = true → (s.sess true).isOpen = true → (s.sess true).src = h.src ∧
      (s.sess true).kept.find? (fun k => k.1 == h.tag) = none) →
    let q := s.sess h.mgmt
    let u := s.setSess h.mgmt { q with lastReq := s.base }
    let m := hostMaster h
    let use := q.isOpen = true ∧ q.restricted = false ∧ s.fw.running = true
    let rd := u.busRead m a 4
    let wr := u.busWrite m a (leBytes 4 v)
    let rm := u.busRead m a n
    let wm := u.busWrite m a data
    (use → a % 4 = 0 → rd.resp = .ok bs → exec (.regRead h a 1) s = .next (rd.reply h 3 0 bs)) ∧
    (use → a % 4 = 0 → rd.resp = .busError → exec (.regRead h a 1) s = .next (rd.reply h 3 1 [])) ∧
    (use → a % 4 = 0 → wr.resp = .ok bs → exec (.regWrite h a [v]) s = .next (wr.reply h 4 0 (leBytes 4 1))) ∧
    (use → a % 4 = 0 → wr.resp = .refused → exec (.regWrite h a [v]) s = .next (wr.reply h 4 2 (leBytes 4 0))) ∧
    (use → memForm h.mgmt a n = true → n ≤ 256 - a % 256 → rm.resp = .ok bs →
      exec (.memRead h a n) s = .next (rm.reply h 5 0 bs)) ∧
    (use → memForm h.mgmt a n = true → n ≤ 256 - a % 256 → rm.resp = .uncorr →
      exec (.memRead h a n) s = .next (rm.reply h 5 7 [])) ∧
    (use → memForm h.mgmt a data.length = true → data.length ≤ 256 - a % 256 → wm.resp = .ok bs →
      exec (.memWrite h a data) s = .next (wm.reply h 6 0 (leBytes 4 data.length))) ∧
    (use → n = 0 ∨ 64 < n ∨ a % 4 ≠ 0 → exec (.regRead h a n) s = .next (u.reply h 3 3 [])) ∧
    (use → memForm h.mgmt a n = false → exec (.memRead h a n) s = .next (u.reply h 5 3 [])) ∧
    (q.isOpen = false → exec (.regRead h a n) s = .next (s.respond h 3 4 []) ∧
      exec (.regWrite h a [v]) s = .next (s.respond h 4 4 []) ∧ exec (.memRead h a n) s = .next (s.respond h 5 4 []) ∧
      exec (.memWrite h a data) s = .next (s.respond h 6 4 [])) ∧
    (q.isOpen = true → q.restricted = true → exec (.regWrite h a [v]) s = .next (u.respond h 4 5 []) ∧
      exec (.memWrite h a data) s = .next (u.respond h 6 5 [])) ∧
    (q.isOpen = true → q.restricted = false → s.fw.running = false → memForm h.mgmt a n = true →
      exec (.memRead h a n) s = .next (u.respond h 5 2 []))

/-- R355, R423: event records leave over USB up to 32 at a time, over the management port as a datagram once 32 are queued or
the oldest has waited 1 ms, and EVENTS_LOST goes to the session that lost records once its queue has room. -/
def Obligations.EventsLeave : Prop :=
  ∀ (s : State) (b : Bool),
    let q := s.sess b
    let e := s.host.usb.events
    let g := s.host.mgmt.events
    (s.linked false = true → s.host.usb.isOpen = true → e ≠ [] → ∃ w, exec .usbEventTransfer s = .next w ∧
      w.host.out = s.host.out ++ [.usbEvents ((e.take 32).flatMap (fun x => x.2.bytes))] ∧
      w.host.usb = { s.host.usb with events := e.drop 32 } ∧ w.host.mgmt = s.host.mgmt ∧ w = { s with host := w.host }) ∧
    (s.linked false = false ∨ s.host.usb.isOpen = false ∨ e = [] → exec .usbEventTransfer s = .next s) ∧
    (s.linked true = true → s.host.mgmt.isOpen = true → s.datagramDue = true → ∃ w tag, exec .mgmtEventDatagram s = .next w ∧
      w.host.out = s.host.out ++ [.mgmtEvents s.host.mgmt.src (packet 0x80 tag 0 0 ((g.take 32).flatMap (fun x => x.2.bytes)))] ∧
      w.host.mgmt = { s.host.mgmt with events := g.drop 32 } ∧ w.host.usb = s.host.usb ∧
      w = { s with host := w.host, freeCtr := w.freeCtr }) ∧
    (s.datagramDue = false → exec .mgmtEventDatagram s = .next s) ∧
    (s.datagramDue = true ↔ 32 ≤ g.length ∨ ∃ x ∈ g.head?, x.1 + 1000000 ≤ s.base) ∧
    (q.isOpen = true → 0 < q.lost → q.events.length < 1024 → ∃ w x, exec (.eventsLost b) s = .next w ∧
      (w.sess b).events = q.events ++ [(s.base, x)] ∧ (w.sess b).lost = 0 ∧ x.code = EV_EVENTS_LOST ∧ x.a0 = q.lost ∧
      w.sess (!b) = s.sess (!b) ∧ w.log.ring.head? = some x) ∧
    (q.lost = 0 ∨ 1024 ≤ q.events.length → exec (.eventsLost b) s = .next s)

/-- R344, R345, R358, R359, R364: attachment and bus reset of the USB port, and the management port's link, settings and
lease. -/
def Obligations.PortsAttach : Prop :=
  ∀ (s : State) (m v off speed ip mask gw : Nat) (b : Bool), s.inv = true → v < 2 ^ 32 →
    let reach := min speed (4 - s.rd USB_CTRL_MAX_SPEED)
    let a := MGMT_CFG_STATIC.addr
    (∃ w, exec (.usbAttach false speed b) s = .next w ∧ w.rd USB_STATUS_VBUS = 0 ∧ w.rd USB_STATUS_SPEED = 0 ∧
      w.rd USB_STATUS_CONFIGURED = 0 ∧ w.host.usb = {}) ∧
    (s.rd SYS_FUNC_READY_USB = 1 → speed ≤ 4 → ∃ w, exec (.usbAttach true speed b) s = .next w ∧ w.rd USB_STATUS_VBUS = 1 ∧
      w.rd USB_STATUS_SPEED = reach ∧ w.rd USB_STATUS_CONFIGURED = (if b = true ∧ 0 < reach then 1 else 0) ∧
      w = { s with regs := w.regs }) ∧
    (∃ w, exec (.usbBusReset b) s = .next w ∧ w.host.usb = {} ∧ w.host.mgmt = s.host.mgmt ∧ w.rd USB_STATUS_CONFIGURED = 0 ∧
      w.rd USB_BUS_RESETS_COUNT = (s.rd USB_BUS_RESETS_COUNT + 1) % 2 ^ USB_BUS_RESETS_COUNT.len ∧
      (b = true → w.rd USB_STATUS_SPEED = 0)) ∧
    (s.mayWrite m USB_CTRL_MAX_SPEED.addr v = true → ∃ w, exec (.usbCtrlWrite m v) s = .next w ∧ w.resp = .ok [] ∧
      w.rd USB_CTRL_MAX_SPEED = bits v 0 2 ∧ w = { s with resp := w.resp, regs := w.regs }) ∧
    (s.mayWrite m a v = true → m ≠ 0x71 → ∃ w, exec (.mgmtCfgWrite m v) s = .next w ∧ w.resp = .ok [] ∧
      w.rd MGMT_CFG_STATIC = bits v 1 1 ∧ w.rd MGMT_STATUS_LINK_UP = 0 ∧ w.rd MGMT_STATUS_ADDR_VALID = bits v 1 1 ∧
      w.host.mgmt = {}) ∧
    (s.mayWrite 0x71 a v = true → exec (.mgmtCfgWrite 0x71 v) s = .next (s.refuse 0x71 a)) ∧
    (s.mayWrite m (a + 8) v = true → m ≠ 0x71 → s.rd MGMT_CFG_STATIC = 1 → ∃ w, exec (.mgmtAddrWrite m 8 v) s = .next w ∧
      w.resp = .ok [] ∧ w.rd MGMT_IP4_ADDR = v ∧ w.host.mgmt = {}) ∧
    (off = 8 ∨ off = 12 ∨ off = 16 → s.mayWrite m (a + off) v = true →
      m = 0x71 ∨ s.rd MGMT_CFG_STATIC = 0 ∨ (off = 12 ∧ maskOk v = false) →
      exec (.mgmtAddrWrite m off v) s = .next (s.refuse m (a + off))) ∧
    (∃ w, exec (.mgmtLinkChange b speed) s = .next w ∧ w.rd MGMT_STATUS_LINK_UP = b2n b ∧
      w.rd MGMT_STATUS_SPEED = (if s.rd MGMT_CFG_SGMII = 1 ∧ speed < 3 then speed else 2) ∧ w = { s with regs := w.regs }) ∧
    (s.fw.running = true → s.rd MGMT_CFG_STATIC = 0 → s.rd MGMT_STATUS_LINK_UP = 1 → ∃ w,
      exec (.dhcpLease ip mask gw) s = .next w ∧ w.rd MGMT_IP4_ADDR = ip % 2 ^ 32 ∧ w.rd MGMT_MASK_MASK = mask % 2 ^ 32 ∧
      w.rd MGMT_GW_ADDR = gw % 2 ^ 32 ∧ w.rd MGMT_STATUS_ADDR_VALID = 1 ∧ w.rd SYS_FUNC_READY_MGMT = 1) ∧
    (s.fw.running = false ∨ s.rd MGMT_CFG_STATIC = 1 ∨ s.rd MGMT_STATUS_LINK_UP = 0 →
      exec (.dhcpLease ip mask gw) s = .next s)

/-- R349 to R351, Table 15-7: BIND, START, STOP and UNBIND in the states and with the checks of the table, LAST_ERR and the
event of a refusal, and the end of a stopping context. That a START finds no free run of region-map entries for its pages is
refused as the model's choice says (log entry 81). -/
def Obligations.ContextCommands : Prop :=
  ∀ (s : State) (m i d : Nat) (p : CtxPlan), s.inv = true →
    let c := s.rdc (1 + m) CTX_SEL_CTX
    let k := s.rdc (1 + c) CTX_BIND0_SLOT
    let x := s.slot k
    let y := s.ctx c
    let a := CTX_CMD_BIND.addr
    let ok := fun (u : State) => Host.Outcome.next (φ := Fault) (ρ := Refusal) (u.answer (.ok []))
    let no := fun (code arg : Nat) => Host.Outcome.next (φ := Fault) (ρ := Refusal) ((s.ctxRefuse c code arg).2.refuse m a)
    let may := s.isContract c = true → x.contract = true ∧ s.rd SEC_DEBUG_STATUS_ACTIVE ≠ 1 ∧ x.lmin ≤ s.limitNs c
    (s.mayWrite m a 1 = true → y.st = 0 → x.st = 2 → may → s.freeFidx k = some i → s.limitNs c ≠ 0 →
      s.rdc (1 + s.resultGalley c) CTX_RES_CFG_POLICY ≠ 3 → exec (.ctxBind m) s =
      ok ((s.modSlot k (fun z => { z with fidx := tput (fun _ => none) z.fidx i (some c) })).modCtx c (fun z =>
        { z with st := 1, slot := k, fidx := i }))) ∧
    (s.mayWrite m a 1 = true → y.st = 0 → x.st ≠ 2 → exec (.ctxBind m) s = no EV_CONTEXT_SLOT_STATE 0) ∧
    (s.mayWrite m a 1 = true → y.st = 0 → x.st = 2 → s.isContract c = false → s.freeFidx k = none →
      exec (.ctxBind m) s = no EV_LOAD_CONTEXTS 0) ∧
    (s.mayWrite m a 1 = true → y.st = 0 → x.st = 2 → s.isContract c = true → s.rd SEC_DEBUG_STATUS_ACTIVE ≠ 1 →
      s.freeFidx k = some i → x.contract = true → s.limitNs c ≠ 0 → s.limitNs c < x.lmin →
      exec (.ctxBind m) s = no EV_CONTEXT_BOUND_SHORT x.lmin) ∧
    (s.mayWrite m a 4 = true → y.st = 1 → s.rd SYS_FUNC_READY_DATA_PLANE = 1 → (s.slot y.slot).st = 2 →
      s.ictx c NET_CTX_PIC_PIC_FMT ≠ 3 ∨ s.rdc (1 + c) CTX_BIND0_SOURCE = 2 → s.ictx c NET_CTX_OUT_W ≠ 0 →
      s.ictx c NET_CTX_OUT_H ≠ 0 →
      (s.ctxPlan c = some p → p.region ≠ none → exec (.ctxStart m) s = ok ((s.ctxRun c p).unparkSlot y.slot)) ∧
      (s.ctxPlan c = some p → p.region = none → exec (.ctxStart m) s =
        no (if s.isContract c = true then EV_LOAD_PIN_REQUIRED else EV_INGEST_NO_MEMORY) 0) ∧
      (s.ctxPlan c = none → exec (.ctxStart m) s = no EV_INGEST_NO_MEMORY 0)) ∧
    (s.mayWrite m a 4 = true → y.st = 1 → s.rd SYS_FUNC_READY_DATA_PLANE = 1 → (s.slot y.slot).st ≠ 2 →
      exec (.ctxStart m) s = no EV_CONTEXT_SLOT_STATE 0) ∧
    (s.mayWrite m a 8 = true → y.st = 2 → exec (.ctxStop m) s = ok (s.modCtx c (fun z => { z with st := 3 }))) ∧
    (s.mayWrite m a 2 = true → y.st = 1 → exec (.ctxUnbind m) s = ok (s.unbindCtx c)) ∧
    (s.mayWrite m a 8 = true → y.st ≠ 2 → exec (.ctxStop m) s = .next ((s.ctxRefuseFree c).2.refuse m a)) ∧
    ((s.ctx d).st = 3 → (s.ctx d).eosDone = true → s.roleHeld s.admCore = true → ∃ w, exec (.contextStopped d) s = .next w ∧ (w.ctx d).st = 1 ∧
      ∃ e, w.log.ring.head? = some e ∧ e.code = EV_CONTEXT_STOPPED ∧ e.a1 = (s.ctx d).slot) ∧
    ((s.ctx d).st ≠ 3 ∨ (s.ctx d).eosDone = false → exec (.contextStopped d) s = .next s)

/-- R18, R30, R33, R34, R35, R214: START that is accepted ends with FAILED, the step and its event and every slot as it was,
or with the forme committed, at once or as far as the request says; a load in progress runs to its end while no command waits,
and is refused where one of its tiles has become unusable; a request while BUSY is refused; UNLOAD drains the slot and
FORME_UNLOADED releases it; a forme is locked up again once no frame is in flight. Where a load pauses and what a re-lock
leaves in LOAD_STATUS are the model's choices (log entries 17, 71). -/
def Obligations.FormesLoadAndLeave : Prop :=
  ∀ (s w : State) (m k c : Nat) (e : Nat × Nat) (p : LoadPlan) (pause : Option Nat) (job : LoadJob), s.inv = true →
    let a := LOAD_CTRL_SLOT.addr
    let v := s.ctrlWord (2 ^ 16)
    let z := s.ctrlWord (2 ^ 17)
    let u := s.setFields m a v
    let n := u.rd LOAD_CTRL_SLOT
    let ovr : Bool := u.rd LOAD_CTRL_CHECK_OVERRIDE = 1
    let t := (((u.wr LOAD_STATUS_DONE 0).wr LOAD_STATUS_FAILED 0).wr LOAD_STATUS_FAIL_STEP 0).wr LOAD_STATUS_BUSY 1
    let checks := t.tryLoad n u.imageAddr ovr (t.rd LOAD_CTRL_TILE_LIMIT) (t.rd LOAD_CTRL_AUTO_RELOCK == 1) false 0
    let begun := fun (i : Nat) => { ((w.modSlot n (fun _ => { st := 1 })).loadTake p).loadWrites p 0 i with ld := some ⟨p, i⟩ }
    let start := s.mayWrite m a v = true ∧ bit v 16 = true ∧ bit v 17 = false
    let x := s.slot k
    let free := s.releaseForme k (fun _ _ => false)
    let again := free.tryLoad k x.image x.overridden (s.rd LOAD_CTRL_TILE_LIMIT) x.autoRelock true x.power
    let going := s.pending = [] ∧ s.fw.down = none ∧ s.ld = some job ∧ job.plan.slot = k ∧ k < 8
    (start → s.rd LOAD_STATUS_BUSY ≠ 1 → checks = (.error e, w) → ∃ y,
      exec (.loadStart ⟨m, pause⟩) s = .next y ∧ y.resp = .ok [] ∧ y.slots = s.slots ∧ y.fab = s.fab ∧ y.ctxs = s.ctxs ∧
      y.rd LOAD_STATUS_FAILED = 1 ∧ y.rd LOAD_STATUS_FAIL_STEP = e.1 % 16 ∧ y.rd LOAD_STATUS_BUSY = 0 ∧ y.ld = s.ld ∧
      ∃ ev, y.log.ring.head? = some ev ∧ ev.code = e.2 ∧ ev.a0 = n ∧ ev.a1 = e.1) ∧
    (start → s.rd LOAD_STATUS_BUSY ≠ 1 → checks = (.ok p, w) →
      exec (.loadStart ⟨m, none⟩) s = .next (((begun 0).loadFinish ⟨p, 0⟩).answer (.ok [])) ∧
      exec (.loadStart ⟨m, some c⟩) s = .next ((begun (min 4 c)).answer (.ok []))) ∧
    (going → job.plan.held.any s.unusable = false → ∃ y, step s = .next y ∧ y.ld = none ∧ (y.slot k).st = 2 ∧
      y.rd LOAD_STATUS_DONE = 1 ∧ y.rd LOAD_STATUS_BUSY = 0 ∧ ∃ ev, y.log.ring.head? = some ev ∧ ev.code = EV_FORME_LOADED ∧
      ev.a0 = k ∧ ev.a1 = job.plan.held.length) ∧
    (going → job.plan.held.any s.unusable = true → ∃ y, step s = .next y ∧ y.ld = none ∧ y.slot k = {} ∧
      y.rd LOAD_STATUS_FAILED = 1 ∧ y.rd LOAD_STATUS_FAIL_STEP = 15 ∧ y.rd LOAD_STATUS_BUSY = 0 ∧
      ∃ ev, y.log.ring.head? = some ev ∧ ev.code = EV_LOAD_TILES_CHANGED ∧ ev.a0 = k) ∧
    (s.mayWrite m a v = true → bit v 16 = true → s.rd LOAD_STATUS_BUSY = 1 → exec (.loadStart ⟨m, pause⟩) s =
      .next ((s.raise EV_LOAD_BUSY s.admCore (bits v 0 3) 0 s.imageAddr).refuse m a)) ∧
    (s.mayWrite m a z = true → bit z 17 = true → s.rd LOAD_STATUS_BUSY = 1 → exec (.loadUnload m) s =
      .next ((s.raise EV_LOAD_BUSY s.admCore (bits z 0 3) 0 s.imageAddr).refuse m a)) ∧
    (s.mayWrite m a z = true → bit z 16 = false → bit z 17 = true → s.rd LOAD_STATUS_BUSY ≠ 1 →
      (s.slot (bits z 0 3)).st = 2 ∨ (s.slot (bits z 0 3)).st = 4 → ∃ y, exec (.loadUnload m) s = .next y ∧
      (y.slot (bits z 0 3)).st = 3 ∧ y.rd LOAD_STATUS_BUSY = 1 ∧ (∀ c ∈ y.ctxs, c.2.slot = bits z 0 3 → c.2.st ≠ 2) ∧
      y.tiles = s.tiles ∧ y.adm = s.adm) ∧
    (s.mayWrite m a z = true → bit z 16 = false → bit z 17 = true → s.rd LOAD_STATUS_BUSY ≠ 1 →
      (s.slot (bits z 0 3)).st < 2 → exec (.loadUnload m) s = .next (s.refuse m a)) ∧
    (k < 8 → x.st = 3 → x.relock = false → s.drained k = true → s.roleHeld s.admCore = true → ∃ y, exec (.formeUnloaded k) s = .next y ∧ y.slot k = {} ∧
      y.rd LOAD_STATUS_BUSY = 0 ∧ y.rd LOAD_STATUS_DONE = 1 ∧
      ∃ ev, y.log.ring.head? = some ev ∧ ev.code = EV_FORME_UNLOADED ∧ ev.a0 = k) ∧
    (x.st ≠ 3 ∨ s.drained k = false → exec (.formeUnloaded k) s = .next s) ∧
    (k < 8 → x.st = 3 → x.relock = true → s.roleHeld s.admCore = true → s.inFlight k = x.imp.waiting.length → x.imp.round = [] →
      (∀ c ∈ s.ctxs, c.2.slot ≠ k ∨ c.2.st = 0) →
      (again = (.ok p, w) →
        let y := (w.commit p).modSlot k (fun y => { y with relock := false, imp := { y.imp with waiting := x.imp.waiting } })
        let y := ((List.range p.f.impCount).foldl (fun (y : State) i => y.tagDue k i) y).recheckContexts k
        exec (.formeRelock k) s = .next (y.raise EV_FORME_LOADED y.admCore k p.held.length (p.f.id % 2 ^ 64))) ∧
      (again = (.error e, w) → ∃ y, exec (.formeRelock k) s = .next y ∧ (y.slot k).st = 4 ∧ (y.slot k).tiles = x.tiles ∧
        (∃ ev, y.log.ring.head? = some ev ∧ ev.code = e.2 ∧ ev.a0 = k) ∧
        y = { s with slots := y.slots, log := y.log, host := y.host })) ∧
    (s.inFlight k ≠ x.imp.waiting.length ∨ x.imp.round ≠ [] → exec (.formeRelock k) s = .next s)

/-- R346, R347: SIGNAL, TEST and RESET by a master; the count saturates with QUOIN_OVERFLOW; the oldest pending WAIT is served
first, and only where the count covers it. -/
def Obligations.QuoinsByMaster : Prop :=
  ∀ (s : State) (m i n : Nat) (w : Waiter), s.inv = true → i < 2 ^ 17 → n < 2 ^ 32 →
    let a := 0x0A10000000 + 16 * i
    let may := fun (b right : Nat) => s.reachable m b 4 = true ∧ s.granted m b 4 right = true
    let u := { s.setCount i (s.qcount i - n) with quoins :=
      { (s.setCount i (s.qcount i - n)).quoins with waits := dropWait i s.quoins.waits } }
    (may (a + 4) rightW → exec (.quoinSignal m i n) s = .next ((s.qsignal m i n).answer (.ok []))) ∧
    (s.oldest i = none → s.inputCtx i = none → s.qcount i + n < 2 ^ 32 →
      (s.qsignal m i n).qcount i = s.qcount i + n ∧ ∀ j, j ≠ i → (s.qsignal m i n).qcount j = s.qcount j) ∧
    (s.oldest i = none → s.inputCtx i = none → 2 ^ 32 ≤ s.qcount i + n → (s.qsignal m i n).qcount i = 0xFFFFFFFF ∧
      ∃ e, (s.qsignal m i n).log.ring.head? = some e ∧ e.code = EV_QUOIN_OVERFLOW ∧ e.a0 = i ∧ e.a1 = m) ∧
    (may a rightR → exec (.quoinTest m i) s =
      .next ((s.settle i).answer (.ok (leBytes 4 ((s.settle i).qcount i))))) ∧
    (may a rightW → exec (.quoinReset m i n) s = .next (((s.settle i).setCount i n).answer (.ok []))) ∧
    (s.reachable m a 4 = false → exec (.quoinTest m i) s = .next (s.answer .busError)) ∧
    (s.oldest i = some (w, n) → n ≤ s.qcount i → exec (.quoinWaitSuccess i) s = .next (u.wake i w)) ∧
    (s.oldest i = some (w, n) → s.qcount i < n → exec (.quoinWaitSuccess i) s = .next s) ∧
    (s.oldest i = none → exec (.quoinWaitSuccess i) s = .next s)

/-- R357, R360 to R367, R374, R388: the ROM's start from a good image of flash or of the network boot server, or without one,
USB recovery, the functions' readiness, the restart of a core, whose role has no holder while the core is held in reset, and
the repeated write of the repair ledger. That a restart may be held between its steps is the model's choice (log entry 52). -/
def Obligations.FirmwareRuns : Prop :=
  ∀ (s : State) (net : BootSrc) (b n core cause r : Nat) (ok : Bool) (img : List Byte), s.inv = true →
    let u := fieldAt img
    let off := s.fw.running = false ∧ s.fw.recovery = false ∧ s.pwr.resetLow = false
    let flash := s.flashAt 0 (min 0x80000 (max 256 (fieldAt (s.flashAt 0 256) 0x34 4)))
    let starts := fun (w : State) (src : Nat) => w.fw.running = true ∧ w.fw.recovery = false ∧ w.fw.fresh = false ∧
      w.rd FW_STATUS_SOURCE = src ∧ w.rd FW_VERSION_RUN_VERSION = u 8 4 ∧ w.rd FW_IF_VERSION_VERSION = u 0xC 4 ∧
      w.fw.secVersion = u 0x10 2 ∧ w.fw.length = u 0x34 4 ∧ bit (w.reg 0 SYS_FUNC_READY_REGS.addr) 0 = true ∧
      ∃ e, w.log.ring.head? = some e ∧ e.code = EV_BOOT_COMPLETE ∧ e.a0 = src
    let usable := core < 5 ∧ s.unusable (128 + core) = false ∧ s.fw.running = true ∧ s.fw.down = none
    let past := s.fw.restarts.filter (fun e => e.1 == core && decide (s.base < e.2 + 60000000000))
    let sp := s.rd FW_ROLE_SPARE
    (s.fw.running = true ∨ s.fw.recovery = true ∨ s.pwr.resetLow = true → exec (.boot net) s = .next s) ∧
    (off → s.fw.bootSel = 0 ∨ s.fw.bootSel = 2 → flash = img → s.imageCause (some img) = none → ∃ w,
      exec (.boot net) s = .next w ∧ starts w 0) ∧
    (off → s.fw.bootSel = 1 ∨ (s.fw.bootSel = 2 ∧ s.imageCause (some flash) ≠ none) → net.image = some img →
      s.imageCause (some img) = none → ∃ w, exec (.boot net) s = .next w ∧ starts w 1) ∧
    (off → 3 ≤ s.fw.bootSel → ∃ w, exec (.boot net) s = .next w ∧ w.fw.recovery = true ∧ w.fw.running = false ∧
      w.fw.fresh = false) ∧
    (off → s.fw.bootSel = 1 → net.image = none → ∃ w, exec (.boot net) s = .next w ∧ w.fw.recovery = true ∧
      w.rd FW_STATUS_BOOT_CAUSE = 1) ∧
    (s.fw.recovery = false → exec .recoveryStart s = .next s) ∧
    (s.fw.recovery = true → s.fw.running = false → ∃ w, exec .recoveryStart s = .next w ∧
      ((w.fw.running = true ∧ w.fw.recovery = false) ∨ (w.fw.recovery = true ∧ w.rd FW_STATUS_BOOT_CAUSE ≠ 0))) ∧
    (s.fw.running = false → exec (.funcReady b n) s = .next s) ∧
    (s.fw.running = true → b ∈ [0, 1, 6, 8, 9, 11, 12, 13, 14] → ∃ w, exec (.funcReady b n) s = .next w ∧
      bit (w.reg 0 SYS_FUNC_READY_REGS.addr) b = true ∧
      (bit (s.reg 0 SYS_FUNC_READY_REGS.addr) b = true → w = s) ∧
      (bit (s.reg 0 SYS_FUNC_READY_REGS.addr) b = false → ∃ e, w.log.ring.head? = some e ∧ e.code = EV_FUNC_READY ∧ e.a0 = b)) ∧
    (s.fw.running = true → n < 104 → s.pwr.joined.contains n = false → ∃ w, exec (.funcReady 16 n) s = .next w ∧
      n ∈ w.pwr.joined ∧ w.tiles = s.tiles) ∧
    (5 ≤ core ∨ s.unusable (128 + core) = true ∨ s.fw.running = false ∨ s.fw.down = some core →
      exec (.mcRestart core ⟨cause, ok⟩) s = .next s) ∧
    (usable → ∃ w, exec (.mcRestart core ⟨cause, true⟩) s = .next w ∧ w.fw.down = some core ∧ w.roleHeld (0x60 + core) = false ∧
      w.rd FW_MC_RESTARTS_COUNT = (s.rd FW_MC_RESTARTS_COUNT + 1) % 2 ^ 32 ∧
      (∃ e, w.log.ring.head? = some e ∧ e.code = EV_MC_RESTART ∧ e.a0 = core ∧ e.a1 = cause) ∧
      exec (.mcRestart core ⟨cause, false⟩) s = .next w.coreReturns) ∧
    (usable → ∃ w, exec (.mcRestart core ⟨cause, false⟩) s = .next w ∧ w.fw.down = none ∧
      w.fw.restarts = past ++ s.fw.restarts.filter (fun e => e.1 != core) ++ [(core, s.base)] ∧
      (r < 4 → s.role r = core → (∀ j < 4, s.role j = core → j = r) → sp ≠ 7 → sp ≠ core → w.role r = sp) ∧
      (2 ≤ past.length → s.health.units.length = 133 → w.unusable (128 + core) = true)) ∧
    (s.fw.running = false ∨ s.roleHeld s.heaCore = false → exec (.ledgerWriteRetry ok) s = .next s) ∧
    (s.fw.running = true → s.roleHeld s.heaCore = true → s.health.hardSeen = [] →
      (s.health.mapDue = false → s.health.ledgerDue = false → exec (.ledgerWriteRetry ok) s = .next s) ∧
      (s.health.mapDue = true ∨ s.health.ledgerDue = true →
        exec (.ledgerWriteRetry false) s = .next (s.raise EV_LEDGER_WRITE_FAILED s.heaCore 0 0 0) ∧
        exec (.ledgerWriteRetry true) s = .next (s.writeRecords2 s.health.mapDue s.health.ledgerDue false)))

/-- R371, R376 to R379, R383 to R385, Tables 16-8 and 16-9: commit, flash write, live update, whole or as far as its request
says, with each further step while no command waits, attestation and debug mode. Where an update pauses is the model's choice
(log entry 53). -/
def Obligations.SecurityCommands : Prop :=
  ∀ (s u : State) (m c a g off : Nat) (rep : List Byte) (img tok : Option (List Byte)) (pause : Option Nat), s.inv = true →
    let ok := fun (u : State) => Host.Outcome.next (φ := Fault) (ρ := Refusal) (u.answer (.ok []))
    let fw := FW_CTRL_COMMIT.addr
    let up := FW_UPDATE_CTRL_START.addr
    let at' := SEC_ATTEST_CTRL_ATTEST.addr
    let db := SEC_DEBUG_CTRL_UNLOCK.addr
    let rev := s.otp.revoke.lor s.fw.revoke
    let dest := s.rd SEC_ATTEST_ADDR_LO_ADDR * 64 + s.rd SEC_ATTEST_ADDR_HI_ADDR * 2 ^ 32
    let addr := s.rd SEC_DEBUG_ADDR_LO_ADDR * 64 + s.rd SEC_DEBUG_ADDR_HI_ADDR * 2 ^ 32
    let started := ((s.wr FW_UPDATE_CTRL_CAUSE 0).wr FW_UPDATE_CTRL_BUSY 1).raise EV_FW_UPDATE_STARTED s.secCore 0 0 0
    let sp := s.rd FW_ROLE_SPARE
    let may := s.mayWrite m up (2 ^ 31) = true ∧ s.rd FW_UPDATE_CTRL_BUSY = 0 ∧ 5 ≤ s.coresUp.length ∧ started.stage = ((g, img), u)
    let z := { s with fw := { s.fw with report := none } }.wr SEC_ATTEST_CTRL_BUSY 0
    let bs := rep ++ padded (Config.slhSign s.otp.seed rep) 17088
    let able := s.fw.report = some (a, rep) ∧ s.fw.attKey = true ∧ s.otp.returned = 0
    (s.mayWrite m fw 1 = true → s.rd FW_UPDATE_CTRL_BUSY = 0 → s.rd FW_STATUS_FLASH_STALE = 0 →
      bit s.fw.revoke s.fw.keySlot = false → (∃ i < 4, bit rev i = false ∧ s.otp.fwKeys.getD i 0 ≠ 0) →
      s.otp.rollback < 2 ^ 64 → ∃ w, exec (.fwCommit m) s = .next w ∧ w.resp = .ok [] ∧ w.otp.revoke = rev ∧
      popCount 64 w.otp.rollback = max (popCount 64 s.otp.rollback) (min 64 s.fw.secVersion) ∧
      w = { s with otp := w.otp, log := w.log, host := w.host, resp := w.resp }) ∧
    (s.mayWrite m fw 1 = true → s.rd FW_UPDATE_CTRL_BUSY = 1 ∨ s.rd FW_STATUS_FLASH_STALE = 1 ∨
      bit s.fw.revoke s.fw.keySlot = true → exec (.fwCommit m) s = .next (s.refuse m fw)) ∧
    (s.mayWrite m fw 2 = true → (∃ w, exec (.fwFlashWrite m true) s = .next w ∧ w.resp = .ok [] ∧
      w.rd FW_STATUS_FLASH_STALE = 0) ∧ ∃ w, exec (.fwFlashWrite m false) s = .next w ∧ w.rd FW_STATUS_FLASH_STALE = 1) ∧
    (s.mayWrite m up (2 ^ 31) = true → s.rd FW_UPDATE_CTRL_BUSY = 1 ∨ s.coresUp.length < 5 →
      exec (.fwUpdateStart ⟨m, pause⟩) s = .next (s.refuse m up)) ∧
    (may → u.updateCause img = some c → ∃ w, exec (.fwUpdateStart ⟨m, none⟩) s = .next w ∧ w.resp = .ok [] ∧
      w.rd FW_UPDATE_CTRL_CAUSE = c ∧ w.rd FW_UPDATE_CTRL_BUSY = 0 ∧ w.fw.upd = none ∧ (∀ r < 4, w.role r = s.role r) ∧
      ∃ e, w.log.ring.head? = some e ∧ e.code = EV_FW_UPDATE_REFUSED ∧ e.a0 = c) ∧
    (may → u.updateCause img = none → u.fw.bootSel = 1 → sp ≠ 7 → (∀ r < 4, s.role r ≠ 7) → ∃ w,
      exec (.fwUpdateStart ⟨m, none⟩) s = .next w ∧ w.resp = .ok [] ∧ w.rd FW_UPDATE_CTRL_BUSY = 0 ∧ w.fw.upd = none ∧
      w.rd FW_VERSION_RUN_VERSION = fieldAt (img.getD []) 8 4 ∧ w.fw.length = fieldAt (img.getD []) 0x34 4 ∧
      w.role 3 = sp ∧ w.role 2 = s.role 3 ∧ w.role 1 = s.role 2 ∧ w.role 0 = s.role 1 ∧ w.rd FW_ROLE_SPARE = s.role 0 ∧
      ∃ e, w.log.ring.head? = some e ∧ e.code = EV_FW_UPDATE_DONE) ∧
    (may → exec (.fwUpdateStart ⟨m, some c⟩) s = ok ((u.setUpd (some { step := 1, granule := g, img := img })).updSteps c)) ∧
    (s.pending = [] → s.ld = none → s.fw.down = none → s.pwr.warmDue = none → ∃ w, step s = .next w ∧ w.fw = s.updStep.fw ∧
      w.rd FW_UPDATE_CTRL_STEP = s.updStep.rd FW_UPDATE_CTRL_STEP) ∧
    (s.mayWrite m at' (2 ^ 31) = true → s.rd SEC_ATTEST_CTRL_BUSY = 0 → ∃ w, exec (.attest m) s = .next w ∧ w.resp = .ok [] ∧
      w.rd SEC_ATTEST_CTRL_BUSY = 1 ∧ w.rd SEC_ATTEST_CTRL_STATUS = 0 ∧ w.fw = { s.fw with report := some (dest, s.attestReport) }) ∧
    (s.mayWrite m at' (2 ^ 31) = true → s.rd SEC_ATTEST_CTRL_BUSY = 1 → exec (.attest m) s = .next (s.refuse m at')) ∧
    (s.fw.report = none → exec .attestDone s = .next s) ∧
    (s.fw.report = some (a, rep) → s.fw.attKey = false ∨ s.otp.returned ≠ 0 → ∃ w, exec .attestDone s = .next w ∧
      w.fw.report = none ∧ w.rd SEC_ATTEST_CTRL_BUSY = 0 ∧ w.rd SEC_ATTEST_CTRL_STATUS = 2 ∧ w.hbm = s.hbm ∧
      w.commons = s.commons) ∧
    (able → z.masterWrite z.secCore a bs = (false, u) →
      exec .attestDone s = .next ((u.wr SEC_ATTEST_CTRL_STATUS 2).raise EV_ATTEST_REFUSED u.secCore 0 0 0)) ∧
    (able → z.reachable z.secCore a bs.length = true → z.granted z.secCore a bs.length rightW = true →
      place a bs.length = .mem .commons off → off % 8 = 0 → bs.length % 8 = 0 → ∃ w, exec .attestDone s = .next w ∧
      w.fw.report = none ∧ w.rd SEC_ATTEST_CTRL_BUSY = 0 ∧ w.rd SEC_ATTEST_CTRL_STATUS = 1 ∧
      w.commons = (z.write .commons off bs z.secCore).2.commons ∧
      ∃ e, w.log.ring.head? = some e ∧ e.code = EV_ATTEST_DONE) ∧
    (s.mayWrite m db 1 = true → s.masterRead s.secCore addr (64 + 7856) = (tok, u) → u.tokenCause tok = c → c ≠ 0 → ∃ w,
      exec (.debugUnlock m) s = .next w ∧ w.resp = .ok [] ∧ w.rd SEC_DEBUG_STATUS_CAUSE = c ∧ w.fw = u.fw ∧
      w.rd SEC_DEBUG_STATUS_ACTIVE = s.rd SEC_DEBUG_STATUS_ACTIVE ∧
      ∃ e, w.log.ring.head? = some e ∧ e.code = EV_DEBUG_REFUSED ∧ e.a0 = c) ∧
    (s.mayWrite m db 1 = true → s.masterRead s.secCore addr (64 + 7856) = (tok, u) → u.tokenCause tok = 0 → ∃ w,
      exec (.debugUnlock m) s = .next w ∧ w.rd SEC_DEBUG_STATUS_ACTIVE = 1 ∧ w.fw.attKey = false ∧ w.fw.debugUsed = true ∧
      w.rd SEC_DEBUG_STATUS_SCOPE = fieldAt (tok.getD []) 6 2 % 16 ∧ ∀ i < 8, w.rd (SEC_IDKEY_KEY.idx i) = 0)

/-- R386: the test access port accepts IDCODE, SAMPLE and BYPASS in every state, EXTEST, CLAMP and HIGHZ while RESET_N is low,
and every other instruction only in debug mode with scope bit 0; a refused instruction selects the bypass register. -/
def Obligations.TapInstructions : Prop :=
  ∀ (s : State) (i : TapIns) (n : Nat),
    let select := fun (j : TapIns) => Host.Outcome.next (φ := Fault) (ρ := Refusal)
      { s with host := { s.host with out := s.host.out ++ [.tapSelect j] } }
    (i = .bypass ∨ i = .idcode ∨ i = .sample → exec (.tapInstruction i) s = select i) ∧
    (i = .extest ∨ i = .clamp ∨ i = .highz → (s.pwr.resetLow = true → exec (.tapInstruction i) s = select i) ∧
      (s.pwr.resetLow = false → exec (.tapInstruction i) s = select .bypass)) ∧
    (s.rd SEC_DEBUG_STATUS_ACTIVE = 1 → s.rd SEC_DEBUG_STATUS_SCOPE % 2 = 1 →
      exec (.tapInstruction (.other n)) s = select (.other n)) ∧
    (s.rd SEC_DEBUG_STATUS_ACTIVE ≠ 1 ∨ s.rd SEC_DEBUG_STATUS_SCOPE % 2 = 0 →
      exec (.tapInstruction (.other n)) s = select .bypass)

/-- R389 to R392, R414, R415, Table 17-2: what each reset leaves: after any reset of the whole device the parts on the die are
as after power-on, flash and the key store are kept, and HBM is kept by every reset but power-on's; a block reset acts on one
unit. -/
def Obligations.ResetsRestore : Prop :=
  ∀ (s : State) (m v ns sel : Nat) (held : Bool), s.inv = true →
    let fresh := fun (w : State) => w.tiles = State.reset.tiles ∧ w.slots = State.reset.slots ∧ w.fab = {} ∧ w.adm = {} ∧
      w.face = {} ∧ w.prot = {} ∧ w.eng = State.reset.eng ∧ w.ing = State.reset.ing ∧ w.res = State.reset.res ∧ w.ctxs = [] ∧
      w.quoins = {} ∧ w.sport = {} ∧ w.burl = {} ∧ w.alloc = {} ∧ w.commons = {} ∧ w.base = 0 ∧ w.dev = 0 ∧
      w.fw.running = false ∧ w.flash = s.flash ∧ w.otp = s.otp ∧ w.pending = s.pending
    let a := SYS_RESET_GO.addr
    let b := PWR_BLOCK_RESET_DOMAIN.addr
    let d := bits v 0 7
    let role := s.rd LOAD_FE_ROLE_INPUT + 104 = d ∨ s.rd LOAD_FE_ROLE_OUTPUT + 104 = d
    (∃ w, exec .powerOnReset s = .next w ∧ fresh w ∧ w.hbm = {} ∧ w.msram = {} ∧ w.log.ring = [] ∧ w.log.seq = 0) ∧
    (1000 ≤ ns → ∃ w, exec (.resetN ns sel held) s = .next w ∧ fresh w ∧ w.hbm = s.hbm ∧ w.pwr.resetLow = held ∧
      (held = false → w.fw.bootSel = sel % 4) ∧ w.rd SYS_RESET_CAUSE_KIND = 1) ∧
    (ns < 1000 → s.pwr.resetLow = false → exec (.resetN ns sel held) s = .next s) ∧
    (10000 < ns → ∃ w, exec (.refclkLoss ns) s = .next w ∧ fresh w ∧ w.hbm = s.hbm ∧ w.rd SYS_RESET_CAUSE_KIND = 1 ∧
      bit (w.reg 0 SYS_RESET_CAUSE_KIND.addr) 2 = true) ∧
    (ns ≤ 10000 → exec (.refclkLoss ns) s = .next s) ∧
    (s.mayWrite m a v = true → bit v 0 = true → bits v 16 16 = 0x5752 → s.power ≠ 6 → m < 2 ^ 24 → s.pwr.resetLow = false →
      (∀ u ∈ s.fw.upd, u.step ≠ 7) → ∃ w, exec (.sysReset m v) s = .next w ∧ fresh w ∧ w.hbm = s.hbm ∧ w.msram = s.msram ∧ w.rd SYS_RESET_CAUSE_KIND = 2 ∧
      w.resp = .ok []) ∧
    (s.mayWrite m a v = true → bit v 0 = true → bits v 16 16 ≠ 0x5752 → s.pwr.resetLow = false →
      exec (.sysReset m v) s = .next (s.refuse m a)) ∧
    (s.mayWrite m a v = true → bit v 0 = false ∨ s.pwr.resetLow = true ∨ (s.power = 6 ∧ bits v 16 16 = 0x5752) →
      exec (.sysReset m v) s = .next (s.answer (.ok []))) ∧
    (s.mayWrite m a v = true → bit v 0 = true → bits v 16 16 = 0x5752 → s.power ≠ 6 → s.pwr.resetLow = false →
      (∃ u ∈ s.fw.upd, u.step = 7) → exec (.sysReset m v) s =
        .next ({ s with pwr := { s.pwr with warmDue := some (s.pwr.warmDue.getD m) } }.answer (.ok []))) ∧
    (s.mayWrite m b v = true → m < 0x60 ∨ 0x64 < m ∨ (104 ≤ d ∧ d < 107 ∧ role) ∨
      (d < 104 ∧ s.rd (TILE_CFG_HELD.tile d) = 1) → exec (.pwrBlockReset m v) s = .next (s.refuse m b)) ∧
    (s.mayWrite m b v = true → 0x60 ≤ m → m ≤ 0x64 → d < 104 → s.rd (TILE_CFG_HELD.tile d) = 0 → s.domainOn d = true → ∃ w,
      exec (.pwrBlockReset m v) s = .next w ∧ w.resp = .ok [] ∧ (w.tile d).sram = (s.tile d).sram ∧ (w.core d) = {} ∧
      (w.tile d).st = .idle ∧ (∀ t, t ≠ d → w.tile t = s.tile t) ∧
      w = { s with resp := w.resp, regs := w.regs, tiles := w.tiles }) ∧
    (s.mayWrite m b v = true → 0x60 ≤ m → m ≤ 0x64 → 107 ≤ d → s.domainOn d = false →
      exec (.pwrBlockReset m v) s = .next (s.answer (.ok [])))

/-- R395 to R398, R400, R404, R420, Tables 17-4 and 17-5: the budget, slot parking, Retain and Run, shutdown, and the
independent trip with its polls and its return. -/
def Obligations.PowerCommands : Prop :=
  ∀ (s : State) (m v k t word : Nat) (tj : Int) (b : Bool), s.inv = true →
    let ok := fun (u : State) => Host.Outcome.next (φ := Fault) (ρ := Refusal) (u.answer (.ok []))
    let ctl := PWR_CTRL_RETAIN.addr
    let park := PWR_SLOT_PARK_PARK.addr
    let old := s.rd PWR_SLOT_PARK_PARK
    let limit : Int := (s.rd PWR_TRIP_TEMP_C : Nat)
    let warm := s.tripTemp tj
    (s.mayWrite m PWR_BUDGET_BUDGET.addr v = true → s.committed ≤ bits v 0 12 → ∃ w, exec (.pwrBudgetWrite m v) s = .next w ∧
      w.rd PWR_BUDGET_BUDGET = bits v 0 12 ∧ w = { s with resp := .ok [], regs := w.regs }) ∧
    (s.mayWrite m PWR_BUDGET_BUDGET.addr v = true → bits v 0 12 < s.committed →
      exec (.pwrBudgetWrite m v) s = .next (s.budgetRefused.refuse m PWR_BUDGET_BUDGET.addr)) ∧
    (s.mayWrite m park v = true → (∀ j < 8, bit v j = true → bit old j = true ∨ s.slotBusy j = false) →
      (∀ j < 8, bit old j = true → bit v j = true) → exec (.pwrSlotPark m v) s = ok (s.wr PWR_SLOT_PARK_PARK v)) ∧
    (s.mayWrite m park v = true → k < 8 → bit v k = true → bit old k = false → s.slotBusy k = true →
      exec (.pwrSlotPark m v) s = .next (s.refuse m park)) ∧
    (s.mayWrite m ctl 2 = true → s.power = 0 → exec (.pwrRetain m) s = ok (s.wr PWR_STATUS_STATE 1)) ∧
    (s.mayWrite m ctl 2 = true → s.power ≠ 0 → exec (.pwrRetain m) s = .next (s.refuse m ctl)) ∧
    (s.power = 1 → s.adm.flights = [] → ∃ w, exec .retainEnter s = .next w ∧ w.power = 2 ∧ w.hbm = s.hbm ∧
      ∃ e, w.log.ring.head? = some e ∧ e.code = EV_PWR_STATE_CHANGE) ∧
    (s.power ≠ 1 ∨ s.adm.flights ≠ [] → exec .retainEnter s = .next s) ∧
    (s.mayWrite m ctl 4 = true → s.power = 2 → ∃ w, exec (.pwrRun m) s = .next w ∧ w.power = 0 ∧ w.resp = .ok []) ∧
    (s.mayWrite m ctl 4 = true → s.power = 3 → s.tripHolds = false → exec (.pwrRun m) s = ok s.tripReturn) ∧
    (s.mayWrite m ctl 4 = true → s.power ≠ 2 → s.power ≠ 3 ∨ s.tripHolds = true → exec (.pwrRun m) s = .next (s.refuse m ctl)) ∧
    (s.mayWrite m ctl 8 = true → (∀ e ∈ s.ctxs, e.2.st < 2) → s.rd FW_UPDATE_CTRL_BUSY = 0 → s.power ≠ 5 → s.power ≠ 6 → ∃ w,
      exec (.pwrShutdown m) s = .next w ∧ w.resp = .ok [] ∧ w.fw.attKey = false ∧ (w.power = 5 ∨ w.power = 6) ∧
      ∀ i < 8, w.rd (SEC_IDKEY_KEY.idx i) = 0) ∧
    (s.mayWrite m ctl 8 = true → (∃ e ∈ s.ctxs, 2 ≤ e.2.st) ∨ s.power = 6 →
      exec (.pwrShutdown m) s = .next (s.refuse m ctl)) ∧
    (∃ w, exec (.pmbusPoll .none) s = .next w ∧ w.rd PWR_IOUT_FAILS = min 10 (s.rd PWR_IOUT_FAILS + 1) ∧
      (9 ≤ s.rd PWR_IOUT_FAILS → w.rd PWR_STATUS_TRIP_CURRENT = 1)) ∧
    (overLimit word (s.rd PWR_TRIP_I_LIMIT_A) = true → 1 ≤ s.pwr.overPolls → ∃ w, exec (.pmbusPoll (.iout word)) s = .next w ∧
      w.rd PWR_STATUS_TRIP_CURRENT = 1 ∧ w.rd PWR_IOUT_FAILS = 0) ∧
    (overLimit word (s.rd PWR_TRIP_I_LIMIT_A) = false → ∃ w, exec (.pmbusPoll (.iout word)) s = .next w ∧
      w.rd PWR_STATUS_TRIP_CURRENT = 0 ∧ w.pwr.overPolls = 0) ∧
    (∃ w, exec (.pmbusPoll (.status true b)) s = .next w ∧ w.rd PWR_STATUS_TRIP_CURRENT = 1) ∧
    (limit ≤ tj → s.power ≠ 3 → s.power ≠ 6 → ∃ w, exec (.pwrTrip tj) s = .next w ∧ w.power = 3 ∧ w.adm.flights = [] ∧
      w.pwr.lost = s.pwr.lost ++ s.adm.flights) ∧
    (tj < limit → s.rd PWR_STATUS_TRIP_CURRENT = 0 → exec (.pwrTrip tj) s = .next warm) ∧
    (s.power ≠ 3 → exec (.tripAutoReturn tj) s = .next warm) ∧
    (s.power = 3 → limit - 15 ≤ tj → exec (.tripAutoReturn tj) s = .next { warm with pwr := { warm.pwr with coolSince := none } }) ∧
    (s.power = 3 → warm.tripHolds = false → tj < limit - 15 → s.pwr.coolSince = none →
      exec (.tripAutoReturn tj) s = .next { warm with pwr := { warm.pwr with coolSince := some s.base } }) ∧
    (s.power = 3 → warm.tripHolds = false → tj < limit - 15 → s.pwr.coolSince = some t → s.rd PWR_TRIP_AUTO = 1 →
      t + 1000000000 ≤ s.base → exec (.tripAutoReturn tj) s = .next warm.tripReturn)

/-- R271, R399, R401 to R403: a lane of HBM found bad goes into the ledger; a tile that is due parks and waits for its
self-test; at most eight tiles are under test at once; a test ends with its unit recorded, and one that has waited 10 s is
given up. -/
def Obligations.SelfTests : Prop :=
  ∀ (s : State) (t u x ch lane : Nat) (r : TestResult), s.inv = true →
    let cause := r.cause
    let bad : LedgerEnt := { memory := 5, inst := 0, bank := ch, kind := 0, fail := lane, spare := 0 }
    let active := fun (w : State) => (w.pwr.testing.filter (fun u => decide (u < 104))).length
    (s.parkDue t = false → exec (.tilePark t) s = .next s) ∧
    (t < 104 → s.parkDue t = true → s.health.exhausted.contains t = false → s.tileSlot t = none → ∃ w,
      exec (.tilePark t) s = .next w ∧ (w.tile t).st = .parked ∧ (w.tile t).back = (s.tile t).st ∧
      (w.tile t).sram = (s.tile t).sram ∧ w = { s with tiles := w.tiles, pwr := w.pwr }) ∧
    (∃ w, exec .bistGroupStart s = .next w ∧ (active s ≤ 8 → active w ≤ 8) ∧
      (s.power = 3 ∨ s.power = 6 → w = s) ∧ w = { s with pwr := w.pwr }) ∧
    (s.power = 0 → s.pwr.queue = [(t, x)] → t < 104 → active s < 8 → s.testedPower + 45 ≤ s.rd PWR_BUDGET_BUDGET → ∃ w,
      exec .bistGroupStart s = .next w ∧ w.pwr.testing = s.pwr.testing ++ [t] ∧ w.pwr.queue = []) ∧
    (s.pwr.testing.contains u = true → s.power ≠ 3 → ∃ w, exec (.bistDone u r) s = .next w ∧ u ∉ w.pwr.testing ∧
      (cause = 0 → u < 133 → s.unusable u = false → w.health.units.getD u (1, 0) = (0, 0)) ∧
      (cause ≠ 0 → u < 133 → w.unusable u = true)) ∧
    (s.pwr.testing.contains 124 = true → s.power ≠ 3 → r.lanes = [(ch, lane)] → bad ∉ s.health.ledger → ∃ w,
      exec (.bistDone 124 r) s = .next w ∧ w.health.ledger = s.health.ledger ++ [bad]) ∧
    (s.pwr.testing.contains u = false ∨ s.power = 3 → exec (.bistDone u r) s = .next s) ∧
    ((∃ e ∈ s.pwr.queue, e.1 = u ∧ e.2 + 10000000000 ≤ s.base) → ∃ w, exec (.bistWaitTimeout u) s = .next w ∧
      (∀ e ∈ w.pwr.queue, e.1 ≠ u)) ∧
    ((∀ e ∈ s.pwr.queue, e.1 = u → s.base < e.2 + 10000000000) → exec (.bistWaitTimeout u) s = .next s)
end

