-- ==== Sys2Proof/Laws/State.lean ====
section
/-! SUPPORT. What each update of State leaves alone: one lemma per field and update. -/
namespace Sys2Proof.Machine

/-! ## setReg -/

@[simp] theorem State.setReg_pending (s : State) (c a v : Nat) : (s.setReg c a v).pending = s.pending := rfl
@[simp] theorem State.setReg_freeCtr (s : State) (c a v : Nat) : (s.setReg c a v).freeCtr = s.freeCtr := rfl
@[simp] theorem State.setReg_resp (s : State) (c a v : Nat) : (s.setReg c a v).resp = s.resp := rfl
@[simp] theorem State.setReg_base (s : State) (c a v : Nat) : (s.setReg c a v).base = s.base := rfl
@[simp] theorem State.setReg_dev (s : State) (c a v : Nat) : (s.setReg c a v).dev = s.dev := rfl
@[simp] theorem State.setReg_hbm (s : State) (c a v : Nat) : (s.setReg c a v).hbm = s.hbm := rfl
@[simp] theorem State.setReg_commons (s : State) (c a v : Nat) : (s.setReg c a v).commons = s.commons := rfl
@[simp] theorem State.setReg_msram (s : State) (c a v : Nat) : (s.setReg c a v).msram = s.msram := rfl
@[simp] theorem State.setReg_flash (s : State) (c a v : Nat) : (s.setReg c a v).flash = s.flash := rfl
@[simp] theorem State.setReg_tiles (s : State) (c a v : Nat) : (s.setReg c a v).tiles = s.tiles := rfl
@[simp] theorem State.setReg_fab (s : State) (c a v : Nat) : (s.setReg c a v).fab = s.fab := rfl
@[simp] theorem State.setReg_slots (s : State) (c a v : Nat) : (s.setReg c a v).slots = s.slots := rfl
@[simp] theorem State.setReg_adm (s : State) (c a v : Nat) : (s.setReg c a v).adm = s.adm := rfl
@[simp] theorem State.setReg_face (s : State) (c a v : Nat) : (s.setReg c a v).face = s.face := rfl
@[simp] theorem State.setReg_prot (s : State) (c a v : Nat) : (s.setReg c a v).prot = s.prot := rfl
@[simp] theorem State.setReg_scrub (s : State) (c a v : Nat) : (s.setReg c a v).scrub = s.scrub := rfl
@[simp] theorem State.setReg_eng (s : State) (c a v : Nat) : (s.setReg c a v).eng = s.eng := rfl
@[simp] theorem State.setReg_ing (s : State) (c a v : Nat) : (s.setReg c a v).ing = s.ing := rfl
@[simp] theorem State.setReg_res (s : State) (c a v : Nat) : (s.setReg c a v).res = s.res := rfl
@[simp] theorem State.setReg_ctxs (s : State) (c a v : Nat) : (s.setReg c a v).ctxs = s.ctxs := rfl
@[simp] theorem State.setReg_net (s : State) (c a v : Nat) : (s.setReg c a v).net = s.net := rfl
@[simp] theorem State.setReg_decQ (s : State) (c a v : Nat) : (s.setReg c a v).decQ = s.decQ := rfl
@[simp] theorem State.setReg_ppsEdge (s : State) (c a v : Nat) : (s.setReg c a v).ppsEdge = s.ppsEdge := rfl
@[simp] theorem State.setReg_sport (s : State) (c a v : Nat) : (s.setReg c a v).sport = s.sport := rfl
@[simp] theorem State.setReg_burl (s : State) (c a v : Nat) : (s.setReg c a v).burl = s.burl := rfl
@[simp] theorem State.setReg_io (s : State) (c a v : Nat) : (s.setReg c a v).io = s.io := rfl
@[simp] theorem State.setReg_host (s : State) (c a v : Nat) : (s.setReg c a v).host = s.host := rfl
@[simp] theorem State.setReg_quoins (s : State) (c a v : Nat) : (s.setReg c a v).quoins = s.quoins := rfl
@[simp] theorem State.setReg_alloc (s : State) (c a v : Nat) : (s.setReg c a v).alloc = s.alloc := rfl
@[simp] theorem State.setReg_log (s : State) (c a v : Nat) : (s.setReg c a v).log = s.log := rfl
@[simp] theorem State.setReg_fw (s : State) (c a v : Nat) : (s.setReg c a v).fw = s.fw := rfl
@[simp] theorem State.setReg_otp (s : State) (c a v : Nat) : (s.setReg c a v).otp = s.otp := rfl
@[simp] theorem State.setReg_ld (s : State) (c a v : Nat) : (s.setReg c a v).ld = s.ld := rfl
@[simp] theorem State.setReg_decRef (s : State) (c a v : Nat) : (s.setReg c a v).decRef = s.decRef := rfl
@[simp] theorem State.setReg_health (s : State) (c a v : Nat) : (s.setReg c a v).health = s.health := rfl
@[simp] theorem State.setReg_pwr (s : State) (c a v : Nat) : (s.setReg c a v).pwr = s.pwr := rfl

/-! ## wr -/

@[simp] theorem State.wr_pending (s : State) (f : Fld) (v : Nat) : (s.wr f v).pending = s.pending := rfl
@[simp] theorem State.wr_freeCtr (s : State) (f : Fld) (v : Nat) : (s.wr f v).freeCtr = s.freeCtr := rfl
@[simp] theorem State.wr_resp (s : State) (f : Fld) (v : Nat) : (s.wr f v).resp = s.resp := rfl
@[simp] theorem State.wr_base (s : State) (f : Fld) (v : Nat) : (s.wr f v).base = s.base := rfl
@[simp] theorem State.wr_dev (s : State) (f : Fld) (v : Nat) : (s.wr f v).dev = s.dev := rfl
@[simp] theorem State.wr_hbm (s : State) (f : Fld) (v : Nat) : (s.wr f v).hbm = s.hbm := rfl
@[simp] theorem State.wr_commons (s : State) (f : Fld) (v : Nat) : (s.wr f v).commons = s.commons := rfl
@[simp] theorem State.wr_msram (s : State) (f : Fld) (v : Nat) : (s.wr f v).msram = s.msram := rfl
@[simp] theorem State.wr_flash (s : State) (f : Fld) (v : Nat) : (s.wr f v).flash = s.flash := rfl
@[simp] theorem State.wr_tiles (s : State) (f : Fld) (v : Nat) : (s.wr f v).tiles = s.tiles := rfl
@[simp] theorem State.wr_fab (s : State) (f : Fld) (v : Nat) : (s.wr f v).fab = s.fab := rfl
@[simp] theorem State.wr_slots (s : State) (f : Fld) (v : Nat) : (s.wr f v).slots = s.slots := rfl
@[simp] theorem State.wr_adm (s : State) (f : Fld) (v : Nat) : (s.wr f v).adm = s.adm := rfl
@[simp] theorem State.wr_face (s : State) (f : Fld) (v : Nat) : (s.wr f v).face = s.face := rfl
@[simp] theorem State.wr_prot (s : State) (f : Fld) (v : Nat) : (s.wr f v).prot = s.prot := rfl
@[simp] theorem State.wr_scrub (s : State) (f : Fld) (v : Nat) : (s.wr f v).scrub = s.scrub := rfl
@[simp] theorem State.wr_eng (s : State) (f : Fld) (v : Nat) : (s.wr f v).eng = s.eng := rfl
@[simp] theorem State.wr_ing (s : State) (f : Fld) (v : Nat) : (s.wr f v).ing = s.ing := rfl
@[simp] theorem State.wr_res (s : State) (f : Fld) (v : Nat) : (s.wr f v).res = s.res := rfl
@[simp] theorem State.wr_ctxs (s : State) (f : Fld) (v : Nat) : (s.wr f v).ctxs = s.ctxs := rfl
@[simp] theorem State.wr_net (s : State) (f : Fld) (v : Nat) : (s.wr f v).net = s.net := rfl
@[simp] theorem State.wr_decQ (s : State) (f : Fld) (v : Nat) : (s.wr f v).decQ = s.decQ := rfl
@[simp] theorem State.wr_ppsEdge (s : State) (f : Fld) (v : Nat) : (s.wr f v).ppsEdge = s.ppsEdge := rfl
@[simp] theorem State.wr_sport (s : State) (f : Fld) (v : Nat) : (s.wr f v).sport = s.sport := rfl
@[simp] theorem State.wr_burl (s : State) (f : Fld) (v : Nat) : (s.wr f v).burl = s.burl := rfl
@[simp] theorem State.wr_io (s : State) (f : Fld) (v : Nat) : (s.wr f v).io = s.io := rfl
@[simp] theorem State.wr_host (s : State) (f : Fld) (v : Nat) : (s.wr f v).host = s.host := rfl
@[simp] theorem State.wr_quoins (s : State) (f : Fld) (v : Nat) : (s.wr f v).quoins = s.quoins := rfl
@[simp] theorem State.wr_alloc (s : State) (f : Fld) (v : Nat) : (s.wr f v).alloc = s.alloc := rfl
@[simp] theorem State.wr_log (s : State) (f : Fld) (v : Nat) : (s.wr f v).log = s.log := rfl
@[simp] theorem State.wr_fw (s : State) (f : Fld) (v : Nat) : (s.wr f v).fw = s.fw := rfl
@[simp] theorem State.wr_otp (s : State) (f : Fld) (v : Nat) : (s.wr f v).otp = s.otp := rfl
@[simp] theorem State.wr_ld (s : State) (f : Fld) (v : Nat) : (s.wr f v).ld = s.ld := rfl
@[simp] theorem State.wr_decRef (s : State) (f : Fld) (v : Nat) : (s.wr f v).decRef = s.decRef := rfl
@[simp] theorem State.wr_health (s : State) (f : Fld) (v : Nat) : (s.wr f v).health = s.health := rfl
@[simp] theorem State.wr_pwr (s : State) (f : Fld) (v : Nat) : (s.wr f v).pwr = s.pwr := rfl

/-! ## wrc -/

@[simp] theorem State.wrc_pending (s : State) (c : Nat) (f : Fld) (v : Nat) : (s.wrc c f v).pending = s.pending := rfl
@[simp] theorem State.wrc_freeCtr (s : State) (c : Nat) (f : Fld) (v : Nat) : (s.wrc c f v).freeCtr = s.freeCtr := rfl
@[simp] theorem State.wrc_resp (s : State) (c : Nat) (f : Fld) (v : Nat) : (s.wrc c f v).resp = s.resp := rfl
@[simp] theorem State.wrc_base (s : State) (c : Nat) (f : Fld) (v : Nat) : (s.wrc c f v).base = s.base := rfl
@[simp] theorem State.wrc_dev (s : State) (c : Nat) (f : Fld) (v : Nat) : (s.wrc c f v).dev = s.dev := rfl
@[simp] theorem State.wrc_hbm (s : State) (c : Nat) (f : Fld) (v : Nat) : (s.wrc c f v).hbm = s.hbm := rfl
@[simp] theorem State.wrc_commons (s : State) (c : Nat) (f : Fld) (v : Nat) : (s.wrc c f v).commons = s.commons := rfl
@[simp] theorem State.wrc_msram (s : State) (c : Nat) (f : Fld) (v : Nat) : (s.wrc c f v).msram = s.msram := rfl
@[simp] theorem State.wrc_flash (s : State) (c : Nat) (f : Fld) (v : Nat) : (s.wrc c f v).flash = s.flash := rfl
@[simp] theorem State.wrc_tiles (s : State) (c : Nat) (f : Fld) (v : Nat) : (s.wrc c f v).tiles = s.tiles := rfl
@[simp] theorem State.wrc_fab (s : State) (c : Nat) (f : Fld) (v : Nat) : (s.wrc c f v).fab = s.fab := rfl
@[simp] theorem State.wrc_slots (s : State) (c : Nat) (f : Fld) (v : Nat) : (s.wrc c f v).slots = s.slots := rfl
@[simp] theorem State.wrc_adm (s : State) (c : Nat) (f : Fld) (v : Nat) : (s.wrc c f v).adm = s.adm := rfl
@[simp] theorem State.wrc_face (s : State) (c : Nat) (f : Fld) (v : Nat) : (s.wrc c f v).face = s.face := rfl
@[simp] theorem State.wrc_prot (s : State) (c : Nat) (f : Fld) (v : Nat) : (s.wrc c f v).prot = s.prot := rfl
@[simp] theorem State.wrc_scrub (s : State) (c : Nat) (f : Fld) (v : Nat) : (s.wrc c f v).scrub = s.scrub := rfl
@[simp] theorem State.wrc_eng (s : State) (c : Nat) (f : Fld) (v : Nat) : (s.wrc c f v).eng = s.eng := rfl
@[simp] theorem State.wrc_ing (s : State) (c : Nat) (f : Fld) (v : Nat) : (s.wrc c f v).ing = s.ing := rfl
@[simp] theorem State.wrc_res (s : State) (c : Nat) (f : Fld) (v : Nat) : (s.wrc c f v).res = s.res := rfl
@[simp] theorem State.wrc_ctxs (s : State) (c : Nat) (f : Fld) (v : Nat) : (s.wrc c f v).ctxs = s.ctxs := rfl
@[simp] theorem State.wrc_net (s : State) (c : Nat) (f : Fld) (v : Nat) : (s.wrc c f v).net = s.net := rfl
@[simp] theorem State.wrc_decQ (s : State) (c : Nat) (f : Fld) (v : Nat) : (s.wrc c f v).decQ = s.decQ := rfl
@[simp] theorem State.wrc_ppsEdge (s : State) (c : Nat) (f : Fld) (v : Nat) : (s.wrc c f v).ppsEdge = s.ppsEdge := rfl
@[simp] theorem State.wrc_sport (s : State) (c : Nat) (f : Fld) (v : Nat) : (s.wrc c f v).sport = s.sport := rfl
@[simp] theorem State.wrc_burl (s : State) (c : Nat) (f : Fld) (v : Nat) : (s.wrc c f v).burl = s.burl := rfl
@[simp] theorem State.wrc_io (s : State) (c : Nat) (f : Fld) (v : Nat) : (s.wrc c f v).io = s.io := rfl
@[simp] theorem State.wrc_host (s : State) (c : Nat) (f : Fld) (v : Nat) : (s.wrc c f v).host = s.host := rfl
@[simp] theorem State.wrc_quoins (s : State) (c : Nat) (f : Fld) (v : Nat) : (s.wrc c f v).quoins = s.quoins := rfl
@[simp] theorem State.wrc_alloc (s : State) (c : Nat) (f : Fld) (v : Nat) : (s.wrc c f v).alloc = s.alloc := rfl
@[simp] theorem State.wrc_log (s : State) (c : Nat) (f : Fld) (v : Nat) : (s.wrc c f v).log = s.log := rfl
@[simp] theorem State.wrc_fw (s : State) (c : Nat) (f : Fld) (v : Nat) : (s.wrc c f v).fw = s.fw := rfl
@[simp] theorem State.wrc_otp (s : State) (c : Nat) (f : Fld) (v : Nat) : (s.wrc c f v).otp = s.otp := rfl
@[simp] theorem State.wrc_ld (s : State) (c : Nat) (f : Fld) (v : Nat) : (s.wrc c f v).ld = s.ld := rfl
@[simp] theorem State.wrc_decRef (s : State) (c : Nat) (f : Fld) (v : Nat) : (s.wrc c f v).decRef = s.decRef := rfl
@[simp] theorem State.wrc_health (s : State) (c : Nat) (f : Fld) (v : Nat) : (s.wrc c f v).health = s.health := rfl
@[simp] theorem State.wrc_pwr (s : State) (c : Nat) (f : Fld) (v : Nat) : (s.wrc c f v).pwr = s.pwr := rfl

/-! ## inc -/

@[simp] theorem State.inc_pending (s : State) (f : Fld) (n : Nat) : (s.inc f n).pending = s.pending := rfl
@[simp] theorem State.inc_freeCtr (s : State) (f : Fld) (n : Nat) : (s.inc f n).freeCtr = s.freeCtr := rfl
@[simp] theorem State.inc_resp (s : State) (f : Fld) (n : Nat) : (s.inc f n).resp = s.resp := rfl
@[simp] theorem State.inc_base (s : State) (f : Fld) (n : Nat) : (s.inc f n).base = s.base := rfl
@[simp] theorem State.inc_dev (s : State) (f : Fld) (n : Nat) : (s.inc f n).dev = s.dev := rfl
@[simp] theorem State.inc_hbm (s : State) (f : Fld) (n : Nat) : (s.inc f n).hbm = s.hbm := rfl
@[simp] theorem State.inc_commons (s : State) (f : Fld) (n : Nat) : (s.inc f n).commons = s.commons := rfl
@[simp] theorem State.inc_msram (s : State) (f : Fld) (n : Nat) : (s.inc f n).msram = s.msram := rfl
@[simp] theorem State.inc_flash (s : State) (f : Fld) (n : Nat) : (s.inc f n).flash = s.flash := rfl
@[simp] theorem State.inc_tiles (s : State) (f : Fld) (n : Nat) : (s.inc f n).tiles = s.tiles := rfl
@[simp] theorem State.inc_fab (s : State) (f : Fld) (n : Nat) : (s.inc f n).fab = s.fab := rfl
@[simp] theorem State.inc_slots (s : State) (f : Fld) (n : Nat) : (s.inc f n).slots = s.slots := rfl
@[simp] theorem State.inc_adm (s : State) (f : Fld) (n : Nat) : (s.inc f n).adm = s.adm := rfl
@[simp] theorem State.inc_face (s : State) (f : Fld) (n : Nat) : (s.inc f n).face = s.face := rfl
@[simp] theorem State.inc_prot (s : State) (f : Fld) (n : Nat) : (s.inc f n).prot = s.prot := rfl
@[simp] theorem State.inc_scrub (s : State) (f : Fld) (n : Nat) : (s.inc f n).scrub = s.scrub := rfl
@[simp] theorem State.inc_eng (s : State) (f : Fld) (n : Nat) : (s.inc f n).eng = s.eng := rfl
@[simp] theorem State.inc_ing (s : State) (f : Fld) (n : Nat) : (s.inc f n).ing = s.ing := rfl
@[simp] theorem State.inc_res (s : State) (f : Fld) (n : Nat) : (s.inc f n).res = s.res := rfl
@[simp] theorem State.inc_ctxs (s : State) (f : Fld) (n : Nat) : (s.inc f n).ctxs = s.ctxs := rfl
@[simp] theorem State.inc_net (s : State) (f : Fld) (n : Nat) : (s.inc f n).net = s.net := rfl
@[simp] theorem State.inc_decQ (s : State) (f : Fld) (n : Nat) : (s.inc f n).decQ = s.decQ := rfl
@[simp] theorem State.inc_ppsEdge (s : State) (f : Fld) (n : Nat) : (s.inc f n).ppsEdge = s.ppsEdge := rfl
@[simp] theorem State.inc_sport (s : State) (f : Fld) (n : Nat) : (s.inc f n).sport = s.sport := rfl
@[simp] theorem State.inc_burl (s : State) (f : Fld) (n : Nat) : (s.inc f n).burl = s.burl := rfl
@[simp] theorem State.inc_io (s : State) (f : Fld) (n : Nat) : (s.inc f n).io = s.io := rfl
@[simp] theorem State.inc_host (s : State) (f : Fld) (n : Nat) : (s.inc f n).host = s.host := rfl
@[simp] theorem State.inc_quoins (s : State) (f : Fld) (n : Nat) : (s.inc f n).quoins = s.quoins := rfl
@[simp] theorem State.inc_alloc (s : State) (f : Fld) (n : Nat) : (s.inc f n).alloc = s.alloc := rfl
@[simp] theorem State.inc_log (s : State) (f : Fld) (n : Nat) : (s.inc f n).log = s.log := rfl
@[simp] theorem State.inc_fw (s : State) (f : Fld) (n : Nat) : (s.inc f n).fw = s.fw := rfl
@[simp] theorem State.inc_otp (s : State) (f : Fld) (n : Nat) : (s.inc f n).otp = s.otp := rfl
@[simp] theorem State.inc_ld (s : State) (f : Fld) (n : Nat) : (s.inc f n).ld = s.ld := rfl
@[simp] theorem State.inc_decRef (s : State) (f : Fld) (n : Nat) : (s.inc f n).decRef = s.decRef := rfl
@[simp] theorem State.inc_health (s : State) (f : Fld) (n : Nat) : (s.inc f n).health = s.health := rfl
@[simp] theorem State.inc_pwr (s : State) (f : Fld) (n : Nat) : (s.inc f n).pwr = s.pwr := rfl

/-! ## setTile -/

@[simp] theorem State.setTile_pending (s : State) (t : Nat) (x : Tile) : (s.setTile t x).pending = s.pending := rfl
@[simp] theorem State.setTile_freeCtr (s : State) (t : Nat) (x : Tile) : (s.setTile t x).freeCtr = s.freeCtr := rfl
@[simp] theorem State.setTile_resp (s : State) (t : Nat) (x : Tile) : (s.setTile t x).resp = s.resp := rfl
@[simp] theorem State.setTile_base (s : State) (t : Nat) (x : Tile) : (s.setTile t x).base = s.base := rfl
@[simp] theorem State.setTile_dev (s : State) (t : Nat) (x : Tile) : (s.setTile t x).dev = s.dev := rfl
@[simp] theorem State.setTile_regs (s : State) (t : Nat) (x : Tile) : (s.setTile t x).regs = s.regs := rfl
@[simp] theorem State.setTile_hbm (s : State) (t : Nat) (x : Tile) : (s.setTile t x).hbm = s.hbm := rfl
@[simp] theorem State.setTile_commons (s : State) (t : Nat) (x : Tile) : (s.setTile t x).commons = s.commons := rfl
@[simp] theorem State.setTile_msram (s : State) (t : Nat) (x : Tile) : (s.setTile t x).msram = s.msram := rfl
@[simp] theorem State.setTile_flash (s : State) (t : Nat) (x : Tile) : (s.setTile t x).flash = s.flash := rfl
@[simp] theorem State.setTile_fab (s : State) (t : Nat) (x : Tile) : (s.setTile t x).fab = s.fab := rfl
@[simp] theorem State.setTile_slots (s : State) (t : Nat) (x : Tile) : (s.setTile t x).slots = s.slots := rfl
@[simp] theorem State.setTile_adm (s : State) (t : Nat) (x : Tile) : (s.setTile t x).adm = s.adm := rfl
@[simp] theorem State.setTile_face (s : State) (t : Nat) (x : Tile) : (s.setTile t x).face = s.face := rfl
@[simp] theorem State.setTile_prot (s : State) (t : Nat) (x : Tile) : (s.setTile t x).prot = s.prot := rfl
@[simp] theorem State.setTile_scrub (s : State) (t : Nat) (x : Tile) : (s.setTile t x).scrub = s.scrub := rfl
@[simp] theorem State.setTile_eng (s : State) (t : Nat) (x : Tile) : (s.setTile t x).eng = s.eng := rfl
@[simp] theorem State.setTile_ing (s : State) (t : Nat) (x : Tile) : (s.setTile t x).ing = s.ing := rfl
@[simp] theorem State.setTile_res (s : State) (t : Nat) (x : Tile) : (s.setTile t x).res = s.res := rfl
@[simp] theorem State.setTile_ctxs (s : State) (t : Nat) (x : Tile) : (s.setTile t x).ctxs = s.ctxs := rfl
@[simp] theorem State.setTile_net (s : State) (t : Nat) (x : Tile) : (s.setTile t x).net = s.net := rfl
@[simp] theorem State.setTile_decQ (s : State) (t : Nat) (x : Tile) : (s.setTile t x).decQ = s.decQ := rfl
@[simp] theorem State.setTile_ppsEdge (s : State) (t : Nat) (x : Tile) : (s.setTile t x).ppsEdge = s.ppsEdge := rfl
@[simp] theorem State.setTile_sport (s : State) (t : Nat) (x : Tile) : (s.setTile t x).sport = s.sport := rfl
@[simp] theorem State.setTile_burl (s : State) (t : Nat) (x : Tile) : (s.setTile t x).burl = s.burl := rfl
@[simp] theorem State.setTile_io (s : State) (t : Nat) (x : Tile) : (s.setTile t x).io = s.io := rfl
@[simp] theorem State.setTile_host (s : State) (t : Nat) (x : Tile) : (s.setTile t x).host = s.host := rfl
@[simp] theorem State.setTile_quoins (s : State) (t : Nat) (x : Tile) : (s.setTile t x).quoins = s.quoins := rfl
@[simp] theorem State.setTile_alloc (s : State) (t : Nat) (x : Tile) : (s.setTile t x).alloc = s.alloc := rfl
@[simp] theorem State.setTile_log (s : State) (t : Nat) (x : Tile) : (s.setTile t x).log = s.log := rfl
@[simp] theorem State.setTile_fw (s : State) (t : Nat) (x : Tile) : (s.setTile t x).fw = s.fw := rfl
@[simp] theorem State.setTile_otp (s : State) (t : Nat) (x : Tile) : (s.setTile t x).otp = s.otp := rfl
@[simp] theorem State.setTile_ld (s : State) (t : Nat) (x : Tile) : (s.setTile t x).ld = s.ld := rfl
@[simp] theorem State.setTile_decRef (s : State) (t : Nat) (x : Tile) : (s.setTile t x).decRef = s.decRef := rfl
@[simp] theorem State.setTile_health (s : State) (t : Nat) (x : Tile) : (s.setTile t x).health = s.health := rfl
@[simp] theorem State.setTile_pwr (s : State) (t : Nat) (x : Tile) : (s.setTile t x).pwr = s.pwr := rfl

/-! ## modTile -/

@[simp] theorem State.modTile_pending (s : State) (t : Nat) (f : Tile → Tile) : (s.modTile t f).pending = s.pending := rfl
@[simp] theorem State.modTile_freeCtr (s : State) (t : Nat) (f : Tile → Tile) : (s.modTile t f).freeCtr = s.freeCtr := rfl
@[simp] theorem State.modTile_resp (s : State) (t : Nat) (f : Tile → Tile) : (s.modTile t f).resp = s.resp := rfl
@[simp] theorem State.modTile_base (s : State) (t : Nat) (f : Tile → Tile) : (s.modTile t f).base = s.base := rfl
@[simp] theorem State.modTile_dev (s : State) (t : Nat) (f : Tile → Tile) : (s.modTile t f).dev = s.dev := rfl
@[simp] theorem State.modTile_regs (s : State) (t : Nat) (f : Tile → Tile) : (s.modTile t f).regs = s.regs := rfl
@[simp] theorem State.modTile_hbm (s : State) (t : Nat) (f : Tile → Tile) : (s.modTile t f).hbm = s.hbm := rfl
@[simp] theorem State.modTile_commons (s : State) (t : Nat) (f : Tile → Tile) : (s.modTile t f).commons = s.commons := rfl
@[simp] theorem State.modTile_msram (s : State) (t : Nat) (f : Tile → Tile) : (s.modTile t f).msram = s.msram := rfl
@[simp] theorem State.modTile_flash (s : State) (t : Nat) (f : Tile → Tile) : (s.modTile t f).flash = s.flash := rfl
@[simp] theorem State.modTile_fab (s : State) (t : Nat) (f : Tile → Tile) : (s.modTile t f).fab = s.fab := rfl
@[simp] theorem State.modTile_slots (s : State) (t : Nat) (f : Tile → Tile) : (s.modTile t f).slots = s.slots := rfl
@[simp] theorem State.modTile_adm (s : State) (t : Nat) (f : Tile → Tile) : (s.modTile t f).adm = s.adm := rfl
@[simp] theorem State.modTile_face (s : State) (t : Nat) (f : Tile → Tile) : (s.modTile t f).face = s.face := rfl
@[simp] theorem State.modTile_prot (s : State) (t : Nat) (f : Tile → Tile) : (s.modTile t f).prot = s.prot := rfl
@[simp] theorem State.modTile_scrub (s : State) (t : Nat) (f : Tile → Tile) : (s.modTile t f).scrub = s.scrub := rfl
@[simp] theorem State.modTile_eng (s : State) (t : Nat) (f : Tile → Tile) : (s.modTile t f).eng = s.eng := rfl
@[simp] theorem State.modTile_ing (s : State) (t : Nat) (f : Tile → Tile) : (s.modTile t f).ing = s.ing := rfl
@[simp] theorem State.modTile_res (s : State) (t : Nat) (f : Tile → Tile) : (s.modTile t f).res = s.res := rfl
@[simp] theorem State.modTile_ctxs (s : State) (t : Nat) (f : Tile → Tile) : (s.modTile t f).ctxs = s.ctxs := rfl
@[simp] theorem State.modTile_net (s : State) (t : Nat) (f : Tile → Tile) : (s.modTile t f).net = s.net := rfl
@[simp] theorem State.modTile_decQ (s : State) (t : Nat) (f : Tile → Tile) : (s.modTile t f).decQ = s.decQ := rfl
@[simp] theorem State.modTile_ppsEdge (s : State) (t : Nat) (f : Tile → Tile) : (s.modTile t f).ppsEdge = s.ppsEdge := rfl
@[simp] theorem State.modTile_sport (s : State) (t : Nat) (f : Tile → Tile) : (s.modTile t f).sport = s.sport := rfl
@[simp] theorem State.modTile_burl (s : State) (t : Nat) (f : Tile → Tile) : (s.modTile t f).burl = s.burl := rfl
@[simp] theorem State.modTile_io (s : State) (t : Nat) (f : Tile → Tile) : (s.modTile t f).io = s.io := rfl
@[simp] theorem State.modTile_host (s : State) (t : Nat) (f : Tile → Tile) : (s.modTile t f).host = s.host := rfl
@[simp] theorem State.modTile_quoins (s : State) (t : Nat) (f : Tile → Tile) : (s.modTile t f).quoins = s.quoins := rfl
@[simp] theorem State.modTile_alloc (s : State) (t : Nat) (f : Tile → Tile) : (s.modTile t f).alloc = s.alloc := rfl
@[simp] theorem State.modTile_log (s : State) (t : Nat) (f : Tile → Tile) : (s.modTile t f).log = s.log := rfl
@[simp] theorem State.modTile_fw (s : State) (t : Nat) (f : Tile → Tile) : (s.modTile t f).fw = s.fw := rfl
@[simp] theorem State.modTile_otp (s : State) (t : Nat) (f : Tile → Tile) : (s.modTile t f).otp = s.otp := rfl
@[simp] theorem State.modTile_ld (s : State) (t : Nat) (f : Tile → Tile) : (s.modTile t f).ld = s.ld := rfl
@[simp] theorem State.modTile_decRef (s : State) (t : Nat) (f : Tile → Tile) : (s.modTile t f).decRef = s.decRef := rfl
@[simp] theorem State.modTile_health (s : State) (t : Nat) (f : Tile → Tile) : (s.modTile t f).health = s.health := rfl
@[simp] theorem State.modTile_pwr (s : State) (t : Nat) (f : Tile → Tile) : (s.modTile t f).pwr = s.pwr := rfl

/-! ## modCore -/

@[simp] theorem State.modCore_pending (s : State) (t : Nat) (f : SCore → SCore) : (s.modCore t f).pending = s.pending := rfl
@[simp] theorem State.modCore_freeCtr (s : State) (t : Nat) (f : SCore → SCore) : (s.modCore t f).freeCtr = s.freeCtr := rfl
@[simp] theorem State.modCore_resp (s : State) (t : Nat) (f : SCore → SCore) : (s.modCore t f).resp = s.resp := rfl
@[simp] theorem State.modCore_base (s : State) (t : Nat) (f : SCore → SCore) : (s.modCore t f).base = s.base := rfl
@[simp] theorem State.modCore_dev (s : State) (t : Nat) (f : SCore → SCore) : (s.modCore t f).dev = s.dev := rfl
@[simp] theorem State.modCore_regs (s : State) (t : Nat) (f : SCore → SCore) : (s.modCore t f).regs = s.regs := rfl
@[simp] theorem State.modCore_hbm (s : State) (t : Nat) (f : SCore → SCore) : (s.modCore t f).hbm = s.hbm := rfl
@[simp] theorem State.modCore_commons (s : State) (t : Nat) (f : SCore → SCore) : (s.modCore t f).commons = s.commons := rfl
@[simp] theorem State.modCore_msram (s : State) (t : Nat) (f : SCore → SCore) : (s.modCore t f).msram = s.msram := rfl
@[simp] theorem State.modCore_flash (s : State) (t : Nat) (f : SCore → SCore) : (s.modCore t f).flash = s.flash := rfl
@[simp] theorem State.modCore_fab (s : State) (t : Nat) (f : SCore → SCore) : (s.modCore t f).fab = s.fab := rfl
@[simp] theorem State.modCore_slots (s : State) (t : Nat) (f : SCore → SCore) : (s.modCore t f).slots = s.slots := rfl
@[simp] theorem State.modCore_adm (s : State) (t : Nat) (f : SCore → SCore) : (s.modCore t f).adm = s.adm := rfl
@[simp] theorem State.modCore_face (s : State) (t : Nat) (f : SCore → SCore) : (s.modCore t f).face = s.face := rfl
@[simp] theorem State.modCore_prot (s : State) (t : Nat) (f : SCore → SCore) : (s.modCore t f).prot = s.prot := rfl
@[simp] theorem State.modCore_scrub (s : State) (t : Nat) (f : SCore → SCore) : (s.modCore t f).scrub = s.scrub := rfl
@[simp] theorem State.modCore_eng (s : State) (t : Nat) (f : SCore → SCore) : (s.modCore t f).eng = s.eng := rfl
@[simp] theorem State.modCore_ing (s : State) (t : Nat) (f : SCore → SCore) : (s.modCore t f).ing = s.ing := rfl
@[simp] theorem State.modCore_res (s : State) (t : Nat) (f : SCore → SCore) : (s.modCore t f).res = s.res := rfl
@[simp] theorem State.modCore_ctxs (s : State) (t : Nat) (f : SCore → SCore) : (s.modCore t f).ctxs = s.ctxs := rfl
@[simp] theorem State.modCore_net (s : State) (t : Nat) (f : SCore → SCore) : (s.modCore t f).net = s.net := rfl
@[simp] theorem State.modCore_decQ (s : State) (t : Nat) (f : SCore → SCore) : (s.modCore t f).decQ = s.decQ := rfl
@[simp] theorem State.modCore_ppsEdge (s : State) (t : Nat) (f : SCore → SCore) : (s.modCore t f).ppsEdge = s.ppsEdge := rfl
@[simp] theorem State.modCore_sport (s : State) (t : Nat) (f : SCore → SCore) : (s.modCore t f).sport = s.sport := rfl
@[simp] theorem State.modCore_burl (s : State) (t : Nat) (f : SCore → SCore) : (s.modCore t f).burl = s.burl := rfl
@[simp] theorem State.modCore_io (s : State) (t : Nat) (f : SCore → SCore) : (s.modCore t f).io = s.io := rfl
@[simp] theorem State.modCore_host (s : State) (t : Nat) (f : SCore → SCore) : (s.modCore t f).host = s.host := rfl
@[simp] theorem State.modCore_quoins (s : State) (t : Nat) (f : SCore → SCore) : (s.modCore t f).quoins = s.quoins := rfl
@[simp] theorem State.modCore_alloc (s : State) (t : Nat) (f : SCore → SCore) : (s.modCore t f).alloc = s.alloc := rfl
@[simp] theorem State.modCore_log (s : State) (t : Nat) (f : SCore → SCore) : (s.modCore t f).log = s.log := rfl
@[simp] theorem State.modCore_fw (s : State) (t : Nat) (f : SCore → SCore) : (s.modCore t f).fw = s.fw := rfl
@[simp] theorem State.modCore_otp (s : State) (t : Nat) (f : SCore → SCore) : (s.modCore t f).otp = s.otp := rfl
@[simp] theorem State.modCore_ld (s : State) (t : Nat) (f : SCore → SCore) : (s.modCore t f).ld = s.ld := rfl
@[simp] theorem State.modCore_decRef (s : State) (t : Nat) (f : SCore → SCore) : (s.modCore t f).decRef = s.decRef := rfl
@[simp] theorem State.modCore_health (s : State) (t : Nat) (f : SCore → SCore) : (s.modCore t f).health = s.health := rfl
@[simp] theorem State.modCore_pwr (s : State) (t : Nat) (f : SCore → SCore) : (s.modCore t f).pwr = s.pwr := rfl

/-! ## modPlat -/

@[simp] theorem State.modPlat_pending (s : State) (t : Nat) (f : PlatenSt → PlatenSt) : (s.modPlat t f).pending = s.pending := rfl
@[simp] theorem State.modPlat_freeCtr (s : State) (t : Nat) (f : PlatenSt → PlatenSt) : (s.modPlat t f).freeCtr = s.freeCtr := rfl
@[simp] theorem State.modPlat_resp (s : State) (t : Nat) (f : PlatenSt → PlatenSt) : (s.modPlat t f).resp = s.resp := rfl
@[simp] theorem State.modPlat_base (s : State) (t : Nat) (f : PlatenSt → PlatenSt) : (s.modPlat t f).base = s.base := rfl
@[simp] theorem State.modPlat_dev (s : State) (t : Nat) (f : PlatenSt → PlatenSt) : (s.modPlat t f).dev = s.dev := rfl
@[simp] theorem State.modPlat_regs (s : State) (t : Nat) (f : PlatenSt → PlatenSt) : (s.modPlat t f).regs = s.regs := rfl
@[simp] theorem State.modPlat_hbm (s : State) (t : Nat) (f : PlatenSt → PlatenSt) : (s.modPlat t f).hbm = s.hbm := rfl
@[simp] theorem State.modPlat_commons (s : State) (t : Nat) (f : PlatenSt → PlatenSt) : (s.modPlat t f).commons = s.commons := rfl
@[simp] theorem State.modPlat_msram (s : State) (t : Nat) (f : PlatenSt → PlatenSt) : (s.modPlat t f).msram = s.msram := rfl
@[simp] theorem State.modPlat_flash (s : State) (t : Nat) (f : PlatenSt → PlatenSt) : (s.modPlat t f).flash = s.flash := rfl
@[simp] theorem State.modPlat_fab (s : State) (t : Nat) (f : PlatenSt → PlatenSt) : (s.modPlat t f).fab = s.fab := rfl
@[simp] theorem State.modPlat_slots (s : State) (t : Nat) (f : PlatenSt → PlatenSt) : (s.modPlat t f).slots = s.slots := rfl
@[simp] theorem State.modPlat_adm (s : State) (t : Nat) (f : PlatenSt → PlatenSt) : (s.modPlat t f).adm = s.adm := rfl
@[simp] theorem State.modPlat_face (s : State) (t : Nat) (f : PlatenSt → PlatenSt) : (s.modPlat t f).face = s.face := rfl
@[simp] theorem State.modPlat_prot (s : State) (t : Nat) (f : PlatenSt → PlatenSt) : (s.modPlat t f).prot = s.prot := rfl
@[simp] theorem State.modPlat_scrub (s : State) (t : Nat) (f : PlatenSt → PlatenSt) : (s.modPlat t f).scrub = s.scrub := rfl
@[simp] theorem State.modPlat_eng (s : State) (t : Nat) (f : PlatenSt → PlatenSt) : (s.modPlat t f).eng = s.eng := rfl
@[simp] theorem State.modPlat_ing (s : State) (t : Nat) (f : PlatenSt → PlatenSt) : (s.modPlat t f).ing = s.ing := rfl
@[simp] theorem State.modPlat_res (s : State) (t : Nat) (f : PlatenSt → PlatenSt) : (s.modPlat t f).res = s.res := rfl
@[simp] theorem State.modPlat_ctxs (s : State) (t : Nat) (f : PlatenSt → PlatenSt) : (s.modPlat t f).ctxs = s.ctxs := rfl
@[simp] theorem State.modPlat_net (s : State) (t : Nat) (f : PlatenSt → PlatenSt) : (s.modPlat t f).net = s.net := rfl
@[simp] theorem State.modPlat_decQ (s : State) (t : Nat) (f : PlatenSt → PlatenSt) : (s.modPlat t f).decQ = s.decQ := rfl
@[simp] theorem State.modPlat_ppsEdge (s : State) (t : Nat) (f : PlatenSt → PlatenSt) : (s.modPlat t f).ppsEdge = s.ppsEdge := rfl
@[simp] theorem State.modPlat_sport (s : State) (t : Nat) (f : PlatenSt → PlatenSt) : (s.modPlat t f).sport = s.sport := rfl
@[simp] theorem State.modPlat_burl (s : State) (t : Nat) (f : PlatenSt → PlatenSt) : (s.modPlat t f).burl = s.burl := rfl
@[simp] theorem State.modPlat_io (s : State) (t : Nat) (f : PlatenSt → PlatenSt) : (s.modPlat t f).io = s.io := rfl
@[simp] theorem State.modPlat_host (s : State) (t : Nat) (f : PlatenSt → PlatenSt) : (s.modPlat t f).host = s.host := rfl
@[simp] theorem State.modPlat_quoins (s : State) (t : Nat) (f : PlatenSt → PlatenSt) : (s.modPlat t f).quoins = s.quoins := rfl
@[simp] theorem State.modPlat_alloc (s : State) (t : Nat) (f : PlatenSt → PlatenSt) : (s.modPlat t f).alloc = s.alloc := rfl
@[simp] theorem State.modPlat_log (s : State) (t : Nat) (f : PlatenSt → PlatenSt) : (s.modPlat t f).log = s.log := rfl
@[simp] theorem State.modPlat_fw (s : State) (t : Nat) (f : PlatenSt → PlatenSt) : (s.modPlat t f).fw = s.fw := rfl
@[simp] theorem State.modPlat_otp (s : State) (t : Nat) (f : PlatenSt → PlatenSt) : (s.modPlat t f).otp = s.otp := rfl
@[simp] theorem State.modPlat_ld (s : State) (t : Nat) (f : PlatenSt → PlatenSt) : (s.modPlat t f).ld = s.ld := rfl
@[simp] theorem State.modPlat_decRef (s : State) (t : Nat) (f : PlatenSt → PlatenSt) : (s.modPlat t f).decRef = s.decRef := rfl
@[simp] theorem State.modPlat_health (s : State) (t : Nat) (f : PlatenSt → PlatenSt) : (s.modPlat t f).health = s.health := rfl
@[simp] theorem State.modPlat_pwr (s : State) (t : Nat) (f : PlatenSt → PlatenSt) : (s.modPlat t f).pwr = s.pwr := rfl

/-! ## complete -/

@[simp] theorem State.complete_pending (s : State) (t : Nat) (f : SCore → SCore) : (s.complete t f).pending = s.pending := rfl
@[simp] theorem State.complete_freeCtr (s : State) (t : Nat) (f : SCore → SCore) : (s.complete t f).freeCtr = s.freeCtr := rfl
@[simp] theorem State.complete_resp (s : State) (t : Nat) (f : SCore → SCore) : (s.complete t f).resp = s.resp := rfl
@[simp] theorem State.complete_base (s : State) (t : Nat) (f : SCore → SCore) : (s.complete t f).base = s.base := rfl
@[simp] theorem State.complete_dev (s : State) (t : Nat) (f : SCore → SCore) : (s.complete t f).dev = s.dev := rfl
@[simp] theorem State.complete_regs (s : State) (t : Nat) (f : SCore → SCore) : (s.complete t f).regs = s.regs := rfl
@[simp] theorem State.complete_hbm (s : State) (t : Nat) (f : SCore → SCore) : (s.complete t f).hbm = s.hbm := rfl
@[simp] theorem State.complete_commons (s : State) (t : Nat) (f : SCore → SCore) : (s.complete t f).commons = s.commons := rfl
@[simp] theorem State.complete_msram (s : State) (t : Nat) (f : SCore → SCore) : (s.complete t f).msram = s.msram := rfl
@[simp] theorem State.complete_flash (s : State) (t : Nat) (f : SCore → SCore) : (s.complete t f).flash = s.flash := rfl
@[simp] theorem State.complete_fab (s : State) (t : Nat) (f : SCore → SCore) : (s.complete t f).fab = s.fab := rfl
@[simp] theorem State.complete_slots (s : State) (t : Nat) (f : SCore → SCore) : (s.complete t f).slots = s.slots := rfl
@[simp] theorem State.complete_adm (s : State) (t : Nat) (f : SCore → SCore) : (s.complete t f).adm = s.adm := rfl
@[simp] theorem State.complete_face (s : State) (t : Nat) (f : SCore → SCore) : (s.complete t f).face = s.face := rfl
@[simp] theorem State.complete_prot (s : State) (t : Nat) (f : SCore → SCore) : (s.complete t f).prot = s.prot := rfl
@[simp] theorem State.complete_scrub (s : State) (t : Nat) (f : SCore → SCore) : (s.complete t f).scrub = s.scrub := rfl
@[simp] theorem State.complete_eng (s : State) (t : Nat) (f : SCore → SCore) : (s.complete t f).eng = s.eng := rfl
@[simp] theorem State.complete_ing (s : State) (t : Nat) (f : SCore → SCore) : (s.complete t f).ing = s.ing := rfl
@[simp] theorem State.complete_res (s : State) (t : Nat) (f : SCore → SCore) : (s.complete t f).res = s.res := rfl
@[simp] theorem State.complete_ctxs (s : State) (t : Nat) (f : SCore → SCore) : (s.complete t f).ctxs = s.ctxs := rfl
@[simp] theorem State.complete_net (s : State) (t : Nat) (f : SCore → SCore) : (s.complete t f).net = s.net := rfl
@[simp] theorem State.complete_decQ (s : State) (t : Nat) (f : SCore → SCore) : (s.complete t f).decQ = s.decQ := rfl
@[simp] theorem State.complete_ppsEdge (s : State) (t : Nat) (f : SCore → SCore) : (s.complete t f).ppsEdge = s.ppsEdge := rfl
@[simp] theorem State.complete_sport (s : State) (t : Nat) (f : SCore → SCore) : (s.complete t f).sport = s.sport := rfl
@[simp] theorem State.complete_burl (s : State) (t : Nat) (f : SCore → SCore) : (s.complete t f).burl = s.burl := rfl
@[simp] theorem State.complete_io (s : State) (t : Nat) (f : SCore → SCore) : (s.complete t f).io = s.io := rfl
@[simp] theorem State.complete_host (s : State) (t : Nat) (f : SCore → SCore) : (s.complete t f).host = s.host := rfl
@[simp] theorem State.complete_quoins (s : State) (t : Nat) (f : SCore → SCore) : (s.complete t f).quoins = s.quoins := rfl
@[simp] theorem State.complete_alloc (s : State) (t : Nat) (f : SCore → SCore) : (s.complete t f).alloc = s.alloc := rfl
@[simp] theorem State.complete_log (s : State) (t : Nat) (f : SCore → SCore) : (s.complete t f).log = s.log := rfl
@[simp] theorem State.complete_fw (s : State) (t : Nat) (f : SCore → SCore) : (s.complete t f).fw = s.fw := rfl
@[simp] theorem State.complete_otp (s : State) (t : Nat) (f : SCore → SCore) : (s.complete t f).otp = s.otp := rfl
@[simp] theorem State.complete_ld (s : State) (t : Nat) (f : SCore → SCore) : (s.complete t f).ld = s.ld := rfl
@[simp] theorem State.complete_decRef (s : State) (t : Nat) (f : SCore → SCore) : (s.complete t f).decRef = s.decRef := rfl
@[simp] theorem State.complete_health (s : State) (t : Nat) (f : SCore → SCore) : (s.complete t f).health = s.health := rfl
@[simp] theorem State.complete_pwr (s : State) (t : Nat) (f : SCore → SCore) : (s.complete t f).pwr = s.pwr := rfl

/-! ## stall -/

@[simp] theorem State.stall_pending (s : State) (t : Nat) (i : Instr) : (s.stall t i).pending = s.pending := rfl
@[simp] theorem State.stall_freeCtr (s : State) (t : Nat) (i : Instr) : (s.stall t i).freeCtr = s.freeCtr := rfl
@[simp] theorem State.stall_resp (s : State) (t : Nat) (i : Instr) : (s.stall t i).resp = s.resp := rfl
@[simp] theorem State.stall_base (s : State) (t : Nat) (i : Instr) : (s.stall t i).base = s.base := rfl
@[simp] theorem State.stall_dev (s : State) (t : Nat) (i : Instr) : (s.stall t i).dev = s.dev := rfl
@[simp] theorem State.stall_regs (s : State) (t : Nat) (i : Instr) : (s.stall t i).regs = s.regs := rfl
@[simp] theorem State.stall_hbm (s : State) (t : Nat) (i : Instr) : (s.stall t i).hbm = s.hbm := rfl
@[simp] theorem State.stall_commons (s : State) (t : Nat) (i : Instr) : (s.stall t i).commons = s.commons := rfl
@[simp] theorem State.stall_msram (s : State) (t : Nat) (i : Instr) : (s.stall t i).msram = s.msram := rfl
@[simp] theorem State.stall_flash (s : State) (t : Nat) (i : Instr) : (s.stall t i).flash = s.flash := rfl
@[simp] theorem State.stall_fab (s : State) (t : Nat) (i : Instr) : (s.stall t i).fab = s.fab := rfl
@[simp] theorem State.stall_slots (s : State) (t : Nat) (i : Instr) : (s.stall t i).slots = s.slots := rfl
@[simp] theorem State.stall_adm (s : State) (t : Nat) (i : Instr) : (s.stall t i).adm = s.adm := rfl
@[simp] theorem State.stall_face (s : State) (t : Nat) (i : Instr) : (s.stall t i).face = s.face := rfl
@[simp] theorem State.stall_prot (s : State) (t : Nat) (i : Instr) : (s.stall t i).prot = s.prot := rfl
@[simp] theorem State.stall_scrub (s : State) (t : Nat) (i : Instr) : (s.stall t i).scrub = s.scrub := rfl
@[simp] theorem State.stall_eng (s : State) (t : Nat) (i : Instr) : (s.stall t i).eng = s.eng := rfl
@[simp] theorem State.stall_ing (s : State) (t : Nat) (i : Instr) : (s.stall t i).ing = s.ing := rfl
@[simp] theorem State.stall_res (s : State) (t : Nat) (i : Instr) : (s.stall t i).res = s.res := rfl
@[simp] theorem State.stall_ctxs (s : State) (t : Nat) (i : Instr) : (s.stall t i).ctxs = s.ctxs := rfl
@[simp] theorem State.stall_net (s : State) (t : Nat) (i : Instr) : (s.stall t i).net = s.net := rfl
@[simp] theorem State.stall_decQ (s : State) (t : Nat) (i : Instr) : (s.stall t i).decQ = s.decQ := rfl
@[simp] theorem State.stall_ppsEdge (s : State) (t : Nat) (i : Instr) : (s.stall t i).ppsEdge = s.ppsEdge := rfl
@[simp] theorem State.stall_sport (s : State) (t : Nat) (i : Instr) : (s.stall t i).sport = s.sport := rfl
@[simp] theorem State.stall_burl (s : State) (t : Nat) (i : Instr) : (s.stall t i).burl = s.burl := rfl
@[simp] theorem State.stall_io (s : State) (t : Nat) (i : Instr) : (s.stall t i).io = s.io := rfl
@[simp] theorem State.stall_host (s : State) (t : Nat) (i : Instr) : (s.stall t i).host = s.host := rfl
@[simp] theorem State.stall_quoins (s : State) (t : Nat) (i : Instr) : (s.stall t i).quoins = s.quoins := rfl
@[simp] theorem State.stall_alloc (s : State) (t : Nat) (i : Instr) : (s.stall t i).alloc = s.alloc := rfl
@[simp] theorem State.stall_log (s : State) (t : Nat) (i : Instr) : (s.stall t i).log = s.log := rfl
@[simp] theorem State.stall_fw (s : State) (t : Nat) (i : Instr) : (s.stall t i).fw = s.fw := rfl
@[simp] theorem State.stall_otp (s : State) (t : Nat) (i : Instr) : (s.stall t i).otp = s.otp := rfl
@[simp] theorem State.stall_ld (s : State) (t : Nat) (i : Instr) : (s.stall t i).ld = s.ld := rfl
@[simp] theorem State.stall_decRef (s : State) (t : Nat) (i : Instr) : (s.stall t i).decRef = s.decRef := rfl
@[simp] theorem State.stall_health (s : State) (t : Nat) (i : Instr) : (s.stall t i).health = s.health := rfl
@[simp] theorem State.stall_pwr (s : State) (t : Nat) (i : Instr) : (s.stall t i).pwr = s.pwr := rfl

/-! ## modSlot -/

@[simp] theorem State.modSlot_pending (s : State) (k : Nat) (f : Slot → Slot) : (s.modSlot k f).pending = s.pending := rfl
@[simp] theorem State.modSlot_freeCtr (s : State) (k : Nat) (f : Slot → Slot) : (s.modSlot k f).freeCtr = s.freeCtr := rfl
@[simp] theorem State.modSlot_resp (s : State) (k : Nat) (f : Slot → Slot) : (s.modSlot k f).resp = s.resp := rfl
@[simp] theorem State.modSlot_base (s : State) (k : Nat) (f : Slot → Slot) : (s.modSlot k f).base = s.base := rfl
@[simp] theorem State.modSlot_dev (s : State) (k : Nat) (f : Slot → Slot) : (s.modSlot k f).dev = s.dev := rfl
@[simp] theorem State.modSlot_regs (s : State) (k : Nat) (f : Slot → Slot) : (s.modSlot k f).regs = s.regs := rfl
@[simp] theorem State.modSlot_hbm (s : State) (k : Nat) (f : Slot → Slot) : (s.modSlot k f).hbm = s.hbm := rfl
@[simp] theorem State.modSlot_commons (s : State) (k : Nat) (f : Slot → Slot) : (s.modSlot k f).commons = s.commons := rfl
@[simp] theorem State.modSlot_msram (s : State) (k : Nat) (f : Slot → Slot) : (s.modSlot k f).msram = s.msram := rfl
@[simp] theorem State.modSlot_flash (s : State) (k : Nat) (f : Slot → Slot) : (s.modSlot k f).flash = s.flash := rfl
@[simp] theorem State.modSlot_tiles (s : State) (k : Nat) (f : Slot → Slot) : (s.modSlot k f).tiles = s.tiles := rfl
@[simp] theorem State.modSlot_fab (s : State) (k : Nat) (f : Slot → Slot) : (s.modSlot k f).fab = s.fab := rfl
@[simp] theorem State.modSlot_adm (s : State) (k : Nat) (f : Slot → Slot) : (s.modSlot k f).adm = s.adm := rfl
@[simp] theorem State.modSlot_face (s : State) (k : Nat) (f : Slot → Slot) : (s.modSlot k f).face = s.face := rfl
@[simp] theorem State.modSlot_prot (s : State) (k : Nat) (f : Slot → Slot) : (s.modSlot k f).prot = s.prot := rfl
@[simp] theorem State.modSlot_scrub (s : State) (k : Nat) (f : Slot → Slot) : (s.modSlot k f).scrub = s.scrub := rfl
@[simp] theorem State.modSlot_eng (s : State) (k : Nat) (f : Slot → Slot) : (s.modSlot k f).eng = s.eng := rfl
@[simp] theorem State.modSlot_ing (s : State) (k : Nat) (f : Slot → Slot) : (s.modSlot k f).ing = s.ing := rfl
@[simp] theorem State.modSlot_res (s : State) (k : Nat) (f : Slot → Slot) : (s.modSlot k f).res = s.res := rfl
@[simp] theorem State.modSlot_ctxs (s : State) (k : Nat) (f : Slot → Slot) : (s.modSlot k f).ctxs = s.ctxs := rfl
@[simp] theorem State.modSlot_net (s : State) (k : Nat) (f : Slot → Slot) : (s.modSlot k f).net = s.net := rfl
@[simp] theorem State.modSlot_decQ (s : State) (k : Nat) (f : Slot → Slot) : (s.modSlot k f).decQ = s.decQ := rfl
@[simp] theorem State.modSlot_ppsEdge (s : State) (k : Nat) (f : Slot → Slot) : (s.modSlot k f).ppsEdge = s.ppsEdge := rfl
@[simp] theorem State.modSlot_sport (s : State) (k : Nat) (f : Slot → Slot) : (s.modSlot k f).sport = s.sport := rfl
@[simp] theorem State.modSlot_burl (s : State) (k : Nat) (f : Slot → Slot) : (s.modSlot k f).burl = s.burl := rfl
@[simp] theorem State.modSlot_io (s : State) (k : Nat) (f : Slot → Slot) : (s.modSlot k f).io = s.io := rfl
@[simp] theorem State.modSlot_host (s : State) (k : Nat) (f : Slot → Slot) : (s.modSlot k f).host = s.host := rfl
@[simp] theorem State.modSlot_quoins (s : State) (k : Nat) (f : Slot → Slot) : (s.modSlot k f).quoins = s.quoins := rfl
@[simp] theorem State.modSlot_alloc (s : State) (k : Nat) (f : Slot → Slot) : (s.modSlot k f).alloc = s.alloc := rfl
@[simp] theorem State.modSlot_log (s : State) (k : Nat) (f : Slot → Slot) : (s.modSlot k f).log = s.log := rfl
@[simp] theorem State.modSlot_fw (s : State) (k : Nat) (f : Slot → Slot) : (s.modSlot k f).fw = s.fw := rfl
@[simp] theorem State.modSlot_otp (s : State) (k : Nat) (f : Slot → Slot) : (s.modSlot k f).otp = s.otp := rfl
@[simp] theorem State.modSlot_ld (s : State) (k : Nat) (f : Slot → Slot) : (s.modSlot k f).ld = s.ld := rfl
@[simp] theorem State.modSlot_decRef (s : State) (k : Nat) (f : Slot → Slot) : (s.modSlot k f).decRef = s.decRef := rfl
@[simp] theorem State.modSlot_health (s : State) (k : Nat) (f : Slot → Slot) : (s.modSlot k f).health = s.health := rfl
@[simp] theorem State.modSlot_pwr (s : State) (k : Nat) (f : Slot → Slot) : (s.modSlot k f).pwr = s.pwr := rfl

/-! ## setCtx -/

@[simp] theorem State.setCtx_pending (s : State) (c : Nat) (x : Ctx) : (s.setCtx c x).pending = s.pending := rfl
@[simp] theorem State.setCtx_freeCtr (s : State) (c : Nat) (x : Ctx) : (s.setCtx c x).freeCtr = s.freeCtr := rfl
@[simp] theorem State.setCtx_resp (s : State) (c : Nat) (x : Ctx) : (s.setCtx c x).resp = s.resp := rfl
@[simp] theorem State.setCtx_base (s : State) (c : Nat) (x : Ctx) : (s.setCtx c x).base = s.base := rfl
@[simp] theorem State.setCtx_dev (s : State) (c : Nat) (x : Ctx) : (s.setCtx c x).dev = s.dev := rfl
@[simp] theorem State.setCtx_regs (s : State) (c : Nat) (x : Ctx) : (s.setCtx c x).regs = s.regs := rfl
@[simp] theorem State.setCtx_hbm (s : State) (c : Nat) (x : Ctx) : (s.setCtx c x).hbm = s.hbm := rfl
@[simp] theorem State.setCtx_commons (s : State) (c : Nat) (x : Ctx) : (s.setCtx c x).commons = s.commons := rfl
@[simp] theorem State.setCtx_msram (s : State) (c : Nat) (x : Ctx) : (s.setCtx c x).msram = s.msram := rfl
@[simp] theorem State.setCtx_flash (s : State) (c : Nat) (x : Ctx) : (s.setCtx c x).flash = s.flash := rfl
@[simp] theorem State.setCtx_tiles (s : State) (c : Nat) (x : Ctx) : (s.setCtx c x).tiles = s.tiles := rfl
@[simp] theorem State.setCtx_fab (s : State) (c : Nat) (x : Ctx) : (s.setCtx c x).fab = s.fab := rfl
@[simp] theorem State.setCtx_slots (s : State) (c : Nat) (x : Ctx) : (s.setCtx c x).slots = s.slots := rfl
@[simp] theorem State.setCtx_adm (s : State) (c : Nat) (x : Ctx) : (s.setCtx c x).adm = s.adm := rfl
@[simp] theorem State.setCtx_face (s : State) (c : Nat) (x : Ctx) : (s.setCtx c x).face = s.face := rfl
@[simp] theorem State.setCtx_prot (s : State) (c : Nat) (x : Ctx) : (s.setCtx c x).prot = s.prot := rfl
@[simp] theorem State.setCtx_scrub (s : State) (c : Nat) (x : Ctx) : (s.setCtx c x).scrub = s.scrub := rfl
@[simp] theorem State.setCtx_eng (s : State) (c : Nat) (x : Ctx) : (s.setCtx c x).eng = s.eng := rfl
@[simp] theorem State.setCtx_ing (s : State) (c : Nat) (x : Ctx) : (s.setCtx c x).ing = s.ing := rfl
@[simp] theorem State.setCtx_res (s : State) (c : Nat) (x : Ctx) : (s.setCtx c x).res = s.res := rfl
@[simp] theorem State.setCtx_net (s : State) (c : Nat) (x : Ctx) : (s.setCtx c x).net = s.net := rfl
@[simp] theorem State.setCtx_decQ (s : State) (c : Nat) (x : Ctx) : (s.setCtx c x).decQ = s.decQ := rfl
@[simp] theorem State.setCtx_ppsEdge (s : State) (c : Nat) (x : Ctx) : (s.setCtx c x).ppsEdge = s.ppsEdge := rfl
@[simp] theorem State.setCtx_sport (s : State) (c : Nat) (x : Ctx) : (s.setCtx c x).sport = s.sport := rfl
@[simp] theorem State.setCtx_burl (s : State) (c : Nat) (x : Ctx) : (s.setCtx c x).burl = s.burl := rfl
@[simp] theorem State.setCtx_io (s : State) (c : Nat) (x : Ctx) : (s.setCtx c x).io = s.io := rfl
@[simp] theorem State.setCtx_host (s : State) (c : Nat) (x : Ctx) : (s.setCtx c x).host = s.host := rfl
@[simp] theorem State.setCtx_quoins (s : State) (c : Nat) (x : Ctx) : (s.setCtx c x).quoins = s.quoins := rfl
@[simp] theorem State.setCtx_alloc (s : State) (c : Nat) (x : Ctx) : (s.setCtx c x).alloc = s.alloc := rfl
@[simp] theorem State.setCtx_log (s : State) (c : Nat) (x : Ctx) : (s.setCtx c x).log = s.log := rfl
@[simp] theorem State.setCtx_fw (s : State) (c : Nat) (x : Ctx) : (s.setCtx c x).fw = s.fw := rfl
@[simp] theorem State.setCtx_otp (s : State) (c : Nat) (x : Ctx) : (s.setCtx c x).otp = s.otp := rfl
@[simp] theorem State.setCtx_ld (s : State) (c : Nat) (x : Ctx) : (s.setCtx c x).ld = s.ld := rfl
@[simp] theorem State.setCtx_decRef (s : State) (c : Nat) (x : Ctx) : (s.setCtx c x).decRef = s.decRef := rfl
@[simp] theorem State.setCtx_health (s : State) (c : Nat) (x : Ctx) : (s.setCtx c x).health = s.health := rfl
@[simp] theorem State.setCtx_pwr (s : State) (c : Nat) (x : Ctx) : (s.setCtx c x).pwr = s.pwr := rfl

/-! ## modCtx -/

@[simp] theorem State.modCtx_pending (s : State) (c : Nat) (f : Ctx → Ctx) : (s.modCtx c f).pending = s.pending := rfl
@[simp] theorem State.modCtx_freeCtr (s : State) (c : Nat) (f : Ctx → Ctx) : (s.modCtx c f).freeCtr = s.freeCtr := rfl
@[simp] theorem State.modCtx_resp (s : State) (c : Nat) (f : Ctx → Ctx) : (s.modCtx c f).resp = s.resp := rfl
@[simp] theorem State.modCtx_base (s : State) (c : Nat) (f : Ctx → Ctx) : (s.modCtx c f).base = s.base := rfl
@[simp] theorem State.modCtx_dev (s : State) (c : Nat) (f : Ctx → Ctx) : (s.modCtx c f).dev = s.dev := rfl
@[simp] theorem State.modCtx_regs (s : State) (c : Nat) (f : Ctx → Ctx) : (s.modCtx c f).regs = s.regs := rfl
@[simp] theorem State.modCtx_hbm (s : State) (c : Nat) (f : Ctx → Ctx) : (s.modCtx c f).hbm = s.hbm := rfl
@[simp] theorem State.modCtx_commons (s : State) (c : Nat) (f : Ctx → Ctx) : (s.modCtx c f).commons = s.commons := rfl
@[simp] theorem State.modCtx_msram (s : State) (c : Nat) (f : Ctx → Ctx) : (s.modCtx c f).msram = s.msram := rfl
@[simp] theorem State.modCtx_flash (s : State) (c : Nat) (f : Ctx → Ctx) : (s.modCtx c f).flash = s.flash := rfl
@[simp] theorem State.modCtx_tiles (s : State) (c : Nat) (f : Ctx → Ctx) : (s.modCtx c f).tiles = s.tiles := rfl
@[simp] theorem State.modCtx_fab (s : State) (c : Nat) (f : Ctx → Ctx) : (s.modCtx c f).fab = s.fab := rfl
@[simp] theorem State.modCtx_slots (s : State) (c : Nat) (f : Ctx → Ctx) : (s.modCtx c f).slots = s.slots := rfl
@[simp] theorem State.modCtx_adm (s : State) (c : Nat) (f : Ctx → Ctx) : (s.modCtx c f).adm = s.adm := rfl
@[simp] theorem State.modCtx_face (s : State) (c : Nat) (f : Ctx → Ctx) : (s.modCtx c f).face = s.face := rfl
@[simp] theorem State.modCtx_prot (s : State) (c : Nat) (f : Ctx → Ctx) : (s.modCtx c f).prot = s.prot := rfl
@[simp] theorem State.modCtx_scrub (s : State) (c : Nat) (f : Ctx → Ctx) : (s.modCtx c f).scrub = s.scrub := rfl
@[simp] theorem State.modCtx_eng (s : State) (c : Nat) (f : Ctx → Ctx) : (s.modCtx c f).eng = s.eng := rfl
@[simp] theorem State.modCtx_ing (s : State) (c : Nat) (f : Ctx → Ctx) : (s.modCtx c f).ing = s.ing := rfl
@[simp] theorem State.modCtx_res (s : State) (c : Nat) (f : Ctx → Ctx) : (s.modCtx c f).res = s.res := rfl
@[simp] theorem State.modCtx_net (s : State) (c : Nat) (f : Ctx → Ctx) : (s.modCtx c f).net = s.net := rfl
@[simp] theorem State.modCtx_decQ (s : State) (c : Nat) (f : Ctx → Ctx) : (s.modCtx c f).decQ = s.decQ := rfl
@[simp] theorem State.modCtx_ppsEdge (s : State) (c : Nat) (f : Ctx → Ctx) : (s.modCtx c f).ppsEdge = s.ppsEdge := rfl
@[simp] theorem State.modCtx_sport (s : State) (c : Nat) (f : Ctx → Ctx) : (s.modCtx c f).sport = s.sport := rfl
@[simp] theorem State.modCtx_burl (s : State) (c : Nat) (f : Ctx → Ctx) : (s.modCtx c f).burl = s.burl := rfl
@[simp] theorem State.modCtx_io (s : State) (c : Nat) (f : Ctx → Ctx) : (s.modCtx c f).io = s.io := rfl
@[simp] theorem State.modCtx_host (s : State) (c : Nat) (f : Ctx → Ctx) : (s.modCtx c f).host = s.host := rfl
@[simp] theorem State.modCtx_quoins (s : State) (c : Nat) (f : Ctx → Ctx) : (s.modCtx c f).quoins = s.quoins := rfl
@[simp] theorem State.modCtx_alloc (s : State) (c : Nat) (f : Ctx → Ctx) : (s.modCtx c f).alloc = s.alloc := rfl
@[simp] theorem State.modCtx_log (s : State) (c : Nat) (f : Ctx → Ctx) : (s.modCtx c f).log = s.log := rfl
@[simp] theorem State.modCtx_fw (s : State) (c : Nat) (f : Ctx → Ctx) : (s.modCtx c f).fw = s.fw := rfl
@[simp] theorem State.modCtx_otp (s : State) (c : Nat) (f : Ctx → Ctx) : (s.modCtx c f).otp = s.otp := rfl
@[simp] theorem State.modCtx_ld (s : State) (c : Nat) (f : Ctx → Ctx) : (s.modCtx c f).ld = s.ld := rfl
@[simp] theorem State.modCtx_decRef (s : State) (c : Nat) (f : Ctx → Ctx) : (s.modCtx c f).decRef = s.decRef := rfl
@[simp] theorem State.modCtx_health (s : State) (c : Nat) (f : Ctx → Ctx) : (s.modCtx c f).health = s.health := rfl
@[simp] theorem State.modCtx_pwr (s : State) (c : Nat) (f : Ctx → Ctx) : (s.modCtx c f).pwr = s.pwr := rfl

/-! ## modEng -/

@[simp] theorem State.modEng_pending (s : State) (e : Nat) (f : Eng → Eng) : (s.modEng e f).pending = s.pending := rfl
@[simp] theorem State.modEng_freeCtr (s : State) (e : Nat) (f : Eng → Eng) : (s.modEng e f).freeCtr = s.freeCtr := rfl
@[simp] theorem State.modEng_resp (s : State) (e : Nat) (f : Eng → Eng) : (s.modEng e f).resp = s.resp := rfl
@[simp] theorem State.modEng_base (s : State) (e : Nat) (f : Eng → Eng) : (s.modEng e f).base = s.base := rfl
@[simp] theorem State.modEng_dev (s : State) (e : Nat) (f : Eng → Eng) : (s.modEng e f).dev = s.dev := rfl
@[simp] theorem State.modEng_regs (s : State) (e : Nat) (f : Eng → Eng) : (s.modEng e f).regs = s.regs := rfl
@[simp] theorem State.modEng_hbm (s : State) (e : Nat) (f : Eng → Eng) : (s.modEng e f).hbm = s.hbm := rfl
@[simp] theorem State.modEng_commons (s : State) (e : Nat) (f : Eng → Eng) : (s.modEng e f).commons = s.commons := rfl
@[simp] theorem State.modEng_msram (s : State) (e : Nat) (f : Eng → Eng) : (s.modEng e f).msram = s.msram := rfl
@[simp] theorem State.modEng_flash (s : State) (e : Nat) (f : Eng → Eng) : (s.modEng e f).flash = s.flash := rfl
@[simp] theorem State.modEng_tiles (s : State) (e : Nat) (f : Eng → Eng) : (s.modEng e f).tiles = s.tiles := rfl
@[simp] theorem State.modEng_fab (s : State) (e : Nat) (f : Eng → Eng) : (s.modEng e f).fab = s.fab := rfl
@[simp] theorem State.modEng_slots (s : State) (e : Nat) (f : Eng → Eng) : (s.modEng e f).slots = s.slots := rfl
@[simp] theorem State.modEng_adm (s : State) (e : Nat) (f : Eng → Eng) : (s.modEng e f).adm = s.adm := rfl
@[simp] theorem State.modEng_face (s : State) (e : Nat) (f : Eng → Eng) : (s.modEng e f).face = s.face := rfl
@[simp] theorem State.modEng_prot (s : State) (e : Nat) (f : Eng → Eng) : (s.modEng e f).prot = s.prot := rfl
@[simp] theorem State.modEng_scrub (s : State) (e : Nat) (f : Eng → Eng) : (s.modEng e f).scrub = s.scrub := rfl
@[simp] theorem State.modEng_ing (s : State) (e : Nat) (f : Eng → Eng) : (s.modEng e f).ing = s.ing := rfl
@[simp] theorem State.modEng_res (s : State) (e : Nat) (f : Eng → Eng) : (s.modEng e f).res = s.res := rfl
@[simp] theorem State.modEng_ctxs (s : State) (e : Nat) (f : Eng → Eng) : (s.modEng e f).ctxs = s.ctxs := rfl
@[simp] theorem State.modEng_net (s : State) (e : Nat) (f : Eng → Eng) : (s.modEng e f).net = s.net := rfl
@[simp] theorem State.modEng_decQ (s : State) (e : Nat) (f : Eng → Eng) : (s.modEng e f).decQ = s.decQ := rfl
@[simp] theorem State.modEng_ppsEdge (s : State) (e : Nat) (f : Eng → Eng) : (s.modEng e f).ppsEdge = s.ppsEdge := rfl
@[simp] theorem State.modEng_sport (s : State) (e : Nat) (f : Eng → Eng) : (s.modEng e f).sport = s.sport := rfl
@[simp] theorem State.modEng_burl (s : State) (e : Nat) (f : Eng → Eng) : (s.modEng e f).burl = s.burl := rfl
@[simp] theorem State.modEng_io (s : State) (e : Nat) (f : Eng → Eng) : (s.modEng e f).io = s.io := rfl
@[simp] theorem State.modEng_host (s : State) (e : Nat) (f : Eng → Eng) : (s.modEng e f).host = s.host := rfl
@[simp] theorem State.modEng_quoins (s : State) (e : Nat) (f : Eng → Eng) : (s.modEng e f).quoins = s.quoins := rfl
@[simp] theorem State.modEng_alloc (s : State) (e : Nat) (f : Eng → Eng) : (s.modEng e f).alloc = s.alloc := rfl
@[simp] theorem State.modEng_log (s : State) (e : Nat) (f : Eng → Eng) : (s.modEng e f).log = s.log := rfl
@[simp] theorem State.modEng_fw (s : State) (e : Nat) (f : Eng → Eng) : (s.modEng e f).fw = s.fw := rfl
@[simp] theorem State.modEng_otp (s : State) (e : Nat) (f : Eng → Eng) : (s.modEng e f).otp = s.otp := rfl
@[simp] theorem State.modEng_ld (s : State) (e : Nat) (f : Eng → Eng) : (s.modEng e f).ld = s.ld := rfl
@[simp] theorem State.modEng_decRef (s : State) (e : Nat) (f : Eng → Eng) : (s.modEng e f).decRef = s.decRef := rfl
@[simp] theorem State.modEng_health (s : State) (e : Nat) (f : Eng → Eng) : (s.modEng e f).health = s.health := rfl
@[simp] theorem State.modEng_pwr (s : State) (e : Nat) (f : Eng → Eng) : (s.modEng e f).pwr = s.pwr := rfl

/-! ## modNet -/

@[simp] theorem State.modNet_pending (s : State) (p : Nat) (f : NetPort → NetPort) : (s.modNet p f).pending = s.pending := rfl
@[simp] theorem State.modNet_freeCtr (s : State) (p : Nat) (f : NetPort → NetPort) : (s.modNet p f).freeCtr = s.freeCtr := rfl
@[simp] theorem State.modNet_resp (s : State) (p : Nat) (f : NetPort → NetPort) : (s.modNet p f).resp = s.resp := rfl
@[simp] theorem State.modNet_base (s : State) (p : Nat) (f : NetPort → NetPort) : (s.modNet p f).base = s.base := rfl
@[simp] theorem State.modNet_dev (s : State) (p : Nat) (f : NetPort → NetPort) : (s.modNet p f).dev = s.dev := rfl
@[simp] theorem State.modNet_regs (s : State) (p : Nat) (f : NetPort → NetPort) : (s.modNet p f).regs = s.regs := rfl
@[simp] theorem State.modNet_hbm (s : State) (p : Nat) (f : NetPort → NetPort) : (s.modNet p f).hbm = s.hbm := rfl
@[simp] theorem State.modNet_commons (s : State) (p : Nat) (f : NetPort → NetPort) : (s.modNet p f).commons = s.commons := rfl
@[simp] theorem State.modNet_msram (s : State) (p : Nat) (f : NetPort → NetPort) : (s.modNet p f).msram = s.msram := rfl
@[simp] theorem State.modNet_flash (s : State) (p : Nat) (f : NetPort → NetPort) : (s.modNet p f).flash = s.flash := rfl
@[simp] theorem State.modNet_tiles (s : State) (p : Nat) (f : NetPort → NetPort) : (s.modNet p f).tiles = s.tiles := rfl
@[simp] theorem State.modNet_fab (s : State) (p : Nat) (f : NetPort → NetPort) : (s.modNet p f).fab = s.fab := rfl
@[simp] theorem State.modNet_slots (s : State) (p : Nat) (f : NetPort → NetPort) : (s.modNet p f).slots = s.slots := rfl
@[simp] theorem State.modNet_adm (s : State) (p : Nat) (f : NetPort → NetPort) : (s.modNet p f).adm = s.adm := rfl
@[simp] theorem State.modNet_face (s : State) (p : Nat) (f : NetPort → NetPort) : (s.modNet p f).face = s.face := rfl
@[simp] theorem State.modNet_prot (s : State) (p : Nat) (f : NetPort → NetPort) : (s.modNet p f).prot = s.prot := rfl
@[simp] theorem State.modNet_scrub (s : State) (p : Nat) (f : NetPort → NetPort) : (s.modNet p f).scrub = s.scrub := rfl
@[simp] theorem State.modNet_eng (s : State) (p : Nat) (f : NetPort → NetPort) : (s.modNet p f).eng = s.eng := rfl
@[simp] theorem State.modNet_ing (s : State) (p : Nat) (f : NetPort → NetPort) : (s.modNet p f).ing = s.ing := rfl
@[simp] theorem State.modNet_res (s : State) (p : Nat) (f : NetPort → NetPort) : (s.modNet p f).res = s.res := rfl
@[simp] theorem State.modNet_ctxs (s : State) (p : Nat) (f : NetPort → NetPort) : (s.modNet p f).ctxs = s.ctxs := rfl
@[simp] theorem State.modNet_decQ (s : State) (p : Nat) (f : NetPort → NetPort) : (s.modNet p f).decQ = s.decQ := rfl
@[simp] theorem State.modNet_ppsEdge (s : State) (p : Nat) (f : NetPort → NetPort) : (s.modNet p f).ppsEdge = s.ppsEdge := rfl
@[simp] theorem State.modNet_sport (s : State) (p : Nat) (f : NetPort → NetPort) : (s.modNet p f).sport = s.sport := rfl
@[simp] theorem State.modNet_burl (s : State) (p : Nat) (f : NetPort → NetPort) : (s.modNet p f).burl = s.burl := rfl
@[simp] theorem State.modNet_io (s : State) (p : Nat) (f : NetPort → NetPort) : (s.modNet p f).io = s.io := rfl
@[simp] theorem State.modNet_host (s : State) (p : Nat) (f : NetPort → NetPort) : (s.modNet p f).host = s.host := rfl
@[simp] theorem State.modNet_quoins (s : State) (p : Nat) (f : NetPort → NetPort) : (s.modNet p f).quoins = s.quoins := rfl
@[simp] theorem State.modNet_alloc (s : State) (p : Nat) (f : NetPort → NetPort) : (s.modNet p f).alloc = s.alloc := rfl
@[simp] theorem State.modNet_log (s : State) (p : Nat) (f : NetPort → NetPort) : (s.modNet p f).log = s.log := rfl
@[simp] theorem State.modNet_fw (s : State) (p : Nat) (f : NetPort → NetPort) : (s.modNet p f).fw = s.fw := rfl
@[simp] theorem State.modNet_otp (s : State) (p : Nat) (f : NetPort → NetPort) : (s.modNet p f).otp = s.otp := rfl
@[simp] theorem State.modNet_ld (s : State) (p : Nat) (f : NetPort → NetPort) : (s.modNet p f).ld = s.ld := rfl
@[simp] theorem State.modNet_decRef (s : State) (p : Nat) (f : NetPort → NetPort) : (s.modNet p f).decRef = s.decRef := rfl
@[simp] theorem State.modNet_health (s : State) (p : Nat) (f : NetPort → NetPort) : (s.modNet p f).health = s.health := rfl
@[simp] theorem State.modNet_pwr (s : State) (p : Nat) (f : NetPort → NetPort) : (s.modNet p f).pwr = s.pwr := rfl

/-! ## emit -/

@[simp] theorem State.emit_pending (s : State) (o : Out) : (s.emit o).pending = s.pending := rfl
@[simp] theorem State.emit_freeCtr (s : State) (o : Out) : (s.emit o).freeCtr = s.freeCtr := rfl
@[simp] theorem State.emit_resp (s : State) (o : Out) : (s.emit o).resp = s.resp := rfl
@[simp] theorem State.emit_base (s : State) (o : Out) : (s.emit o).base = s.base := rfl
@[simp] theorem State.emit_dev (s : State) (o : Out) : (s.emit o).dev = s.dev := rfl
@[simp] theorem State.emit_regs (s : State) (o : Out) : (s.emit o).regs = s.regs := rfl
@[simp] theorem State.emit_hbm (s : State) (o : Out) : (s.emit o).hbm = s.hbm := rfl
@[simp] theorem State.emit_commons (s : State) (o : Out) : (s.emit o).commons = s.commons := rfl
@[simp] theorem State.emit_msram (s : State) (o : Out) : (s.emit o).msram = s.msram := rfl
@[simp] theorem State.emit_flash (s : State) (o : Out) : (s.emit o).flash = s.flash := rfl
@[simp] theorem State.emit_tiles (s : State) (o : Out) : (s.emit o).tiles = s.tiles := rfl
@[simp] theorem State.emit_fab (s : State) (o : Out) : (s.emit o).fab = s.fab := rfl
@[simp] theorem State.emit_slots (s : State) (o : Out) : (s.emit o).slots = s.slots := rfl
@[simp] theorem State.emit_adm (s : State) (o : Out) : (s.emit o).adm = s.adm := rfl
@[simp] theorem State.emit_face (s : State) (o : Out) : (s.emit o).face = s.face := rfl
@[simp] theorem State.emit_prot (s : State) (o : Out) : (s.emit o).prot = s.prot := rfl
@[simp] theorem State.emit_scrub (s : State) (o : Out) : (s.emit o).scrub = s.scrub := rfl
@[simp] theorem State.emit_eng (s : State) (o : Out) : (s.emit o).eng = s.eng := rfl
@[simp] theorem State.emit_ing (s : State) (o : Out) : (s.emit o).ing = s.ing := rfl
@[simp] theorem State.emit_res (s : State) (o : Out) : (s.emit o).res = s.res := rfl
@[simp] theorem State.emit_ctxs (s : State) (o : Out) : (s.emit o).ctxs = s.ctxs := rfl
@[simp] theorem State.emit_net (s : State) (o : Out) : (s.emit o).net = s.net := rfl
@[simp] theorem State.emit_decQ (s : State) (o : Out) : (s.emit o).decQ = s.decQ := rfl
@[simp] theorem State.emit_ppsEdge (s : State) (o : Out) : (s.emit o).ppsEdge = s.ppsEdge := rfl
@[simp] theorem State.emit_sport (s : State) (o : Out) : (s.emit o).sport = s.sport := rfl
@[simp] theorem State.emit_burl (s : State) (o : Out) : (s.emit o).burl = s.burl := rfl
@[simp] theorem State.emit_io (s : State) (o : Out) : (s.emit o).io = s.io := rfl
@[simp] theorem State.emit_quoins (s : State) (o : Out) : (s.emit o).quoins = s.quoins := rfl
@[simp] theorem State.emit_alloc (s : State) (o : Out) : (s.emit o).alloc = s.alloc := rfl
@[simp] theorem State.emit_log (s : State) (o : Out) : (s.emit o).log = s.log := rfl
@[simp] theorem State.emit_fw (s : State) (o : Out) : (s.emit o).fw = s.fw := rfl
@[simp] theorem State.emit_otp (s : State) (o : Out) : (s.emit o).otp = s.otp := rfl
@[simp] theorem State.emit_ld (s : State) (o : Out) : (s.emit o).ld = s.ld := rfl
@[simp] theorem State.emit_decRef (s : State) (o : Out) : (s.emit o).decRef = s.decRef := rfl
@[simp] theorem State.emit_health (s : State) (o : Out) : (s.emit o).health = s.health := rfl
@[simp] theorem State.emit_pwr (s : State) (o : Out) : (s.emit o).pwr = s.pwr := rfl

/-! ## answer -/

@[simp] theorem State.answer_pending (s : State) (r : Resp) : (s.answer r).pending = s.pending := rfl
@[simp] theorem State.answer_freeCtr (s : State) (r : Resp) : (s.answer r).freeCtr = s.freeCtr := rfl
@[simp] theorem State.answer_base (s : State) (r : Resp) : (s.answer r).base = s.base := rfl
@[simp] theorem State.answer_dev (s : State) (r : Resp) : (s.answer r).dev = s.dev := rfl
@[simp] theorem State.answer_regs (s : State) (r : Resp) : (s.answer r).regs = s.regs := rfl
@[simp] theorem State.answer_hbm (s : State) (r : Resp) : (s.answer r).hbm = s.hbm := rfl
@[simp] theorem State.answer_commons (s : State) (r : Resp) : (s.answer r).commons = s.commons := rfl
@[simp] theorem State.answer_msram (s : State) (r : Resp) : (s.answer r).msram = s.msram := rfl
@[simp] theorem State.answer_flash (s : State) (r : Resp) : (s.answer r).flash = s.flash := rfl
@[simp] theorem State.answer_tiles (s : State) (r : Resp) : (s.answer r).tiles = s.tiles := rfl
@[simp] theorem State.answer_fab (s : State) (r : Resp) : (s.answer r).fab = s.fab := rfl
@[simp] theorem State.answer_slots (s : State) (r : Resp) : (s.answer r).slots = s.slots := rfl
@[simp] theorem State.answer_adm (s : State) (r : Resp) : (s.answer r).adm = s.adm := rfl
@[simp] theorem State.answer_face (s : State) (r : Resp) : (s.answer r).face = s.face := rfl
@[simp] theorem State.answer_prot (s : State) (r : Resp) : (s.answer r).prot = s.prot := rfl
@[simp] theorem State.answer_scrub (s : State) (r : Resp) : (s.answer r).scrub = s.scrub := rfl
@[simp] theorem State.answer_eng (s : State) (r : Resp) : (s.answer r).eng = s.eng := rfl
@[simp] theorem State.answer_ing (s : State) (r : Resp) : (s.answer r).ing = s.ing := rfl
@[simp] theorem State.answer_res (s : State) (r : Resp) : (s.answer r).res = s.res := rfl
@[simp] theorem State.answer_ctxs (s : State) (r : Resp) : (s.answer r).ctxs = s.ctxs := rfl
@[simp] theorem State.answer_net (s : State) (r : Resp) : (s.answer r).net = s.net := rfl
@[simp] theorem State.answer_decQ (s : State) (r : Resp) : (s.answer r).decQ = s.decQ := rfl
@[simp] theorem State.answer_ppsEdge (s : State) (r : Resp) : (s.answer r).ppsEdge = s.ppsEdge := rfl
@[simp] theorem State.answer_sport (s : State) (r : Resp) : (s.answer r).sport = s.sport := rfl
@[simp] theorem State.answer_burl (s : State) (r : Resp) : (s.answer r).burl = s.burl := rfl
@[simp] theorem State.answer_io (s : State) (r : Resp) : (s.answer r).io = s.io := rfl
@[simp] theorem State.answer_host (s : State) (r : Resp) : (s.answer r).host = s.host := rfl
@[simp] theorem State.answer_quoins (s : State) (r : Resp) : (s.answer r).quoins = s.quoins := rfl
@[simp] theorem State.answer_alloc (s : State) (r : Resp) : (s.answer r).alloc = s.alloc := rfl
@[simp] theorem State.answer_log (s : State) (r : Resp) : (s.answer r).log = s.log := rfl
@[simp] theorem State.answer_fw (s : State) (r : Resp) : (s.answer r).fw = s.fw := rfl
@[simp] theorem State.answer_otp (s : State) (r : Resp) : (s.answer r).otp = s.otp := rfl
@[simp] theorem State.answer_ld (s : State) (r : Resp) : (s.answer r).ld = s.ld := rfl
@[simp] theorem State.answer_decRef (s : State) (r : Resp) : (s.answer r).decRef = s.decRef := rfl
@[simp] theorem State.answer_health (s : State) (r : Resp) : (s.answer r).health = s.health := rfl
@[simp] theorem State.answer_pwr (s : State) (r : Resp) : (s.answer r).pwr = s.pwr := rfl

/-! ## raise -/

@[simp] theorem State.raise_pending (s : State) (code src a b d : Nat) : (s.raise code src a b d).pending = s.pending := rfl
@[simp] theorem State.raise_freeCtr (s : State) (code src a b d : Nat) : (s.raise code src a b d).freeCtr = s.freeCtr := rfl
@[simp] theorem State.raise_resp (s : State) (code src a b d : Nat) : (s.raise code src a b d).resp = s.resp := rfl
@[simp] theorem State.raise_base (s : State) (code src a b d : Nat) : (s.raise code src a b d).base = s.base := rfl
@[simp] theorem State.raise_dev (s : State) (code src a b d : Nat) : (s.raise code src a b d).dev = s.dev := rfl
@[simp] theorem State.raise_regs (s : State) (code src a b d : Nat) : (s.raise code src a b d).regs = s.regs := rfl
@[simp] theorem State.raise_hbm (s : State) (code src a b d : Nat) : (s.raise code src a b d).hbm = s.hbm := rfl
@[simp] theorem State.raise_commons (s : State) (code src a b d : Nat) : (s.raise code src a b d).commons = s.commons := rfl
@[simp] theorem State.raise_msram (s : State) (code src a b d : Nat) : (s.raise code src a b d).msram = s.msram := rfl
@[simp] theorem State.raise_flash (s : State) (code src a b d : Nat) : (s.raise code src a b d).flash = s.flash := rfl
@[simp] theorem State.raise_tiles (s : State) (code src a b d : Nat) : (s.raise code src a b d).tiles = s.tiles := rfl
@[simp] theorem State.raise_fab (s : State) (code src a b d : Nat) : (s.raise code src a b d).fab = s.fab := rfl
@[simp] theorem State.raise_slots (s : State) (code src a b d : Nat) : (s.raise code src a b d).slots = s.slots := rfl
@[simp] theorem State.raise_adm (s : State) (code src a b d : Nat) : (s.raise code src a b d).adm = s.adm := rfl
@[simp] theorem State.raise_face (s : State) (code src a b d : Nat) : (s.raise code src a b d).face = s.face := rfl
@[simp] theorem State.raise_prot (s : State) (code src a b d : Nat) : (s.raise code src a b d).prot = s.prot := rfl
@[simp] theorem State.raise_scrub (s : State) (code src a b d : Nat) : (s.raise code src a b d).scrub = s.scrub := rfl
@[simp] theorem State.raise_eng (s : State) (code src a b d : Nat) : (s.raise code src a b d).eng = s.eng := rfl
@[simp] theorem State.raise_ing (s : State) (code src a b d : Nat) : (s.raise code src a b d).ing = s.ing := rfl
@[simp] theorem State.raise_res (s : State) (code src a b d : Nat) : (s.raise code src a b d).res = s.res := rfl
@[simp] theorem State.raise_ctxs (s : State) (code src a b d : Nat) : (s.raise code src a b d).ctxs = s.ctxs := rfl
@[simp] theorem State.raise_net (s : State) (code src a b d : Nat) : (s.raise code src a b d).net = s.net := rfl
@[simp] theorem State.raise_decQ (s : State) (code src a b d : Nat) : (s.raise code src a b d).decQ = s.decQ := rfl
@[simp] theorem State.raise_ppsEdge (s : State) (code src a b d : Nat) : (s.raise code src a b d).ppsEdge = s.ppsEdge := rfl
@[simp] theorem State.raise_sport (s : State) (code src a b d : Nat) : (s.raise code src a b d).sport = s.sport := rfl
@[simp] theorem State.raise_burl (s : State) (code src a b d : Nat) : (s.raise code src a b d).burl = s.burl := rfl
@[simp] theorem State.raise_io (s : State) (code src a b d : Nat) : (s.raise code src a b d).io = s.io := rfl
@[simp] theorem State.raise_quoins (s : State) (code src a b d : Nat) : (s.raise code src a b d).quoins = s.quoins := rfl
@[simp] theorem State.raise_alloc (s : State) (code src a b d : Nat) : (s.raise code src a b d).alloc = s.alloc := rfl
@[simp] theorem State.raise_fw (s : State) (code src a b d : Nat) : (s.raise code src a b d).fw = s.fw := rfl
@[simp] theorem State.raise_otp (s : State) (code src a b d : Nat) : (s.raise code src a b d).otp = s.otp := rfl
@[simp] theorem State.raise_ld (s : State) (code src a b d : Nat) : (s.raise code src a b d).ld = s.ld := rfl
@[simp] theorem State.raise_decRef (s : State) (code src a b d : Nat) : (s.raise code src a b d).decRef = s.decRef := rfl
@[simp] theorem State.raise_health (s : State) (code src a b d : Nat) : (s.raise code src a b d).health = s.health := rfl
@[simp] theorem State.raise_pwr (s : State) (code src a b d : Nat) : (s.raise code src a b d).pwr = s.pwr := rfl

/-! ## setCount -/

@[simp] theorem State.setCount_pending (s : State) (i v : Nat) : (s.setCount i v).pending = s.pending := rfl
@[simp] theorem State.setCount_freeCtr (s : State) (i v : Nat) : (s.setCount i v).freeCtr = s.freeCtr := rfl
@[simp] theorem State.setCount_resp (s : State) (i v : Nat) : (s.setCount i v).resp = s.resp := rfl
@[simp] theorem State.setCount_base (s : State) (i v : Nat) : (s.setCount i v).base = s.base := rfl
@[simp] theorem State.setCount_dev (s : State) (i v : Nat) : (s.setCount i v).dev = s.dev := rfl
@[simp] theorem State.setCount_regs (s : State) (i v : Nat) : (s.setCount i v).regs = s.regs := rfl
@[simp] theorem State.setCount_hbm (s : State) (i v : Nat) : (s.setCount i v).hbm = s.hbm := rfl
@[simp] theorem State.setCount_commons (s : State) (i v : Nat) : (s.setCount i v).commons = s.commons := rfl
@[simp] theorem State.setCount_msram (s : State) (i v : Nat) : (s.setCount i v).msram = s.msram := rfl
@[simp] theorem State.setCount_flash (s : State) (i v : Nat) : (s.setCount i v).flash = s.flash := rfl
@[simp] theorem State.setCount_tiles (s : State) (i v : Nat) : (s.setCount i v).tiles = s.tiles := rfl
@[simp] theorem State.setCount_fab (s : State) (i v : Nat) : (s.setCount i v).fab = s.fab := rfl
@[simp] theorem State.setCount_slots (s : State) (i v : Nat) : (s.setCount i v).slots = s.slots := rfl
@[simp] theorem State.setCount_adm (s : State) (i v : Nat) : (s.setCount i v).adm = s.adm := rfl
@[simp] theorem State.setCount_face (s : State) (i v : Nat) : (s.setCount i v).face = s.face := rfl
@[simp] theorem State.setCount_prot (s : State) (i v : Nat) : (s.setCount i v).prot = s.prot := rfl
@[simp] theorem State.setCount_scrub (s : State) (i v : Nat) : (s.setCount i v).scrub = s.scrub := rfl
@[simp] theorem State.setCount_eng (s : State) (i v : Nat) : (s.setCount i v).eng = s.eng := rfl
@[simp] theorem State.setCount_ing (s : State) (i v : Nat) : (s.setCount i v).ing = s.ing := rfl
@[simp] theorem State.setCount_res (s : State) (i v : Nat) : (s.setCount i v).res = s.res := rfl
@[simp] theorem State.setCount_ctxs (s : State) (i v : Nat) : (s.setCount i v).ctxs = s.ctxs := rfl
@[simp] theorem State.setCount_net (s : State) (i v : Nat) : (s.setCount i v).net = s.net := rfl
@[simp] theorem State.setCount_decQ (s : State) (i v : Nat) : (s.setCount i v).decQ = s.decQ := rfl
@[simp] theorem State.setCount_ppsEdge (s : State) (i v : Nat) : (s.setCount i v).ppsEdge = s.ppsEdge := rfl
@[simp] theorem State.setCount_sport (s : State) (i v : Nat) : (s.setCount i v).sport = s.sport := rfl
@[simp] theorem State.setCount_burl (s : State) (i v : Nat) : (s.setCount i v).burl = s.burl := rfl
@[simp] theorem State.setCount_io (s : State) (i v : Nat) : (s.setCount i v).io = s.io := rfl
@[simp] theorem State.setCount_host (s : State) (i v : Nat) : (s.setCount i v).host = s.host := rfl
@[simp] theorem State.setCount_alloc (s : State) (i v : Nat) : (s.setCount i v).alloc = s.alloc := rfl
@[simp] theorem State.setCount_log (s : State) (i v : Nat) : (s.setCount i v).log = s.log := rfl
@[simp] theorem State.setCount_fw (s : State) (i v : Nat) : (s.setCount i v).fw = s.fw := rfl
@[simp] theorem State.setCount_otp (s : State) (i v : Nat) : (s.setCount i v).otp = s.otp := rfl
@[simp] theorem State.setCount_ld (s : State) (i v : Nat) : (s.setCount i v).ld = s.ld := rfl
@[simp] theorem State.setCount_decRef (s : State) (i v : Nat) : (s.setCount i v).decRef = s.decRef := rfl
@[simp] theorem State.setCount_health (s : State) (i v : Nat) : (s.setCount i v).health = s.health := rfl
@[simp] theorem State.setCount_pwr (s : State) (i v : Nat) : (s.setCount i v).pwr = s.pwr := rfl

/-! ## dropWaits -/

@[simp] theorem State.dropWaits_pending (s : State) (w : Waiter) : (s.dropWaits w).pending = s.pending := rfl
@[simp] theorem State.dropWaits_freeCtr (s : State) (w : Waiter) : (s.dropWaits w).freeCtr = s.freeCtr := rfl
@[simp] theorem State.dropWaits_resp (s : State) (w : Waiter) : (s.dropWaits w).resp = s.resp := rfl
@[simp] theorem State.dropWaits_base (s : State) (w : Waiter) : (s.dropWaits w).base = s.base := rfl
@[simp] theorem State.dropWaits_dev (s : State) (w : Waiter) : (s.dropWaits w).dev = s.dev := rfl
@[simp] theorem State.dropWaits_regs (s : State) (w : Waiter) : (s.dropWaits w).regs = s.regs := rfl
@[simp] theorem State.dropWaits_hbm (s : State) (w : Waiter) : (s.dropWaits w).hbm = s.hbm := rfl
@[simp] theorem State.dropWaits_commons (s : State) (w : Waiter) : (s.dropWaits w).commons = s.commons := rfl
@[simp] theorem State.dropWaits_msram (s : State) (w : Waiter) : (s.dropWaits w).msram = s.msram := rfl
@[simp] theorem State.dropWaits_flash (s : State) (w : Waiter) : (s.dropWaits w).flash = s.flash := rfl
@[simp] theorem State.dropWaits_tiles (s : State) (w : Waiter) : (s.dropWaits w).tiles = s.tiles := rfl
@[simp] theorem State.dropWaits_fab (s : State) (w : Waiter) : (s.dropWaits w).fab = s.fab := rfl
@[simp] theorem State.dropWaits_slots (s : State) (w : Waiter) : (s.dropWaits w).slots = s.slots := rfl
@[simp] theorem State.dropWaits_adm (s : State) (w : Waiter) : (s.dropWaits w).adm = s.adm := rfl
@[simp] theorem State.dropWaits_face (s : State) (w : Waiter) : (s.dropWaits w).face = s.face := rfl
@[simp] theorem State.dropWaits_prot (s : State) (w : Waiter) : (s.dropWaits w).prot = s.prot := rfl
@[simp] theorem State.dropWaits_scrub (s : State) (w : Waiter) : (s.dropWaits w).scrub = s.scrub := rfl
@[simp] theorem State.dropWaits_eng (s : State) (w : Waiter) : (s.dropWaits w).eng = s.eng := rfl
@[simp] theorem State.dropWaits_ing (s : State) (w : Waiter) : (s.dropWaits w).ing = s.ing := rfl
@[simp] theorem State.dropWaits_res (s : State) (w : Waiter) : (s.dropWaits w).res = s.res := rfl
@[simp] theorem State.dropWaits_ctxs (s : State) (w : Waiter) : (s.dropWaits w).ctxs = s.ctxs := rfl
@[simp] theorem State.dropWaits_net (s : State) (w : Waiter) : (s.dropWaits w).net = s.net := rfl
@[simp] theorem State.dropWaits_decQ (s : State) (w : Waiter) : (s.dropWaits w).decQ = s.decQ := rfl
@[simp] theorem State.dropWaits_ppsEdge (s : State) (w : Waiter) : (s.dropWaits w).ppsEdge = s.ppsEdge := rfl
@[simp] theorem State.dropWaits_sport (s : State) (w : Waiter) : (s.dropWaits w).sport = s.sport := rfl
@[simp] theorem State.dropWaits_burl (s : State) (w : Waiter) : (s.dropWaits w).burl = s.burl := rfl
@[simp] theorem State.dropWaits_io (s : State) (w : Waiter) : (s.dropWaits w).io = s.io := rfl
@[simp] theorem State.dropWaits_host (s : State) (w : Waiter) : (s.dropWaits w).host = s.host := rfl
@[simp] theorem State.dropWaits_alloc (s : State) (w : Waiter) : (s.dropWaits w).alloc = s.alloc := rfl
@[simp] theorem State.dropWaits_log (s : State) (w : Waiter) : (s.dropWaits w).log = s.log := rfl
@[simp] theorem State.dropWaits_fw (s : State) (w : Waiter) : (s.dropWaits w).fw = s.fw := rfl
@[simp] theorem State.dropWaits_otp (s : State) (w : Waiter) : (s.dropWaits w).otp = s.otp := rfl
@[simp] theorem State.dropWaits_ld (s : State) (w : Waiter) : (s.dropWaits w).ld = s.ld := rfl
@[simp] theorem State.dropWaits_decRef (s : State) (w : Waiter) : (s.dropWaits w).decRef = s.decRef := rfl
@[simp] theorem State.dropWaits_health (s : State) (w : Waiter) : (s.dropWaits w).health = s.health := rfl
@[simp] theorem State.dropWaits_pwr (s : State) (w : Waiter) : (s.dropWaits w).pwr = s.pwr := rfl

/-! ## modRoute -/

@[simp] theorem State.modRoute_pending (s : State) (r : Nat) (f : Route → Route) : (s.modRoute r f).pending = s.pending := rfl
@[simp] theorem State.modRoute_freeCtr (s : State) (r : Nat) (f : Route → Route) : (s.modRoute r f).freeCtr = s.freeCtr := rfl
@[simp] theorem State.modRoute_resp (s : State) (r : Nat) (f : Route → Route) : (s.modRoute r f).resp = s.resp := rfl
@[simp] theorem State.modRoute_base (s : State) (r : Nat) (f : Route → Route) : (s.modRoute r f).base = s.base := rfl
@[simp] theorem State.modRoute_dev (s : State) (r : Nat) (f : Route → Route) : (s.modRoute r f).dev = s.dev := rfl
@[simp] theorem State.modRoute_regs (s : State) (r : Nat) (f : Route → Route) : (s.modRoute r f).regs = s.regs := rfl
@[simp] theorem State.modRoute_hbm (s : State) (r : Nat) (f : Route → Route) : (s.modRoute r f).hbm = s.hbm := rfl
@[simp] theorem State.modRoute_commons (s : State) (r : Nat) (f : Route → Route) : (s.modRoute r f).commons = s.commons := rfl
@[simp] theorem State.modRoute_msram (s : State) (r : Nat) (f : Route → Route) : (s.modRoute r f).msram = s.msram := rfl
@[simp] theorem State.modRoute_flash (s : State) (r : Nat) (f : Route → Route) : (s.modRoute r f).flash = s.flash := rfl
@[simp] theorem State.modRoute_tiles (s : State) (r : Nat) (f : Route → Route) : (s.modRoute r f).tiles = s.tiles := rfl
@[simp] theorem State.modRoute_slots (s : State) (r : Nat) (f : Route → Route) : (s.modRoute r f).slots = s.slots := rfl
@[simp] theorem State.modRoute_adm (s : State) (r : Nat) (f : Route → Route) : (s.modRoute r f).adm = s.adm := rfl
@[simp] theorem State.modRoute_face (s : State) (r : Nat) (f : Route → Route) : (s.modRoute r f).face = s.face := rfl
@[simp] theorem State.modRoute_prot (s : State) (r : Nat) (f : Route → Route) : (s.modRoute r f).prot = s.prot := rfl
@[simp] theorem State.modRoute_scrub (s : State) (r : Nat) (f : Route → Route) : (s.modRoute r f).scrub = s.scrub := rfl
@[simp] theorem State.modRoute_eng (s : State) (r : Nat) (f : Route → Route) : (s.modRoute r f).eng = s.eng := rfl
@[simp] theorem State.modRoute_ing (s : State) (r : Nat) (f : Route → Route) : (s.modRoute r f).ing = s.ing := rfl
@[simp] theorem State.modRoute_res (s : State) (r : Nat) (f : Route → Route) : (s.modRoute r f).res = s.res := rfl
@[simp] theorem State.modRoute_ctxs (s : State) (r : Nat) (f : Route → Route) : (s.modRoute r f).ctxs = s.ctxs := rfl
@[simp] theorem State.modRoute_net (s : State) (r : Nat) (f : Route → Route) : (s.modRoute r f).net = s.net := rfl
@[simp] theorem State.modRoute_decQ (s : State) (r : Nat) (f : Route → Route) : (s.modRoute r f).decQ = s.decQ := rfl
@[simp] theorem State.modRoute_ppsEdge (s : State) (r : Nat) (f : Route → Route) : (s.modRoute r f).ppsEdge = s.ppsEdge := rfl
@[simp] theorem State.modRoute_sport (s : State) (r : Nat) (f : Route → Route) : (s.modRoute r f).sport = s.sport := rfl
@[simp] theorem State.modRoute_burl (s : State) (r : Nat) (f : Route → Route) : (s.modRoute r f).burl = s.burl := rfl
@[simp] theorem State.modRoute_io (s : State) (r : Nat) (f : Route → Route) : (s.modRoute r f).io = s.io := rfl
@[simp] theorem State.modRoute_host (s : State) (r : Nat) (f : Route → Route) : (s.modRoute r f).host = s.host := rfl
@[simp] theorem State.modRoute_quoins (s : State) (r : Nat) (f : Route → Route) : (s.modRoute r f).quoins = s.quoins := rfl
@[simp] theorem State.modRoute_alloc (s : State) (r : Nat) (f : Route → Route) : (s.modRoute r f).alloc = s.alloc := rfl
@[simp] theorem State.modRoute_log (s : State) (r : Nat) (f : Route → Route) : (s.modRoute r f).log = s.log := rfl
@[simp] theorem State.modRoute_fw (s : State) (r : Nat) (f : Route → Route) : (s.modRoute r f).fw = s.fw := rfl
@[simp] theorem State.modRoute_otp (s : State) (r : Nat) (f : Route → Route) : (s.modRoute r f).otp = s.otp := rfl
@[simp] theorem State.modRoute_ld (s : State) (r : Nat) (f : Route → Route) : (s.modRoute r f).ld = s.ld := rfl
@[simp] theorem State.modRoute_decRef (s : State) (r : Nat) (f : Route → Route) : (s.modRoute r f).decRef = s.decRef := rfl
@[simp] theorem State.modRoute_health (s : State) (r : Nat) (f : Route → Route) : (s.modRoute r f).health = s.health := rfl
@[simp] theorem State.modRoute_pwr (s : State) (r : Nat) (f : Route → Route) : (s.modRoute r f).pwr = s.pwr := rfl

/-! ## modCtl -/

@[simp] theorem State.modCtl_pending (s : State) (i : Nat) (f : CtlRoute → CtlRoute) : (s.modCtl i f).pending = s.pending := rfl
@[simp] theorem State.modCtl_freeCtr (s : State) (i : Nat) (f : CtlRoute → CtlRoute) : (s.modCtl i f).freeCtr = s.freeCtr := rfl
@[simp] theorem State.modCtl_resp (s : State) (i : Nat) (f : CtlRoute → CtlRoute) : (s.modCtl i f).resp = s.resp := rfl
@[simp] theorem State.modCtl_base (s : State) (i : Nat) (f : CtlRoute → CtlRoute) : (s.modCtl i f).base = s.base := rfl
@[simp] theorem State.modCtl_dev (s : State) (i : Nat) (f : CtlRoute → CtlRoute) : (s.modCtl i f).dev = s.dev := rfl
@[simp] theorem State.modCtl_regs (s : State) (i : Nat) (f : CtlRoute → CtlRoute) : (s.modCtl i f).regs = s.regs := rfl
@[simp] theorem State.modCtl_hbm (s : State) (i : Nat) (f : CtlRoute → CtlRoute) : (s.modCtl i f).hbm = s.hbm := rfl
@[simp] theorem State.modCtl_commons (s : State) (i : Nat) (f : CtlRoute → CtlRoute) : (s.modCtl i f).commons = s.commons := rfl
@[simp] theorem State.modCtl_msram (s : State) (i : Nat) (f : CtlRoute → CtlRoute) : (s.modCtl i f).msram = s.msram := rfl
@[simp] theorem State.modCtl_flash (s : State) (i : Nat) (f : CtlRoute → CtlRoute) : (s.modCtl i f).flash = s.flash := rfl
@[simp] theorem State.modCtl_tiles (s : State) (i : Nat) (f : CtlRoute → CtlRoute) : (s.modCtl i f).tiles = s.tiles := rfl
@[simp] theorem State.modCtl_slots (s : State) (i : Nat) (f : CtlRoute → CtlRoute) : (s.modCtl i f).slots = s.slots := rfl
@[simp] theorem State.modCtl_adm (s : State) (i : Nat) (f : CtlRoute → CtlRoute) : (s.modCtl i f).adm = s.adm := rfl
@[simp] theorem State.modCtl_face (s : State) (i : Nat) (f : CtlRoute → CtlRoute) : (s.modCtl i f).face = s.face := rfl
@[simp] theorem State.modCtl_prot (s : State) (i : Nat) (f : CtlRoute → CtlRoute) : (s.modCtl i f).prot = s.prot := rfl
@[simp] theorem State.modCtl_scrub (s : State) (i : Nat) (f : CtlRoute → CtlRoute) : (s.modCtl i f).scrub = s.scrub := rfl
@[simp] theorem State.modCtl_eng (s : State) (i : Nat) (f : CtlRoute → CtlRoute) : (s.modCtl i f).eng = s.eng := rfl
@[simp] theorem State.modCtl_ing (s : State) (i : Nat) (f : CtlRoute → CtlRoute) : (s.modCtl i f).ing = s.ing := rfl
@[simp] theorem State.modCtl_res (s : State) (i : Nat) (f : CtlRoute → CtlRoute) : (s.modCtl i f).res = s.res := rfl
@[simp] theorem State.modCtl_ctxs (s : State) (i : Nat) (f : CtlRoute → CtlRoute) : (s.modCtl i f).ctxs = s.ctxs := rfl
@[simp] theorem State.modCtl_net (s : State) (i : Nat) (f : CtlRoute → CtlRoute) : (s.modCtl i f).net = s.net := rfl
@[simp] theorem State.modCtl_decQ (s : State) (i : Nat) (f : CtlRoute → CtlRoute) : (s.modCtl i f).decQ = s.decQ := rfl
@[simp] theorem State.modCtl_ppsEdge (s : State) (i : Nat) (f : CtlRoute → CtlRoute) : (s.modCtl i f).ppsEdge = s.ppsEdge := rfl
@[simp] theorem State.modCtl_sport (s : State) (i : Nat) (f : CtlRoute → CtlRoute) : (s.modCtl i f).sport = s.sport := rfl
@[simp] theorem State.modCtl_burl (s : State) (i : Nat) (f : CtlRoute → CtlRoute) : (s.modCtl i f).burl = s.burl := rfl
@[simp] theorem State.modCtl_io (s : State) (i : Nat) (f : CtlRoute → CtlRoute) : (s.modCtl i f).io = s.io := rfl
@[simp] theorem State.modCtl_host (s : State) (i : Nat) (f : CtlRoute → CtlRoute) : (s.modCtl i f).host = s.host := rfl
@[simp] theorem State.modCtl_quoins (s : State) (i : Nat) (f : CtlRoute → CtlRoute) : (s.modCtl i f).quoins = s.quoins := rfl
@[simp] theorem State.modCtl_alloc (s : State) (i : Nat) (f : CtlRoute → CtlRoute) : (s.modCtl i f).alloc = s.alloc := rfl
@[simp] theorem State.modCtl_log (s : State) (i : Nat) (f : CtlRoute → CtlRoute) : (s.modCtl i f).log = s.log := rfl
@[simp] theorem State.modCtl_fw (s : State) (i : Nat) (f : CtlRoute → CtlRoute) : (s.modCtl i f).fw = s.fw := rfl
@[simp] theorem State.modCtl_otp (s : State) (i : Nat) (f : CtlRoute → CtlRoute) : (s.modCtl i f).otp = s.otp := rfl
@[simp] theorem State.modCtl_ld (s : State) (i : Nat) (f : CtlRoute → CtlRoute) : (s.modCtl i f).ld = s.ld := rfl
@[simp] theorem State.modCtl_decRef (s : State) (i : Nat) (f : CtlRoute → CtlRoute) : (s.modCtl i f).decRef = s.decRef := rfl
@[simp] theorem State.modCtl_health (s : State) (i : Nat) (f : CtlRoute → CtlRoute) : (s.modCtl i f).health = s.health := rfl
@[simp] theorem State.modCtl_pwr (s : State) (i : Nat) (f : CtlRoute → CtlRoute) : (s.modCtl i f).pwr = s.pwr := rfl

/-! ## modFlight -/

@[simp] theorem State.modFlight_pending (s : State) (n : Nat) (f : Flight → Flight) : (s.modFlight n f).pending = s.pending := rfl
@[simp] theorem State.modFlight_freeCtr (s : State) (n : Nat) (f : Flight → Flight) : (s.modFlight n f).freeCtr = s.freeCtr := rfl
@[simp] theorem State.modFlight_resp (s : State) (n : Nat) (f : Flight → Flight) : (s.modFlight n f).resp = s.resp := rfl
@[simp] theorem State.modFlight_base (s : State) (n : Nat) (f : Flight → Flight) : (s.modFlight n f).base = s.base := rfl
@[simp] theorem State.modFlight_dev (s : State) (n : Nat) (f : Flight → Flight) : (s.modFlight n f).dev = s.dev := rfl
@[simp] theorem State.modFlight_regs (s : State) (n : Nat) (f : Flight → Flight) : (s.modFlight n f).regs = s.regs := rfl
@[simp] theorem State.modFlight_hbm (s : State) (n : Nat) (f : Flight → Flight) : (s.modFlight n f).hbm = s.hbm := rfl
@[simp] theorem State.modFlight_commons (s : State) (n : Nat) (f : Flight → Flight) : (s.modFlight n f).commons = s.commons := rfl
@[simp] theorem State.modFlight_msram (s : State) (n : Nat) (f : Flight → Flight) : (s.modFlight n f).msram = s.msram := rfl
@[simp] theorem State.modFlight_flash (s : State) (n : Nat) (f : Flight → Flight) : (s.modFlight n f).flash = s.flash := rfl
@[simp] theorem State.modFlight_tiles (s : State) (n : Nat) (f : Flight → Flight) : (s.modFlight n f).tiles = s.tiles := rfl
@[simp] theorem State.modFlight_fab (s : State) (n : Nat) (f : Flight → Flight) : (s.modFlight n f).fab = s.fab := rfl
@[simp] theorem State.modFlight_slots (s : State) (n : Nat) (f : Flight → Flight) : (s.modFlight n f).slots = s.slots := rfl
@[simp] theorem State.modFlight_face (s : State) (n : Nat) (f : Flight → Flight) : (s.modFlight n f).face = s.face := rfl
@[simp] theorem State.modFlight_prot (s : State) (n : Nat) (f : Flight → Flight) : (s.modFlight n f).prot = s.prot := rfl
@[simp] theorem State.modFlight_scrub (s : State) (n : Nat) (f : Flight → Flight) : (s.modFlight n f).scrub = s.scrub := rfl
@[simp] theorem State.modFlight_eng (s : State) (n : Nat) (f : Flight → Flight) : (s.modFlight n f).eng = s.eng := rfl
@[simp] theorem State.modFlight_ing (s : State) (n : Nat) (f : Flight → Flight) : (s.modFlight n f).ing = s.ing := rfl
@[simp] theorem State.modFlight_res (s : State) (n : Nat) (f : Flight → Flight) : (s.modFlight n f).res = s.res := rfl
@[simp] theorem State.modFlight_ctxs (s : State) (n : Nat) (f : Flight → Flight) : (s.modFlight n f).ctxs = s.ctxs := rfl
@[simp] theorem State.modFlight_net (s : State) (n : Nat) (f : Flight → Flight) : (s.modFlight n f).net = s.net := rfl
@[simp] theorem State.modFlight_decQ (s : State) (n : Nat) (f : Flight → Flight) : (s.modFlight n f).decQ = s.decQ := rfl
@[simp] theorem State.modFlight_ppsEdge (s : State) (n : Nat) (f : Flight → Flight) : (s.modFlight n f).ppsEdge = s.ppsEdge := rfl
@[simp] theorem State.modFlight_sport (s : State) (n : Nat) (f : Flight → Flight) : (s.modFlight n f).sport = s.sport := rfl
@[simp] theorem State.modFlight_burl (s : State) (n : Nat) (f : Flight → Flight) : (s.modFlight n f).burl = s.burl := rfl
@[simp] theorem State.modFlight_io (s : State) (n : Nat) (f : Flight → Flight) : (s.modFlight n f).io = s.io := rfl
@[simp] theorem State.modFlight_host (s : State) (n : Nat) (f : Flight → Flight) : (s.modFlight n f).host = s.host := rfl
@[simp] theorem State.modFlight_quoins (s : State) (n : Nat) (f : Flight → Flight) : (s.modFlight n f).quoins = s.quoins := rfl
@[simp] theorem State.modFlight_alloc (s : State) (n : Nat) (f : Flight → Flight) : (s.modFlight n f).alloc = s.alloc := rfl
@[simp] theorem State.modFlight_log (s : State) (n : Nat) (f : Flight → Flight) : (s.modFlight n f).log = s.log := rfl
@[simp] theorem State.modFlight_fw (s : State) (n : Nat) (f : Flight → Flight) : (s.modFlight n f).fw = s.fw := rfl
@[simp] theorem State.modFlight_otp (s : State) (n : Nat) (f : Flight → Flight) : (s.modFlight n f).otp = s.otp := rfl
@[simp] theorem State.modFlight_ld (s : State) (n : Nat) (f : Flight → Flight) : (s.modFlight n f).ld = s.ld := rfl
@[simp] theorem State.modFlight_decRef (s : State) (n : Nat) (f : Flight → Flight) : (s.modFlight n f).decRef = s.decRef := rfl
@[simp] theorem State.modFlight_health (s : State) (n : Nat) (f : Flight → Flight) : (s.modFlight n f).health = s.health := rfl
@[simp] theorem State.modFlight_pwr (s : State) (n : Nat) (f : Flight → Flight) : (s.modFlight n f).pwr = s.pwr := rfl

/-! ## modBurl -/

@[simp] theorem State.modBurl_pending (s : State) (f : Burl → Burl) : (s.modBurl f).pending = s.pending := rfl
@[simp] theorem State.modBurl_freeCtr (s : State) (f : Burl → Burl) : (s.modBurl f).freeCtr = s.freeCtr := rfl
@[simp] theorem State.modBurl_resp (s : State) (f : Burl → Burl) : (s.modBurl f).resp = s.resp := rfl
@[simp] theorem State.modBurl_base (s : State) (f : Burl → Burl) : (s.modBurl f).base = s.base := rfl
@[simp] theorem State.modBurl_dev (s : State) (f : Burl → Burl) : (s.modBurl f).dev = s.dev := rfl
@[simp] theorem State.modBurl_regs (s : State) (f : Burl → Burl) : (s.modBurl f).regs = s.regs := rfl
@[simp] theorem State.modBurl_hbm (s : State) (f : Burl → Burl) : (s.modBurl f).hbm = s.hbm := rfl
@[simp] theorem State.modBurl_commons (s : State) (f : Burl → Burl) : (s.modBurl f).commons = s.commons := rfl
@[simp] theorem State.modBurl_msram (s : State) (f : Burl → Burl) : (s.modBurl f).msram = s.msram := rfl
@[simp] theorem State.modBurl_flash (s : State) (f : Burl → Burl) : (s.modBurl f).flash = s.flash := rfl
@[simp] theorem State.modBurl_tiles (s : State) (f : Burl → Burl) : (s.modBurl f).tiles = s.tiles := rfl
@[simp] theorem State.modBurl_fab (s : State) (f : Burl → Burl) : (s.modBurl f).fab = s.fab := rfl
@[simp] theorem State.modBurl_slots (s : State) (f : Burl → Burl) : (s.modBurl f).slots = s.slots := rfl
@[simp] theorem State.modBurl_adm (s : State) (f : Burl → Burl) : (s.modBurl f).adm = s.adm := rfl
@[simp] theorem State.modBurl_face (s : State) (f : Burl → Burl) : (s.modBurl f).face = s.face := rfl
@[simp] theorem State.modBurl_prot (s : State) (f : Burl → Burl) : (s.modBurl f).prot = s.prot := rfl
@[simp] theorem State.modBurl_scrub (s : State) (f : Burl → Burl) : (s.modBurl f).scrub = s.scrub := rfl
@[simp] theorem State.modBurl_eng (s : State) (f : Burl → Burl) : (s.modBurl f).eng = s.eng := rfl
@[simp] theorem State.modBurl_ing (s : State) (f : Burl → Burl) : (s.modBurl f).ing = s.ing := rfl
@[simp] theorem State.modBurl_res (s : State) (f : Burl → Burl) : (s.modBurl f).res = s.res := rfl
@[simp] theorem State.modBurl_ctxs (s : State) (f : Burl → Burl) : (s.modBurl f).ctxs = s.ctxs := rfl
@[simp] theorem State.modBurl_net (s : State) (f : Burl → Burl) : (s.modBurl f).net = s.net := rfl
@[simp] theorem State.modBurl_decQ (s : State) (f : Burl → Burl) : (s.modBurl f).decQ = s.decQ := rfl
@[simp] theorem State.modBurl_ppsEdge (s : State) (f : Burl → Burl) : (s.modBurl f).ppsEdge = s.ppsEdge := rfl
@[simp] theorem State.modBurl_sport (s : State) (f : Burl → Burl) : (s.modBurl f).sport = s.sport := rfl
@[simp] theorem State.modBurl_io (s : State) (f : Burl → Burl) : (s.modBurl f).io = s.io := rfl
@[simp] theorem State.modBurl_host (s : State) (f : Burl → Burl) : (s.modBurl f).host = s.host := rfl
@[simp] theorem State.modBurl_quoins (s : State) (f : Burl → Burl) : (s.modBurl f).quoins = s.quoins := rfl
@[simp] theorem State.modBurl_alloc (s : State) (f : Burl → Burl) : (s.modBurl f).alloc = s.alloc := rfl
@[simp] theorem State.modBurl_log (s : State) (f : Burl → Burl) : (s.modBurl f).log = s.log := rfl
@[simp] theorem State.modBurl_fw (s : State) (f : Burl → Burl) : (s.modBurl f).fw = s.fw := rfl
@[simp] theorem State.modBurl_otp (s : State) (f : Burl → Burl) : (s.modBurl f).otp = s.otp := rfl
@[simp] theorem State.modBurl_ld (s : State) (f : Burl → Burl) : (s.modBurl f).ld = s.ld := rfl
@[simp] theorem State.modBurl_decRef (s : State) (f : Burl → Burl) : (s.modBurl f).decRef = s.decRef := rfl
@[simp] theorem State.modBurl_health (s : State) (f : Burl → Burl) : (s.modBurl f).health = s.health := rfl
@[simp] theorem State.modBurl_pwr (s : State) (f : Burl → Burl) : (s.modBurl f).pwr = s.pwr := rfl

end Sys2Proof.Machine
end

