-- ==== Sys2Proof/Laws/Issue.lean ====
section
/-! SUPPORT. Parts of State by index after a change, what issuing an instruction does, and completion. -/
namespace Sys2Proof.Machine

/-! ## Lists by index -/

theorem modAt_length {α : Type} (l : List α) (i : Nat) (f : α → α) : (modAt l i f).length = l.length := by
  unfold modAt; split <;> simp

theorem getD_modAt {α : Type} (l : List α) (i j : Nat) (f : α → α) (d : α) :
    (modAt l i f).getD j d = if j = i ∧ i < l.length then f (l.getD i d) else l.getD j d := by
  unfold modAt
  cases e : l[i]? with
  | none =>
    have : ¬ i < l.length := by have := List.getElem?_eq_none_iff.1 e; omega
    rw [if_neg (by omega)]
  | some x =>
    have hi : i < l.length := (List.getElem?_eq_some_iff.1 e).1
    simp only [List.getD_eq_getElem?_getD, List.getElem?_set]
    by_cases g : j = i
    · subst g
      have : l[j] = x := (List.getElem?_eq_some_iff.1 e).2
      simp [hi, this]
    · rw [if_neg (fun h => g h.symm), if_neg (by omega)]

/-- Two changes that agree on the part changed are one change. -/
theorem modAt_congr {α : Type} (l : List α) (d : α) (i : Nat) (f g : α → α) (h : f (l.getD i d) = g (l.getD i d)) :
    modAt l i f = modAt l i g := by
  unfold modAt
  cases e : l[i]? with
  | none => rfl
  | some x => rw [List.getD_eq_getElem?_getD, e] at h; simp only [Option.getD_some] at h; dsimp only; rw [h]

/-! ## Tiles -/

@[simp] theorem State.modTile_length (s : State) (t : Nat) (f : Tile → Tile) : (s.modTile t f).tiles.length = s.tiles.length :=
  modAt_length ..

/-- A tile after one is changed. -/
theorem State.tile_modTile (s : State) (t t' : Nat) (f : Tile → Tile) :
    (s.modTile t f).tile t' = if t' = t ∧ t < s.tiles.length then f (s.tile t) else s.tile t' := getD_modAt ..

@[simp] theorem State.tile_modTile_ne (s : State) {t t' : Nat} (h : t' ≠ t) (f : Tile → Tile) :
    (s.modTile t f).tile t' = s.tile t' := by
  rw [tile_modTile, if_neg (fun e => h e.1)]

theorem State.tile_modTile_self (s : State) {t : Nat} (h : t < s.tiles.length) (f : Tile → Tile) :
    (s.modTile t f).tile t = f (s.tile t) := by
  rw [tile_modTile, if_pos ⟨rfl, h⟩]

theorem State.core_modCore (s : State) {t : Nat} (h : t < s.tiles.length) (f : SCore → SCore) :
    (s.modCore t f).core t = f (s.core t) := by
  unfold State.core State.modCore; rw [tile_modTile_self s h]

theorem State.plat_modPlat (s : State) {t : Nat} (h : t < s.tiles.length) (f : PlatenSt → PlatenSt) :
    (s.modPlat t f).plat t = f (s.plat t) := by
  unfold State.plat State.modPlat; rw [tile_modTile_self s h]

/-- A slot after one is changed. -/
theorem State.slot_modSlot (s : State) (k j : Nat) (f : Slot → Slot) :
    (s.modSlot k f).slot j = if j = k ∧ k < s.slots.length then f (s.slot k) else s.slot j := getD_modAt ..

/-- An engine after one is changed. -/
theorem State.engine_modEng (s : State) (e j : Nat) (f : Eng → Eng) :
    (s.modEng e f).engine j = if j = e ∧ e < s.eng.length then f (s.engine e) else s.engine j := getD_modAt ..

/-! ## One instruction -/

/-- A tile that issues runs the instruction's effect on the state at issue. -/
theorem State.issue_of_atIssue {s u : State} {t : Nat} (h : s.atIssue t = some u) (act : State → State) :
    s.issue t act = act u := by
  unfold State.atIssue at h
  unfold State.issue
  dsimp only at h ⊢
  generalize (if (s.core t).loopDue = true then s.modCore t SCore.endBody else s) = b at h ⊢
  split at h
  · rename_i hc
    simp only [Bool.and_eq_true, decide_eq_true_eq] at hc
    split at h
    · rename_i h2
      rw [if_pos hc.1, if_neg (show ¬ 4096 ≤ (b.core t).pc by omega), if_pos h2]
      exact congrArg act (Option.some.inj h)
    · cases h
  · cases h

/-- A tile that is not ready ignores an instruction command (log entry 7). -/
theorem State.issue_of_not_ready {s : State} {t : Nat} (h : s.ready t = false) (act : State → State) : s.issue t act = s := by
  unfold State.issue; rw [if_neg (by rw [h]; decide)]

/-- Completions that agree on the core are one. -/
theorem State.complete_congr (u : State) (t : Nat) (f g : SCore → SCore) (h : f (u.core t) = g (u.core t)) :
    u.complete t f = u.complete t g := by
  unfold State.complete State.modCore State.modTile
  rw [modAt_congr u.tiles {} t]
  show ({ u.tile t with core := (f (u.core t)).finish } : Tile) = { u.tile t with core := (g (u.core t)).finish }
  rw [h]

/-- What a completed instruction leaves of its core: the effect, the next word, nothing waiting. -/
theorem State.core_complete (u : State) {t : Nat} (h : t < u.tiles.length) (f : SCore → SCore) :
    (u.complete t f).core t = (f (u.core t)).finish := core_modCore u h _

@[simp] theorem SCore.finish_pc (c : SCore) : c.finish.pc = c.pc + 1 := rfl
@[simp] theorem SCore.finish_s (c : SCore) : c.finish.s = c.s := rfl
@[simp] theorem SCore.finish_v (c : SCore) : c.finish.v = c.v := rfl
@[simp] theorem SCore.finish_ag (c : SCore) : c.finish.ag = c.ag := rfl
@[simp] theorem SCore.finish_loops (c : SCore) : c.finish.loops = c.loops := rfl
@[simp] theorem SCore.finish_flags (c : SCore) : c.finish.flags = c.flags := rfl
@[simp] theorem SCore.finish_tbase (c : SCore) : c.finish.tbase = c.tbase := rfl
@[simp] theorem SCore.finish_leaky (c : SCore) : c.finish.leaky = c.leaky := rfl
@[simp] theorem SCore.finish_waiting (c : SCore) : c.finish.waiting = none := rfl

/-- A completed instruction leaves the rest of its tile and every other tile. -/
theorem State.tile_complete (u : State) {t : Nat} (h : t < u.tiles.length) (f : SCore → SCore) :
    (u.complete t f).tile t = { u.tile t with core := (f (u.core t)).finish } := tile_modTile_self u h _

@[simp] theorem State.tile_complete_ne (u : State) {t t' : Nat} (h : t' ≠ t) (f : SCore → SCore) :
    (u.complete t f).tile t' = u.tile t' := tile_modTile_ne u h _

end Sys2Proof.Machine
end

