-- ==== Sys2Proof/Laws/Table.lean ====
section
/-! SUPPORT. What a sparse table in canonical form holds after a write, and that every table operation keeps the form. -/
namespace Sys2Proof.Machine

theorem tabove_iff {α : Type} (k : Nat) (t : Table α) : tabove k t = true ↔ ∀ e ∈ t, k < e.1 := by
  simp [tabove]

/-- The canonical form of a nonempty table. -/
theorem twf_cons {α : Type} [DecidableEq α] (d : Nat → α) (k : Nat) (v : α) (t : Table α) :
    twf d ((k, v) :: t) = true ↔ v ≠ d k ∧ (∀ e ∈ t, k < e.1) ∧ twf d t = true := by
  simp [twf, tabove_iff, and_assoc]

/-- A key below all listed keys is not listed. -/
theorem tfind_none_of_above {α : Type} (t : Table α) (k : Nat) (h : ∀ e ∈ t, k < e.1) : tfind t k = none := by
  cases t with
  | nil => rfl
  | cons e t =>
    have := h e (by simp)
    simp only [tfind]
    rw [if_neg (by omega), if_pos this]

theorem mem_tins {α : Type} (t : Table α) (k : Nat) (v : α) (e : Nat × α) (h : e ∈ tins t k v) : e = (k, v) ∨ e ∈ t := by
  induction t with
  | nil => simpa [tins] using h
  | cons x t ih =>
    obtain ⟨j, w⟩ := x
    simp only [tins] at h
    split at h
    · simp only [List.mem_cons] at h ⊢; exact h.imp id .inr
    · split at h
      · simp only [List.mem_cons] at h ⊢; exact h
      · simp only [List.mem_cons] at h ⊢
        rcases h with h | h
        · exact .inr (.inl h)
        · exact (ih h).imp id .inr

theorem mem_tdel {α : Type} (t : Table α) (k : Nat) (e : Nat × α) (h : e ∈ tdel t k) : e ∈ t := by
  induction t with
  | nil => simp [tdel] at h
  | cons x t ih =>
    obtain ⟨j, w⟩ := x
    simp only [tdel] at h
    split at h
    · exact List.mem_cons_of_mem _ h
    · split at h
      · exact h
      · simp only [List.mem_cons] at h ⊢
        rcases h with h | h
        · exact .inl h
        · exact .inr (ih h)

/-- A value that differs from the unlisted one is inserted in canonical form. -/
theorem twf_tins {α : Type} [DecidableEq α] {d : Nat → α} {t : Table α} (h : twf d t = true) (k : Nat) (v : α) (hv : v ≠ d k) :
    twf d (tins t k v) = true := by
  induction t with
  | nil => simp [tins, twf, tabove, hv]
  | cons x t ih =>
    obtain ⟨j, w⟩ := x
    obtain ⟨h1, h2, h3⟩ := (twf_cons ..).1 h
    simp only [tins]
    split
    · rename_i e; subst e; exact (twf_cons ..).2 ⟨hv, h2, h3⟩
    · split
      · rename_i e l
        refine (twf_cons ..).2 ⟨hv, ?_, h⟩
        intro e he
        rcases List.mem_cons.1 he with rfl | he
        · exact l
        · exact Nat.lt_trans l (h2 e he)
      · rename_i e l
        refine (twf_cons ..).2 ⟨h1, ?_, ih h3⟩
        intro e he
        rcases mem_tins _ _ _ _ he with rfl | he
        · simp only; omega
        · exact h2 e he

/-- Removing a key keeps the canonical form. -/
theorem twf_tdel {α : Type} [DecidableEq α] {d : Nat → α} {t : Table α} (h : twf d t = true) (k : Nat) :
    twf d (tdel t k) = true := by
  induction t with
  | nil => rfl
  | cons x t ih =>
    obtain ⟨j, w⟩ := x
    obtain ⟨h1, h2, h3⟩ := (twf_cons ..).1 h
    simp only [tdel]
    split
    · exact h3
    · split
      · exact h
      · exact (twf_cons ..).2 ⟨h1, fun e he => h2 e (mem_tdel _ _ _ he), ih h3⟩

/-- A write removes the key where the value is the unlisted one, and lists it otherwise. -/
theorem tput_eq {α : Type} [DecidableEq α] (d : Nat → α) (t : Table α) (k : Nat) (v : α) :
    tput d t k v = if v = d k then tdel t k else tins t k v := by
  induction t with
  | nil => simp only [tput, tdel, tins]
  | cons x t ih =>
    obtain ⟨j, w⟩ := x
    simp only [tput, tdel, tins, ih]
    split
    · rfl
    · split
      · rfl
      · split <;> rfl

/-- Every write keeps the canonical form. -/
theorem twf_tput {α : Type} [DecidableEq α] {d : Nat → α} {t : Table α} (h : twf d t = true) (k : Nat) (v : α) :
    twf d (tput d t k v) = true := by
  rw [tput_eq]
  split
  · exact twf_tdel h k
  · exact twf_tins h k v ‹_›

/-- A table read after an insertion. -/
theorem tfind_tins {α : Type} [DecidableEq α] {d : Nat → α} {t : Table α} (h : twf d t = true) (k j : Nat) (v : α) :
    tfind (tins t k v) j = if j = k then some v else tfind t j := by
  induction t with
  | nil =>
    simp only [tins, tfind]
    by_cases e : k = j
    · simp [e]
    · rw [if_neg e, if_neg (show ¬ j = k from fun x => e x.symm)]; simp
  | cons x t ih =>
    obtain ⟨i, w⟩ := x
    obtain ⟨h1, h2, h3⟩ := (twf_cons ..).1 h
    simp only [tins]
    by_cases a : i = k
    · subst a
      simp only [if_pos, tfind]
      by_cases e : i = j
      · simp [e]
      · rw [if_neg e, if_neg (show ¬ j = i from fun x => e x.symm), if_neg e]
    · rw [if_neg a]
      by_cases b : k < i
      · rw [if_pos b]
        simp only [tfind]
        by_cases e : k = j
        · simp [e]
        · rw [if_neg e, if_neg (show ¬ j = k from fun x => e x.symm)]
          by_cases l : j < k
          · rw [if_pos l, if_neg (show ¬ i = j by omega), if_pos (show j < i by omega)]
          · rw [if_neg l]
      · rw [if_neg b]
        simp only [tfind, ih h3]
        by_cases e : i = j
        · subst e; rw [if_pos rfl, if_neg a, if_pos rfl]
        · rw [if_neg e, if_neg e]
          by_cases l : j < i
          · rw [if_pos l, if_pos l, if_neg (show ¬ j = k by omega)]
          · rw [if_neg l, if_neg l]

/-- A table read after a removal. -/
theorem tfind_tdel {α : Type} [DecidableEq α] {d : Nat → α} {t : Table α} (h : twf d t = true) (k j : Nat) :
    tfind (tdel t k) j = if j = k then none else tfind t j := by
  induction t with
  | nil => simp [tdel, tfind]
  | cons x t ih =>
    obtain ⟨i, w⟩ := x
    obtain ⟨h1, h2, h3⟩ := (twf_cons ..).1 h
    simp only [tdel]
    by_cases a : i = k
    · subst a
      rw [if_pos rfl]
      by_cases e : j = i
      · subst e; rw [if_pos rfl]; exact tfind_none_of_above t _ h2
      · rw [if_neg e]; simp only [tfind]; rw [if_neg (show ¬ i = j from fun x => e x.symm)]
        by_cases l : j < i
        · rw [if_pos l]; exact tfind_none_of_above t _ (fun x hx => Nat.lt_trans l (h2 x hx))
        · rw [if_neg l]
    · rw [if_neg a]
      by_cases b : k < i
      · rw [if_pos b]
        by_cases e : j = k
        · subst e; rw [if_pos rfl]; simp only [tfind]; rw [if_neg (show ¬ i = j by omega), if_pos b]
        · rw [if_neg e]
      · rw [if_neg b]
        simp only [tfind, ih h3]
        by_cases e : i = j
        · subst e; rw [if_pos rfl, if_neg a, if_pos rfl]
        · rw [if_neg e, if_neg e]
          by_cases l : j < i
          · rw [if_pos l, if_pos l, if_neg (show ¬ j = k by omega)]
          · rw [if_neg l, if_neg l]

/-- What every key reads as after a write: the key written as the value written, every other key as before. -/
theorem tget_tput {α : Type} [DecidableEq α] {d : Nat → α} {t : Table α} (h : twf d t = true) (k j : Nat) (v : α) :
    tget d (tput d t k v) j = if j = k then v else tget d t j := by
  unfold tget
  rw [tput_eq]
  split
  · rename_i e
    rw [tfind_tdel h]
    split
    · rename_i e2; subst e2; simp [e]
    · rfl
  · rw [tfind_tins h]
    split <;> rfl

/-- A key reads as written. -/
theorem tget_tput_self {α : Type} [DecidableEq α] {d : Nat → α} {t : Table α} (h : twf d t = true) (k : Nat) (v : α) :
    tget d (tput d t k v) k = v := by
  rw [tget_tput h, if_pos rfl]

/-- Any other key reads as before. -/
theorem tget_tput_ne {α : Type} [DecidableEq α] {d : Nat → α} {t : Table α} (h : twf d t = true) {k j : Nat} (e : j ≠ k) (v : α) :
    tget d (tput d t k v) j = tget d t j := by
  rw [tget_tput h, if_neg e]

/-- Keeping some entries keeps the canonical form. -/
theorem twf_filter {α : Type} [DecidableEq α] {d : Nat → α} {t : Table α} (h : twf d t = true) (p : Nat × α → Bool) :
    twf d (t.filter p) = true := by
  induction t with
  | nil => rfl
  | cons x t ih =>
    obtain ⟨i, w⟩ := x
    obtain ⟨h1, h2, h3⟩ := (twf_cons ..).1 h
    simp only [List.filter]
    split
    · exact (twf_cons ..).2 ⟨h1, fun e he => h2 e (List.mem_filter.1 he).1, ih h3⟩
    · exact ih h3

end Sys2Proof.Machine
end

