-- ==== Sys2Proof/Laws/Memory.lean ====
section
/-! SUPPORT. Every memory operation keeps the canonical form of every memory, and what a memory holds after a write. -/
namespace Sys2Proof.Machine

/-! ## One memory -/

theorem Mem.wf_iff (m : Mem) : m.wf = true ↔
    twf memDflt m.cells = true ∧ twf (fun _ => false) m.valid = true ∧ twf (fun _ => 0) m.flips = true := by
  simp [Mem.wf, and_assoc]

/-- The default memory is in canonical form. -/
theorem Mem.wf_empty : ({} : Mem).wf = true := rfl

theorem Mem.putByte_wf {m : Mem} (h : m.wf = true) (a : Nat) (b : Byte) : (m.putByte a b).wf = true := by
  rw [Mem.wf_iff] at h ⊢
  exact ⟨twf_tput h.1 a b, h.2⟩

theorem Mem.putBytes_wf {m : Mem} (h : m.wf = true) (a : Nat) (bs : List Byte) : (m.putBytes a bs).wf = true := by
  induction bs generalizing m a with
  | nil => exact h
  | cons b bs ih => exact ih (putByte_wf h a b) (a + 1)

theorem Mem.putWord_wf {m : Mem} (h : m.wf = true) (i : MemId) (w v mask : Nat) : (m.putWord i w v mask).wf = true := by
  have h1 := putBytes_wf h (w * i.cw) (leBytes i.cw v)
  rw [Mem.wf_iff] at h1 ⊢
  refine ⟨h1.1, ?_, twf_tput h1.2.2 w mask⟩
  simp only [Mem.putWord]
  split
  · exact twf_tput h1.2.1 w true
  · exact h1.2.1

/-- A byte read after a byte was stored. -/
theorem Mem.byte_putByte {m : Mem} (h : m.wf = true) (a x : Nat) (b : Byte) :
    (m.putByte a b).byte x = if x = a then b else m.byte x :=
  tget_tput ((Mem.wf_iff m).1 h).1 a x b

/-- A byte read after bytes were stored. -/
theorem Mem.byte_putBytes {m : Mem} (h : m.wf = true) (a x : Nat) (bs : List Byte) :
    (m.putBytes a bs).byte x = if a ≤ x ∧ x < a + bs.length then bs.getD (x - a) 0 else m.byte x := by
  induction bs generalizing m a with
  | nil => rw [if_neg (by simp only [List.length_nil]; omega)]; rfl
  | cons b bs ih =>
    simp only [putBytes]
    rw [ih (putByte_wf h a b), byte_putByte h]
    by_cases e : x = a
    · subst e; rw [if_neg (by omega), if_pos rfl, if_pos (by simp only [List.length_cons]; omega), Nat.sub_self]; rfl
    · by_cases l : a ≤ x ∧ x < a + (b :: bs).length
      · simp only [List.length_cons] at l
        rw [if_pos (by omega), if_pos (by simp only [List.length_cons]; omega)]
        obtain ⟨k, rfl⟩ : ∃ k, x = a + 1 + k := ⟨x - a - 1, by omega⟩
        rw [show a + 1 + k - (a + 1) = k by omega, show a + 1 + k - a = k + 1 by omega]
        simp
      · simp only [List.length_cons] at l
        rw [if_neg (by omega), if_neg e, if_neg (by simp only [List.length_cons]; omega)]

/-- The valid bits and the stored errors do not change under bytes. -/
@[simp] theorem Mem.putBytes_valid (m : Mem) (a : Nat) (bs : List Byte) : (m.putBytes a bs).valid = m.valid := by
  induction bs generalizing m a with
  | nil => rfl
  | cons b bs ih => exact ih (m.putByte a b) (a + 1)

@[simp] theorem Mem.putBytes_flips (m : Mem) (a : Nat) (bs : List Byte) : (m.putBytes a bs).flips = m.flips := by
  induction bs generalizing m a with
  | nil => rfl
  | cons b bs ih => exact ih (m.putByte a b) (a + 1)

/-- The mask stored with a code word after one is written. -/
theorem Mem.flip_putWord {m : Mem} (h : m.wf = true) (i : MemId) (w x v mask : Nat) :
    (m.putWord i w v mask).flip x = if x = w then mask else m.flip x := by
  have := tget_tput ((Mem.wf_iff m).1 h).2.2 w x mask
  simpa [Mem.flip, Mem.putWord] using this

/-- A code word is valid once written, and every other as before. -/
theorem Mem.isValid_putWord {m : Mem} (h : m.wf = true) (i : MemId) (w x v mask : Nat) :
    (m.putWord i w v mask).isValid i x = (decide (x = w) || m.isValid i x) := by
  have := tget_tput ((Mem.wf_iff m).1 h).2.1 w x true
  by_cases e : i.hasValid = true
  · simp only [Mem.isValid, Mem.putWord, e, putBytes_valid, if_true, this]
    by_cases g : x = w <;> simp [g]
  · simp [Mem.isValid, e]

/-- A byte read after a code word was written. -/
theorem Mem.byte_putWord {m : Mem} (h : m.wf = true) (i : MemId) (w x v mask : Nat) :
    (m.putWord i w v mask).byte x =
      if w * i.cw ≤ x ∧ x < w * i.cw + (leBytes i.cw v).length then (leBytes i.cw v).getD (x - w * i.cw) 0 else m.byte x :=
  byte_putBytes h (w * i.cw) x (leBytes i.cw v)

/-! ## The memories of a state -/

/-- Registers, events and answers do not touch a memory. -/
@[simp] theorem State.mem_setReg (s : State) (c a v : Nat) (i : MemId) : (s.setReg c a v).mem i = s.mem i := by
  cases i <;> rfl

@[simp] theorem State.mem_wr (s : State) (f : Fld) (v : Nat) (i : MemId) : (s.wr f v).mem i = s.mem i := by cases i <;> rfl

@[simp] theorem State.mem_inc (s : State) (f : Fld) (n : Nat) (i : MemId) : (s.inc f n).mem i = s.mem i := by cases i <;> rfl

@[simp] theorem State.mem_raise (s : State) (c r x y z : Nat) (i : MemId) : (s.raise c r x y z).mem i = s.mem i := by
  cases i <;> rfl

/-- What raising an event at most once per span leaves: the state as it was, or the event raised and its time kept. -/
theorem State.raiseOnce_cases (s : State) (k n c r x y z : Nat) : s.raiseOnce k n c r x y z = s ∨
    ∃ l, s.raiseOnce k n c r x y z = { s.raise c r x y z with log := l } := by
  have key : ∀ (due : Bool) (u : State), (if due = true then
      { u with log := { u.log with last := tput (fun _ => none) u.log.last k (some u.base) } } else s) = s ∨
      ∃ l, (if due = true then
      { u with log := { u.log with last := tput (fun _ => none) u.log.last k (some u.base) } } else s) = { u with log := l } := by
    intro due u
    cases due
    · exact .inl rfl
    · exact .inr ⟨_, rfl⟩
  exact key _ (s.raise c r x y z)

@[simp] theorem State.mem_raiseOnce (s : State) (k n c r x y z : Nat) (i : MemId) :
    (s.raiseOnce k n c r x y z).mem i = s.mem i := by
  rcases raiseOnce_cases s k n c r x y z with h | ⟨l, h⟩ <;> rw [h]
  cases i <;> rfl

/-- The tiles are what they were. -/
@[simp] theorem State.raiseOnce_tiles (s : State) (k n c r x y z : Nat) : (s.raiseOnce k n c r x y z).tiles = s.tiles := by
  rcases raiseOnce_cases s k n c r x y z with h | ⟨l, h⟩ <;> rw [h]
  rfl

theorem all_modAt {α : Type} {p : α → Bool} {l : List α} (h : l.all p = true) (i : Nat) (f : α → α)
    (g : ∀ x, p x = true → p (f x) = true) : (modAt l i f).all p = true := by
  unfold modAt
  split
  · rename_i x e
    rw [List.all_eq_true] at h ⊢
    intro y hy
    rcases List.mem_or_eq_of_mem_set hy with hy | rfl
    · exact h y hy
    · exact g x (h x (List.mem_of_getElem? e))
  · exact h

/-- The canonical form of all memories, one by one. -/
theorem State.memWf_iff (s : State) : s.memWf = true ↔
    s.hbm.wf = true ∧ s.commons.wf = true ∧ s.msram.wf = true ∧ s.flash.wf = true ∧ s.tiles.all Tile.memWf = true := by
  simp [State.memWf, and_assoc]

/-- Every memory of a state in canonical form is in canonical form. -/
theorem State.mem_wf {s : State} (h : s.memWf = true) (i : MemId) : (s.mem i).wf = true := by
  obtain ⟨h1, h2, h3, h4, h5⟩ := (State.memWf_iff s).1 h
  have tile : ∀ t, (s.tile t).memWf = true := by
    intro t
    unfold State.tile
    rw [List.getD_eq_getElem?_getD]
    cases e : s.tiles[t]? with
    | none => rfl
    | some x => exact List.all_eq_true.1 h5 x (List.mem_of_getElem? e)
  have key : ∀ t, (s.tile t).sram.wf = true ∧ (s.tile t).gsram.wf = true ∧ (s.tile t).prog.wf = true := by
    intro t
    have := tile t
    simpa [Tile.memWf, and_assoc] using this
  cases i with
  | hbm => exact h1
  | commons => exact h2
  | msram => exact h3
  | flash => exact h4
  | sram t => exact (key t).1
  | gsram t => exact (key t).2.1
  | prog t => exact (key t).2.2

/-- Replacing a memory by one in canonical form keeps the form of all. -/
theorem State.setMem_memWf {s : State} (h : s.memWf = true) (i : MemId) {m : Mem} (hm : m.wf = true) :
    (s.setMem i m).memWf = true := by
  obtain ⟨h1, h2, h3, h4, h5⟩ := (State.memWf_iff s).1 h
  rw [State.memWf_iff]
  cases i with
  | hbm => exact ⟨hm, h2, h3, h4, h5⟩
  | commons => exact ⟨h1, hm, h3, h4, h5⟩
  | msram => exact ⟨h1, h2, hm, h4, h5⟩
  | flash => exact ⟨h1, h2, h3, hm, h5⟩
  | sram t =>
    refine ⟨h1, h2, h3, h4, all_modAt h5 t _ ?_⟩
    intro x hx; simp only [Tile.memWf, Bool.and_eq_true] at hx ⊢; exact ⟨⟨hm, hx.1.2⟩, hx.2⟩
  | gsram t =>
    refine ⟨h1, h2, h3, h4, all_modAt h5 t _ ?_⟩
    intro x hx; simp only [Tile.memWf, Bool.and_eq_true] at hx ⊢; exact ⟨⟨hx.1.1, hm⟩, hx.2⟩
  | prog t =>
    refine ⟨h1, h2, h3, h4, all_modAt h5 t _ ?_⟩
    intro x hx; simp only [Tile.memWf, Bool.and_eq_true] at hx ⊢; exact ⟨hx.1, hm⟩

/-- The form depends on the memories and the tiles alone. -/
theorem State.memWf_congr {s w : State} (h : w.hbm = s.hbm ∧ w.commons = s.commons ∧ w.msram = s.msram ∧ w.flash = s.flash ∧
    w.tiles = s.tiles) : w.memWf = s.memWf := by
  obtain ⟨h1, h2, h3, h4, h5⟩ := h
  simp only [State.memWf, h1, h2, h3, h4, h5]

@[simp] theorem State.wr_memWf (s : State) (f : Fld) (v : Nat) : (s.wr f v).memWf = s.memWf := rfl

@[simp] theorem State.inc_memWf (s : State) (f : Fld) (n : Nat) : (s.inc f n).memWf = s.memWf := rfl

@[simp] theorem State.raise_memWf (s : State) (c r x y z : Nat) : (s.raise c r x y z).memWf = s.memWf := rfl

@[simp] theorem State.raiseOnce_memWf (s : State) (k n c r x y z : Nat) : (s.raiseOnce k n c r x y z).memWf = s.memWf := by
  rcases raiseOnce_cases s k n c r x y z with h | ⟨l, h⟩ <;> rw [h]
  rfl

theorem State.correct_memWf {s : State} (h : s.memWf = true) (i : MemId) (w v : Nat) : (s.correct i w v).memWf = true := by
  unfold State.correct
  simp only [raiseOnce_memWf, inc_memWf]
  exact setMem_memWf h i (Mem.putWord_wf (mem_wf h i) i w v 0)

theorem State.uncorrectable_memWf {s : State} (h : s.memWf = true) (i : MemId) (w m : Nat) :
    (s.uncorrectable i w m).memWf = true := h

/-- Reading a code word keeps the form. -/
theorem State.readWord_memWf {s : State} (h : s.memWf = true) (i : MemId) (w m : Nat) : (s.readWord i w m).2.memWf = true := by
  unfold State.readWord
  split
  · exact h
  · exact correct_memWf h i w _
  · exact uncorrectable_memWf h i w m

theorem State.readWords_memWf {s : State} (h : s.memWf = true) (i : MemId) (w m n : Nat) :
    (s.readWords i w m n).2.2.memWf = true := by
  induction n generalizing s w with
  | zero => exact h
  | succ n ih => exact ih (readWord_memWf h i w m) (w + 1)

/-- Reading bytes keeps the form. -/
theorem State.read_memWf {s : State} (h : s.memWf = true) (i : MemId) (a n m : Nat) : (s.read i a n m).2.memWf = true := by
  unfold State.read
  split
  · exact h
  · exact readWords_memWf h i _ m _

theorem State.takeFlip_memWf {s : State} (h : s.memWf = true) (i : MemId) (w : Nat) : (s.takeFlip i w).2.memWf = true := by
  unfold State.takeFlip
  split
  · dsimp only
    simp only [raise_memWf, wr_memWf]
    exact h
  · exact h

/-- Writing a code word keeps the form. -/
theorem State.writeWord_memWf {s : State} (h : s.memWf = true) (i : MemId) (w v : Nat) : (s.writeWord i w v).memWf = true := by
  have h1 := takeFlip_memWf h i w
  exact setMem_memWf h1 i (Mem.putWord_wf (mem_wf h1 i) i w v _)

theorem State.writeWords_memWf {s : State} (h : s.memWf = true) (i : MemId) (w : Nat) (l : List (List Byte)) :
    (s.writeWords i w l).memWf = true := by
  induction l generalizing s w with
  | nil => exact h
  | cons b l ih => exact ih (writeWord_memWf h i w _) (w + 1)

theorem State.writeUnit_memWf {s : State} (h : s.memWf = true) (i : MemId) (u o : Nat) (bs : List Byte) (m : Nat) :
    (s.writeUnit i u o bs m).2.memWf = true := by
  unfold State.writeUnit
  simp only []
  split
  · exact writeWords_memWf h i _ _
  · split
    · exact writeWords_memWf (readWords_memWf h i _ m _) i _ _
    · exact readWords_memWf h i _ m _

theorem State.writeFrom_memWf {s : State} (h : s.memWf = true) (i : MemId) (a : Nat) (bs : List Byte) (m n : Nat) :
    (s.writeFrom i a bs m n).2.memWf = true := by
  induction n generalizing s a bs with
  | zero => exact h
  | succ n ih =>
    unfold State.writeFrom
    split
    · exact h
    · exact ih (writeUnit_memWf h i _ _ _ m) _ _

/-- Writing bytes keeps the form. -/
theorem State.write_memWf {s : State} (h : s.memWf = true) (i : MemId) (a : Nat) (bs : List Byte) (m : Nat) :
    (s.write i a bs m).2.memWf = true := writeFrom_memWf h i a bs m _

/-- Keeping some entries of a memory keeps its form. -/
theorem Mem.filter_wf {m : Mem} (h : m.wf = true) (p : Nat × Byte → Bool) (q : Nat × Bool → Bool) (r : Nat × Nat → Bool) :
    ({ cells := m.cells.filter p, valid := m.valid.filter q, flips := m.flips.filter r } : Mem).wf = true := by
  rw [Mem.wf_iff] at h ⊢
  exact ⟨twf_filter h.1 _, twf_filter h.2.1 _, twf_filter h.2.2 _⟩

/-- Clearing banks keeps the form. -/
theorem State.clearMem_memWf {s : State} (h : s.memWf = true) (i : MemId) (lo hi : Nat) : (s.clearMem i lo hi).memWf = true := by
  unfold State.clearMem
  dsimp only
  split
  · exact setMem_memWf (takeFlip_memWf h i _) i (Mem.filter_wf (mem_wf (takeFlip_memWf h i _) i) _ _ _)
  · exact setMem_memWf h i (Mem.filter_wf (mem_wf h i) _ _ _)

theorem State.clearAll_memWf {s : State} (h : s.memWf = true) (i : MemId) : (s.clearAll i).memWf = true := clearMem_memWf h i _ _

/-- Every memory of the reset state is in canonical form. -/
theorem State.reset_memWf : State.reset.memWf = true := by decide

end Sys2Proof.Machine
end

