-- ==== Sys2Proof/Laws/Regs.lean ====
section
/-! SUPPORT. What bit fields and registers hold after a write: the field written as written, every other as before. -/
namespace Sys2Proof.Machine

/-! ## Bit fields -/

@[simp] theorem testBit_bits (w lo len j : Nat) : (bits w lo len).testBit j = (decide (j < len) && w.testBit (lo + j)) := by
  simp [bits, Nat.testBit_mod_two_pow, Nat.testBit_shiftRight]

theorem bits_lt (w lo len : Nat) : bits w lo len < 2 ^ len := Nat.mod_lt _ (Nat.two_pow_pos len)

/-- A number cut into what lies above a field, the field, and what lies below. -/
theorem bits_decompose (w lo len : Nat) :
    w = 2 ^ (lo + len) * (w / 2 ^ (lo + len)) + (2 ^ lo * bits w lo len + w % 2 ^ lo) := by
  have h1 := Nat.div_add_mod w (2 ^ lo)
  have h2 := Nat.div_add_mod (w / 2 ^ lo) (2 ^ len)
  have h3 : w / 2 ^ lo / 2 ^ len = w / 2 ^ (lo + len) := by rw [Nat.div_div_eq_div_mul, Nat.pow_add]
  rw [h3] at h2
  unfold bits
  rw [Nat.shiftRight_eq_div_pow]
  calc w = 2 ^ lo * (w / 2 ^ lo) + w % 2 ^ lo := h1.symm
    _ = 2 ^ lo * (2 ^ len * (w / 2 ^ (lo + len)) + w / 2 ^ lo % 2 ^ len) + w % 2 ^ lo := by rw [h2]
    _ = _ := by rw [Nat.mul_add, ← Nat.mul_assoc, ← Nat.pow_add, Nat.add_assoc]

/-- The number after a field is replaced. -/
theorem setBits_eq (w lo len v : Nat) :
    setBits w lo len v = 2 ^ (lo + len) * (w / 2 ^ (lo + len)) + (2 ^ lo * (v % 2 ^ len) + w % 2 ^ lo) := by
  have h := bits_decompose w lo len
  have e : bits w lo len * 2 ^ lo = 2 ^ lo * bits w lo len := Nat.mul_comm ..
  have f : v % 2 ^ len * 2 ^ lo = 2 ^ lo * (v % 2 ^ len) := Nat.mul_comm ..
  unfold setBits
  rw [e, f]
  omega

/-- Bit `j` of a number with a field replaced. -/
theorem testBit_setBits (w lo len v j : Nat) :
    (setBits w lo len v).testBit j = if lo ≤ j ∧ j < lo + len then v.testBit (j - lo) else w.testBit j := by
  have hr : w % 2 ^ lo < 2 ^ lo := Nat.mod_lt _ (Nat.two_pow_pos lo)
  have hx : v % 2 ^ len < 2 ^ len := Nat.mod_lt _ (Nat.two_pow_pos len)
  have hb : 2 ^ lo * (v % 2 ^ len) + w % 2 ^ lo < 2 ^ (lo + len) := by
    rw [Nat.pow_add]
    calc 2 ^ lo * (v % 2 ^ len) + w % 2 ^ lo < 2 ^ lo * (v % 2 ^ len) + 2 ^ lo := by omega
      _ = 2 ^ lo * (v % 2 ^ len + 1) := by rw [Nat.mul_add, Nat.mul_one]
      _ ≤ 2 ^ lo * 2 ^ len := Nat.mul_le_mul_left _ hx
  rw [setBits_eq, Nat.testBit_two_pow_mul_add _ hb, Nat.testBit_two_pow_mul_add _ hr]
  by_cases h1 : j < lo
  · rw [if_pos (show j < lo + len by omega), if_pos h1, if_neg (show ¬ (lo ≤ j ∧ j < lo + len) by omega), Nat.testBit_mod_two_pow]
    simp [h1]
  · by_cases h2 : j < lo + len
    · rw [if_pos h2, if_neg h1, if_pos (show lo ≤ j ∧ j < lo + len by omega), Nat.testBit_mod_two_pow]
      simp [show j - lo < len by omega]
    · rw [if_neg h2, if_neg (show ¬ (lo ≤ j ∧ j < lo + len) by omega), Nat.testBit_div_two_pow, show j - (lo + len) + (lo + len) = j by omega]

/-- The field written reads as written. -/
theorem bits_setBits_self (w lo len v : Nat) : bits (setBits w lo len v) lo len = v % 2 ^ len := by
  apply Nat.eq_of_testBit_eq
  intro j
  rw [testBit_bits, testBit_setBits, Nat.testBit_mod_two_pow]
  by_cases h : j < len
  · rw [if_pos (show lo ≤ lo + j ∧ lo + j < lo + len by omega), show lo + j - lo = j by omega]
  · simp [h]

/-- A field apart from the one written reads as before. -/
theorem bits_setBits_of_disjoint (w lo len v lo' len' : Nat) (h : lo' + len' ≤ lo ∨ lo + len ≤ lo') :
    bits (setBits w lo len v) lo' len' = bits w lo' len' := by
  apply Nat.eq_of_testBit_eq
  intro j
  rw [testBit_bits, testBit_bits, testBit_setBits]
  by_cases g : j < len'
  · rw [if_neg (by omega)]
  · simp [g]

/-- A field written inside a word leaves a word. -/
theorem setBits_lt (w lo len v n : Nat) (hw : w < 2 ^ n) (h : lo + len ≤ n) : setBits w lo len v < 2 ^ n := by
  apply Nat.lt_pow_two_of_testBit
  intro j hj
  rw [testBit_setBits, if_neg (by omega)]
  exact Nat.testBit_lt_two_pow (Nat.lt_of_lt_of_le hw (Nat.pow_le_pow_right (by omega) hj))

/-! ## Registers -/

theorem State.reg_lt (s : State) (c a : Nat) : s.reg c a < 2 ^ 32 := (tget regReset s.regs (rkey c a)).isLt

/-- A register after a register write: the one written holds the word, every other what it held. -/
theorem State.reg_setReg {s : State} (h : s.tabWf = true) (c a v c' a' : Nat) :
    (s.setReg c a v).reg c' a' = if rkey c' a' = rkey c a then v % 2 ^ 32 else s.reg c' a' := by
  have hr : twf regReset s.regs = true := by
    simp only [State.tabWf, Bool.and_eq_true] at h; exact h.1
  have := tget_tput hr (rkey c a) (rkey c' a') (BitVec.ofNat 32 v)
  show (tget regReset (tput regReset s.regs (rkey c a) (BitVec.ofNat 32 v)) (rkey c' a')).toNat = _
  rw [this]
  split
  · exact BitVec.toNat_ofNat ..
  · rfl

/-- Register writes keep the canonical form of the register table. -/
theorem State.setReg_tabWf {s : State} (h : s.tabWf = true) (c a v : Nat) : (s.setReg c a v).tabWf = true := by
  simp only [State.tabWf, Bool.and_eq_true] at h ⊢
  exact ⟨twf_tput h.1 _ _, h.2⟩

theorem State.wr_tabWf {s : State} (h : s.tabWf = true) (f : Fld) (v : Nat) : (s.wr f v).tabWf = true := setReg_tabWf h ..

theorem State.inc_tabWf {s : State} (h : s.tabWf = true) (f : Fld) (n : Nat) : (s.inc f n).tabWf = true := setReg_tabWf h ..

@[simp] theorem State.raise_tabWf (s : State) (c r x y z : Nat) : (s.raise c r x y z).tabWf = s.tabWf := rfl

/-- A field set by the hardware reads as set. -/
theorem State.rd_wr_self {s : State} (h : s.tabWf = true) (f : Fld) (v : Nat) (hf : f.lo + f.len ≤ 32) :
    (s.wr f v).rd f = v % 2 ^ f.len := by
  unfold State.rd State.wr
  rw [reg_setReg h, if_pos rfl, Nat.mod_eq_of_lt (setBits_lt _ _ _ _ 32 (reg_lt ..) hf), bits_setBits_self]

/-- A field of another register, or apart in the same one, reads as before. -/
theorem State.rd_wr_ne {s : State} (h : s.tabWf = true) (f g : Fld) (v : Nat) (hf : f.lo + f.len ≤ 32)
    (hg : g.addr ≠ f.addr ∨ g.lo + g.len ≤ f.lo ∨ f.lo + f.len ≤ g.lo) : (s.wr f v).rd g = s.rd g := by
  unfold State.rd State.wr
  rw [reg_setReg h]
  split
  · rename_i e
    have e' : g.addr = f.addr := by unfold rkey at e; omega
    rw [Nat.mod_eq_of_lt (setBits_lt _ _ _ _ 32 (reg_lt ..) hf), bits_setBits_of_disjoint _ _ _ _ _ _ (by omega), e']
  · rfl

/-- A counter raised. -/
theorem State.rd_inc_self {s : State} (h : s.tabWf = true) (f : Fld) (n : Nat) (hf : f.lo + f.len ≤ 32) :
    (s.inc f n).rd f = (s.rd f + n) % 2 ^ f.len := rd_wr_self h f _ hf

/-- A quoin's count after one is set. -/
theorem State.qcount_setCount {s : State} (h : s.tabWf = true) (i j v : Nat) :
    (s.setCount i v).qcount j = if j = i then v % 2 ^ 32 else s.qcount j := by
  have hr : twf (fun _ => (0 : Word)) s.quoins.count = true := by
    simp only [State.tabWf, Bool.and_eq_true] at h; exact h.2
  have := tget_tput hr i j (BitVec.ofNat 32 v)
  show (tget (fun _ => (0 : Word)) (tput (fun _ => (0 : Word)) s.quoins.count i (BitVec.ofNat 32 v)) j).toNat = _
  rw [this]
  split
  · exact BitVec.toNat_ofNat ..
  · rfl

theorem State.setCount_tabWf {s : State} (h : s.tabWf = true) (i v : Nat) : (s.setCount i v).tabWf = true := by
  simp only [State.tabWf, Bool.and_eq_true] at h ⊢
  exact ⟨h.1, twf_tput h.2 _ _⟩

end Sys2Proof.Machine
end

