-- ==== Sys2Proof/Tests/Slice0.lean ====
section
/-! SUPPORT. The model's own tests: small runs of one command with results worked out by hand from the spec, the well-formedness
checks, and for every statement a state and operands that meet its hypotheses, clause by clause (`wit_…`). -/
namespace Sys2Proof.Tests
open Sys2Proof.Machine
set_option Elab.async false

/-- Tile 0 RUNNING after reset, its core changed by `f`. -/
def tRun (f : SCore → SCore) : State := State.reset.modTile 0 (fun x => { x with st := .running, core := f x.core })

/-- The same with s1 holding `v`. -/
def tS1 (v : Word) : State := tRun (fun c => c.setS 1 v)

/-- The same at level 1; reset leaves level 2 (Table 2-9). -/
def tL1 (s : State) : State := s.wr (TILE_CFG_ISA_LEVEL.tile 0) 1

/-- Constant word `w` of tile 0's program memory. -/
def tConst (s : State) (a w : Nat) : State := s.setMem (.prog 0) ((s.mem (.prog 0)).putWord (.prog 0) a w 0)

/-- A code word of tile 0's SRAM with `mask` of its bits inverted. -/
def tFlip (s : State) (w v mask : Nat) : State := s.setMem (.sram 0) ((s.mem (.sram 0)).putWord (.sram 0) w v mask)

theorem wit_step : (({ State.reset with pending := [.retainEnter] } : State).pending = .retainEnter :: [])
  ∧ State.reset.pending = [] ∧ State.reset.inv = true := by decide +kernel

theorem wit_words : spindleWf false 3 (.add 3 15 0 7) = true ∧ spindleWf true 3 (.vfcvt 3 ⟨7, 0, 7, 1, 2, true, 0⟩) = true ∧
    spindleWf false 3 (.req 3 (.l1 15 3 1 false 7 0 15 3 true)) = true ∧ spindleWf true 3 (.gdrop 3 7) = true ∧
    decodeSpindle false 3 0x0448C000 ≠ none ∧ bits 0 26 6 ∉ [1, 0x3F] := by decide +kernel

theorem wit_scalar : (tRun id).atIssue 0 = some (tRun id) ∧ ((tRun id).core 0).loopDue = false ∧
    (((tRun id).tile 0).prog.look (.prog 0) ((tRun id).core 0).pc = .good 0) := by decide +kernel

theorem wit_registers : ({} : SCore).s.length = 16 ∧ ({} : SCore).v.length = 8 ∧ (15 : BitVec 4) ≠ 0 ∧ 512 / 4 = 128 := by
  decide

theorem wit_loadStore : (tS1 0x180000).atIssue 0 ≠ none ∧ 0x17FFFF < ((((tS1 0x180000).core 0).sreg 1 + (0 : BitVec 18).signExtend 32).toNat) ∧
    (((tS1 0x17FFFF).core 0).sreg 1).toNat = 0x17FFFF ∧ 0x17FFFF % 4 ≠ 0 ∧
    ((tS1 0x17FFFC).sramRead 0 0x17FFFC 4).1 = some [0, 0, 0, 0] ∧
    ((tFlip (tRun id) 0 5 3).sramRead 0 0 4).1 = none ∧ ((tFlip (tRun id) 0 5 3).sramWrite 0 0 [1, 2, 3, 4]).1 = false ∧
    ((tRun id).sramWrite 0 0 [1, 2, 3, 4]).1 = true ∧
    ((tConst (tRun id) 4095 7).readWord (.prog 0) 4095 0).1 = some 7 ∧
    ((State.reset.setMem (.prog 0) ((State.reset.mem (.prog 0)).putWord (.prog 0) 9 7 3)).readWord (.prog 0) 9 0).1 = none ∧
    bits 0x7F800000 23 8 = 255 ∧ bits 0x7F7FFFFF 23 8 ≠ 255 := by decide +kernel

theorem wit_write : (State.reset.mem .hbm).flips = [] ∧ State.reset.rd ECC_FLIP_CTRL_ARMED = 0 ∧
    (∀ t, MemId.sram 103 = .sram t ∨ MemId.sram 103 = .gsram t ∨ MemId.sram 103 = .prog t → t < State.reset.tiles.length) := by
  refine ⟨by decide +kernel, by decide +kernel, ?_⟩
  rintro t (h | h | h) <;> cases h
  decide +kernel

theorem wit_generators : ((((tS1 0x17FFFF).core 0).sreg 1).toNat ≤ 0x17FFFF) ∧ (0x17FFFF < (((tS1 0x180000).core 0).sreg 1).toNat) ∧
    (((tS1 65536).core 0).sreg 1).toNat = 65536 ∧ 65536 < (((tS1 65537).core 0).sreg 1).toNat ∧
    (((tS1 (BitVec.ofInt 32 (-2097152))).core 0).sreg 1).toInt = -2097152 ∧ 2097151 < (((tS1 2097152).core 0).sreg 1).toInt := by
  decide +kernel

/-- Tile 0 at word 5 with the loops `l` open. -/
def tLoops (l : List Loop) (due : Bool) : State := tRun (fun c => { c with pc := 5, loops := l, loopDue := due })

theorem wit_loops : (tLoops [] false).atIssue 0 = some (tLoops [] false) ∧ ((tLoops [] false).core 0).pc < 4095 ∧
    ((tLoops (List.replicate 4 ⟨1, 9, 0, 2⟩) false).core 0).loops.length = 4 ∧
    ((tLoops [⟨1, 5, 0, 2⟩] false).core 0).loops.any (fun l => l.last == 5) = true ∧
    ((tConst (tLoops [] false) 7 (2 ^ 24)).readWord (.prog 0) 7 0).1 = some (2 ^ 24) ∧
    (tLoops [⟨1, 4, 1, 2⟩, ⟨0, 4, 0, 2⟩] true).ready 0 = true ∧ ((tLoops [⟨1, 4, 1, 2⟩, ⟨0, 4, 0, 2⟩] true).core 0).loopDue = true := by
  decide +kernel

theorem wit_branches : (∃ x ∈ ((tLoops [⟨1, 5, 0, 2⟩] false).core 0).loops, x.last = ((tLoops [⟨1, 5, 0, 2⟩] false).core 0).pc) ∧
    ((tLoops [⟨1, 9, 1, 2⟩] false).core 0).loops.reverse[0]? = some ⟨1, 9, 1, 2⟩ ∧
    ((tLoops [⟨1, 9, 1, 2⟩] false).core 0).loops.reverse[3]? = none ∧
    ((tConst (tLoops [] false) 7 1).readWord (.prog 0) 7 0).1 = some 1 := by decide +kernel

theorem wit_vector : (tRun id).vopOk 0 0 ⟨1, 2, 3, 0, 0, true, 0⟩ = true ∧ (tL1 (tRun id)).vopOk 0 0 ⟨1, 2, 3, 3, 0, true, 0⟩ = false ∧
    (tRun id).vopOk 0 25 ⟨1, 2, 3, 1, 3, true, 0⟩ = true ∧ (tRun id).vopOk 0 24 ⟨1, 2, 3, 0, 0, false, 3⟩ = true ∧
    (tL1 (tRun id)).atIssue 0 ≠ none ∧ ((tRun id).sramRead 0 0 1).1 = some [0] ∧
    (0x17FFFF < ((tRun (fun c => { c with tbase := 0x17FF00, v := [0, 0, BitVec.ofNat 512 255] ++ c.v.drop 3 })).core 0).tbase + 256) ∧
    ((tFlip (tRun id) 0 5 3).sramRead 0 0 1).1 = none := by decide +kernel

/-- Tile 0 with generator 0 based at `b`. -/
def tGen (b : Nat) : State := tRun (fun c => c.setGen 0 { c.gen 0 with base := b })

theorem wit_vectorMemory : (((tGen 0x180000).core 0).gen 0).offset = 0x180000 ∧ (((tGen 32).core 0).gen 0).offset % 64 = 32 ∧
    (((tGen 0x17FFC0).core 0).gen 0).offset = 0x17FFC0 ∧ ((tGen 0x17FFC0).sramRead 0 0x17FFC0 64).1.isSome = true ∧
    ((tFlip (tRun id) 0 5 3).sramRead 0 0 64).1 = none ∧ (tL1 (tRun id)).level2 0 = false ∧ (tRun id).level2 0 = true := by
  decide +kernel

theorem wit_platen : fmtRow 0 ≠ none ∧ fmtRow 3 ≠ none ∧ fmtRow 0 ≠ fmtRow 15 ∧ ((tRun id).plat 0).active1 = false ∧
    ((((tGen 0).core 0).gen 0).draws 2).all (fun o => (drawCheck 64 o).isNone) = true ∧
    ((tGen 0).readDraws 0 ((((tGen 0).core 0).gen 0).draws 2)).2.1 = none := by decide +kernel

/-- Port `p` of tile 0 enabled with a galley of one KiB and COUNT 2, its tokens tagged `l`. -/
def tPort (s : State) (p : Nat) (l : List Nat) : State :=
  ((s.wr ((TILE_GCFG_EN.idx p).tile 0) 1).wr ((TILE_GCFG_CAP_KIB.idx p).tile 0) 1 |>.wr ((TILE_GCFG_COUNT_M1.idx p).tile 0) 1).modTile 0
    (fun x => { x with ports := { x.ports with g := modAt x.ports.g p (fun g => { g with tags := l }) } })

/-- A FIRE of input port 0 alone. -/
def tFireOp : FireOp := ⟨1, 0, false, false, 0, 0, false, false, false, false, false⟩

/-- A FIRE of vector register 0 on the platen. -/
def tFireP : FireOp := ⟨0, 0, true, false, 0, 0, true, false, false, false, false⟩

theorem wit_scaleBlock :
    let s := tPort (tPort (tRun id) 1 [3, 3]) 2 []
    s.atIssue 0 ≠ none ∧ s.level2 0 = true ∧ (s.portCfg 0 1).en = true ∧ (s.portCfg 0 2).en = true ∧ (s.portCfg 0 1).net = 0 ∧
    (s.portCfg 0 1).count = 2 ∧ s.avail 0 1 = 2 ∧ ((s.tile 0).ports.gal 1).tags.getD 0 0 = 3 ∧ (s.peekToken 0 1 0).1 = some 0 ∧
    ((tRun id).portCfg 0 1).en = false ∧ (tPort (tPort (tRun id) 1 [3]) 2 []).avail 0 1 < 2 ∧
    ((tPort (tRun id) 1 [3, 4]).tile 0).ports.g.any (fun g => g.tags.getD 0 0 != g.tags.getD 1 0) = true := by decide +kernel

theorem wit_fire : (tRun id).fireFault 0 tFireOp = some (8, none) ∧ (tPort (tRun id) 0 [1, 1]).fireFault 0 tFireOp = none ∧
    (tPort (tRun id) 0 [1, 1]).fireable 0 tFireOp = true ∧ (tPort (tRun id) 0 [1, 1]).tagDiffers 0 tFireOp = false ∧
    (tPort (tRun id) 0 [1]).fireable 0 tFireOp = false ∧
    (tPort (tRun (fun c => { c with waiting := some (.fire 0 tFireOp) })) 0 [1, 1]).dueFire 0 = some tFireOp ∧
    ((tPort (tRun (fun c => { c with waiting := some (.fire 0 tFireOp) })) 0 [1, 1]).movePorts 0 (firePorts tFireOp)).1 = none ∧
    (tRun (fun c => { c with waiting := some (.fire 0 tFireP) })).dueFire 0 = some tFireP ∧
    ((tRun id).fireX 0 tFireP).1 = some 0 := by decide +kernel

/-- Tile 0 whose s1 to s3 hold the requantise operands 1.0, 0 and the full range. -/
def tReq : State := tRun (fun c => ((c.setS 1 0x3F800000).setS 2 0).setS 3 0x007FFF80)

theorem wit_requantise : tReq.reqArgs 0 (.l2 0 0 1 false 5 1 true false false) ≠ none ∧
    ((tReq.reqArgs 0 (.l2 0 0 1 false 5 1 true false false)).any (fun a => a.ok && a.act != 3 && !a.dst)) = true ∧
    ((tReq.reqArgs 0 (.l2 0 3 1 true 1 1 true false false)).any (fun a => a.ok && a.act == 3 && a.dst)) = true ∧
    tReq.reqArgs 0 (.l2 0 0 9 false 5 1 true false false) = none ∧
    ((tReq.reqArgs 0 (.l2 0 0 1 false 5 4 true false false)).any (fun a => !a.ok)) = true ∧
    drawCheck 32 0x17FFE0 = none ∧ drawCheck 32 0x180000 ≠ none ∧ (tReq.core 0).tbase + 2111 ≤ 0x17FFFF ∧
    (tReq.sramRead 0 0 2112).1.isSome = true := by decide +kernel

/-- A legal copier descriptor: one element transposed from offset 0 to offset 64. -/
def tDesc : List Byte := [1, 1, 0, 0] ++ leBytes 4 0 ++ leBytes 4 64 ++ zeros 10 ++ leBytes 2 1 ++ leBytes 2 1 ++ zeros 22 ++
  leBytes 4 64 ++ leBytes 4 64 ++ zeros 8

/-- A legal copier descriptor of MODE 0: one byte of one pixel at offset 64 to a row at offset 128. -/
def tTap : List Byte := [0, 1, 7, 0] ++ leBytes 4 64 ++ leBytes 4 64 ++ leBytes 2 1 ++ leBytes 2 1 ++ zeros 4 ++ leBytes 2 1 ++ leBytes 2 1 ++
  leBytes 2 1 ++ [1, 1, 1, 1, 1, 1, 0, 0, 0, 0, 1, 1, 0, 0] ++ leBytes 2 0 ++ leBytes 2 1 ++ leBytes 2 0 ++ leBytes 2 1 ++
  leBytes 4 128 ++ leBytes 4 64 ++ zeros 8

theorem wit_copier : (copyDesc tDesc).ok = true ∧ (copyDesc tDesc).top ≤ 0x17FFFF ∧ tDesc.length = 64 ∧ (copyDesc (zeros 64)).ok = false ∧
    ((tRun id).sramRead 0 0x17FFC0 64).1 = some (zeros 64) ∧ ((tRun id).tile 0).jobs = [] ∧
    (let d := copyDesc tDesc
     0 < d.units.length ∧ (match ((tRun id).copyUnits 0 d [] (d.units.take d.units.length)).1 with
       | .ok _ => true
       | .error _ => false) = true ∧
     (match ((tFlip (tRun id) 0 5 3).copyUnits 0 d [] (d.units.take 1)).1 with
       | .ok _ => false
       | .error k => k == 0) = true) ∧
    (let d := copyDesc tTap
     d.ok = true ∧ d.mode = 0 ∧ d.elem = 1 ∧ d.units = [(0, 0, 0)] ∧ d.source 0 0 = some 64 ∧ d.source 0 1 = none ∧
     ((tRun id).sramRead 0 64 1).1 = some [0]) := by decide +kernel

/-- Every function ready, tile 0 held by slot 0, joined and powered, as are the domains of the whole device. -/
def tLive : State :=
  let s := (State.reset.setReg 0 SYS_FUNC_READY_REGS.addr 0xFFFFFFFF).wr (TILE_CFG_HELD.tile 0) 1
  { s with pwr := { s.pwr with joined := [0], on := (List.range 133).map (fun d => (d, true)) } }

/-- Tile 0 of that device RUNNING, with an access entry that grants slot 0 the quoins. -/
def tQuoin : State :=
  (tLive.modTile 0 (fun x => { x with st := .running })).setAcc (targetOf 0x0A10000000).1 0
    ⟨0xF0000000, 0, 0x1FFFF⟩

theorem wit_quoins : 2 ^ 17 ≤ (((tS1 0x20000).core 0).sreg 1).toNat ∧ tQuoin.atIssue 0 ≠ none ∧
    (tQuoin.accessCheck (tQuoin.tileMaster 0) (0x0A10000000 + 16 * 131071 + 4) 4 rightW).1 = true ∧
    (tQuoin.accessCheck (tQuoin.tileMaster 0) 0x0A10000000 4 rightR).1 = true ∧
    (tQuoin.accessCheck (tQuoin.tileMaster 0) 0x0A10000000 4 rightW).1 = true ∧
    ((tQuoin.setCount 0 5).qwait 0 5 (.tile 0)).1 = true ∧ (tQuoin.qwait 0 5 (.tile 0)).1 = false ∧
    ((tRun id).accessCheck ((tRun id).tileMaster 0) 0x0A10000004 4 rightW).1 = false ∧
    (tPort (tRun id) 7 []).atIssue 0 ≠ none ∧ ((tPort (tRun id) 7 []).portCfg 0 7).en = true := by decide +kernel

/-- Tile 0 with the control unit `c` in state `st`. -/
def tCtl (st : TileSt) (c : CtlUnit) (s : State) : State := s.modTile 0 (fun x => { x with st := st, ctl := c })

/-- One control route from the input facing engine into input 0 of tile 0 that marks port 0. -/
def tRoute (a : List CtlTok) (x : List Nat) (s : State) : State :=
  { s with fab := { s.fab with ctl := [{ slot := 0, src := .feIn 0, dst := .tile 0, k := 0, mask := 1, a := a, x := x }] } }

/-- A control unit whose input 0 has taken start and ticket of frame 9, ended as `e`. -/
def tUnit (e : Option Bool) (f : Option TFrame) : CtlUnit :=
  { inp := { start := some 0, ticket := some 9, ended := e } :: List.replicate 7 {}, frame := f }

theorem wit_stageFault : State.reset.rd (TILE_FAULT_VALID.tile 103) = 0 ∧ State.reset.rd LOAD_IMP_CTRL_FAULT_SCAN = 0 ∧
    (State.reset.wr (TILE_FAULT_VALID.tile 103) 1).rd (TILE_FAULT_VALID.tile 103) = 1 ∧
    (State.reset.wr (TILE_FAULT_VALID.tile 103) 1).inv = true ∧
    ((tCtl .running (tUnit none (some ⟨0, 9, false, false⟩)) State.reset).tile 0).ctl.frame = some ⟨0, 9, false, false⟩ ∧
    (tCtl .running (tUnit none (some ⟨0, 9, false, false⟩)) State.reset).inv = true := by decide +kernel

/-- The live device in debug mode with tile cores in scope. -/
def tDebug : State := (tLive.wr SEC_DEBUG_STATUS_ACTIVE 1).wr SEC_DEBUG_STATUS_SCOPE 15

theorem wit_debugCommands : tDebug.mayWrite 0x60 (tileCtrlAddr 0) 1 = true ∧ tDebug.mayWrite 0x60 (tileCtrlAddr 0) 2 = true ∧
    tDebug.mayWrite 0x60 (tileCtrlAddr 0) 4 = true ∧ tDebug.mayWrite 0x60 (tileCtrlAddr 0) 8 = true ∧ tDebug.haltOk 0 = true ∧
    tLive.haltOk 0 = false ∧ (tDebug.tile 0).st = .idle ∧
    (let s := tDebug.modTile 0 (fun x => { x with st := .halted, back := .running, ctl := tUnit none (some ⟨0, 9, false, false⟩) })
     let s := s.setMem (.prog 0) ((s.mem (.prog 0)).putWord (.prog 0) 0 0x0448C000 0)
     (s.tile 0).prog.look (.prog 0) (s.core 0).pc = .good 0x0448C000 ∧
     decodeSpindle (s.level2 0) 0 0x0448C000 = some (.add 0 1 2 3) ∧ (s.tile 0).ctl.frame.isSome = true) := by decide +kernel

theorem wit_controlTokens : (tRoute [.start 3] [] State.reset).ctlInto (.tile 0) 0 = some 0 ∧
    (tRoute [.start 3] [] State.reset).mayTake (.tile 0) 0 { slot := 0, src := .feIn 0, dst := .tile 0, k := 0, mask := 1, a := [.start 3] }
      (.start 3) = true ∧
    (tRoute [.start 3] [] (tCtl .running (tUnit (some false) none) State.reset)).mayTake (.tile 0) 0
      { slot := 0, src := .feIn 0, dst := .tile 0, k := 0, mask := 1, a := [.start 3] } (.start 3) = false ∧
    (tRoute [] [9] (tCtl .running (tUnit none (some ⟨0, 9, true, false⟩)) State.reset)).fab.ctl.map (·.x) = [[9]] ∧
    (9 : Nat) ∉ (tUnit none none).past ∧ (9 : Nat) ∉ (tUnit none none).pending := by decide +kernel

theorem wit_tileFrames :
    (let s := tRoute [] [] (tCtl .waitFrame (tUnit none none) State.reset)
     s.between 0 = true ∧ s.ctlInputs (.tile 0) = [0] ∧ (s.ctlIn 0 0).start = some 0 ∧ (s.ctlIn 0 0).ticket = some 9 ∧
     (s.ctlIn 0 0).ended = none ∧ s.unusable 0 = false) ∧
    (let s := tRoute [.frameEnd 9 false] [] (tCtl .running (tUnit none (some ⟨0, 9, false, false⟩)) State.reset)
     (s.ctlIn 0 0).start.isSome = true ∧ (s.ctlIn 0 0).eos = none ∧ s.delivered (.feIn 0) = true ∧ (s.tile 0).ports.g.length = 12) ∧
    (let s := tRoute [] [] (tCtl .running (tUnit (some false) (some ⟨0, 9, false, true⟩)) State.reset)
     s.frameEnded 0 = true ∧ s.shipped 0 = true ∧ s.atIssue 0 ≠ none ∧ (s.core 0).loops = []) ∧
    (tLoops [⟨1, 9, 0, 2⟩] false).atIssue 0 ≠ none ∧ ((tRoute [] [] (tRun id)).frameEnded 0 = false) := by decide +kernel

/-- One data route from stream engine 0 to feed 0 of port 0 of tile 0 with `c` credits, its lane holding `l`. -/
def tData (c coming : Nat) (l : List Token) (todo : List Nat) : State :=
  { State.reset with fab := { State.reset.fab with routes :=
    [{ slot := 0, src := .eng 0, scalar := false, recvs := [{ dst := .port 0 0 0, credits := c, coming := coming, lane := l }], todo := todo }] } }

theorem wit_fabric : (tData 0 1 [] []).fab.routes.length = 1 ∧ (tData 0 0 [] []).credited 1 ((tData 0 0 [] []).group 0) = false ∧
    (tData 1 0 [] [7]).credited 1 ((tData 1 0 [] [7]).group 0) = true ∧ (tData 1 0 [] [7]).endPending (.eng 0) = false ∧
    (tData 1 0 [⟨7, 3⟩] []).feedRecv 0 0 0 = some (0, 0) ∧ (tData 1 0 [⟨7, 3⟩] []).isLoopIn 0 0 = false ∧
    (tData 1 0 [⟨7, 3⟩] []).discarding 0 0 = false ∧
    ((tData 1 0 [⟨7, 3⟩] []).modTile 0 (fun x => { x with ports := { x.ports with loop := { on := true } :: x.ports.loop } })).isLoopIn 0 0
      = true := by decide +kernel

/-- Steering unit 0 of switch 1 with one input block of one token and its STEER for input 0. -/
def tSteer (sel : Option Nat) (l : List Token) : State :=
  { State.reset with fab := { State.reset.fab with
    steers := [{ sw := 1, k := 0, slot := 0, unit := 0, inputs := 1, block := 1, sel := sel, frame := some 9 }]
    routes := [{ slot := 0, src := .eng 0, scalar := false, recvs := [{ dst := .steer 1 0 0, credits := 0, lane := l }] },
      { slot := 0, src := .steer 1 0, scalar := false, recvs := [{ dst := .port 0 0 0, credits := 1 }] }] } }

theorem wit_steering : ((tSteer (some 0) [⟨7, 3⟩]).steerer 1 0).isSome = true ∧
    ((tSteer (some 0) [⟨7, 3⟩]).steerInputs 1 0 1).filterMap id = [(0, 0)] ∧
    (tSteer (some 0) [⟨7, 3⟩]).laneAt (0, 0) = [⟨7, 3⟩] ∧
    (tSteer (some 0) [⟨7, 3⟩]).credited 1 ((tSteer (some 0) [⟨7, 3⟩]).steerOut 1 0) = true ∧
    (tSteer none []).laneAt (0, 0) = [] ∧ (tSteer none []).endPending (.steer 1 0) = false := by decide +kernel

/-- A frame in flight in slot 0 with ticket 9. -/
def tFlight (f : Flight → Flight) (s : State) : State :=
  { s with adm := { s.adm with flights := [f { ticket := 9, ctx := 0, fidx := 0, slot := 0 }] } }

theorem wit_deadlock :
    (let s := tFlight id (State.reset.modSlot 0 (fun x => { x with overridden := true, st := 2 }))
     (s.slot 0).overridden = true ∧ 2 ≤ (s.slot 0).st ∧ 0 < s.inFlight 0 ∧
     (s.slot 0).progress + s.rd LOAD_WDOG_PERIOD_PERIOD_US * 1000 ≤ s.now + 2 ^ 32) ∧ State.reset.inFlight 0 = 0 := by decide +kernel

/-- A watch report of tile 0 for ticket 9, its slot's directory naming stage 1, unit 0. -/
def tReport : State :=
  let s := State.reset.modSlot 0 (fun x => { x with placed := [⟨0, 1, 0, 0, 0, 0, 0⟩], dir := [⟨1, 0, 1, 127, 0, false, 0, 0, 0⟩], st := 2 })
  let s := s.setCtx 0 { st := 2 }
  { s with adm := { s.adm with reports := [⟨9, 0, 0, 0, 0, 1, { lanes := 100000 }, 0, 0⟩], flips := [⟨0, 0, 0, 1, 0, 0⟩] } }

theorem wit_scales : tReport.adm.reports.length = 1 ∧ tReport.flightOf 9 = none ∧ tReport.roleHeld tReport.admCore = true ∧
    tReport.stageOf ⟨9, 0, 0, 0, 0, 1, { lanes := 100000 }, 0, 0⟩ = some (1, 0) ∧
    tReport.reportLive ⟨9, 0, 0, 0, 0, 1, { lanes := 100000 }, 0, 0⟩ = true ∧ (9, 0) ∉ tReport.adm.dropped ∧
    tReport.rd GOV_SCALE_MIN_LANES_LANES ≤ (combineReports tReport.adm.reports).lanes ∧ (tFlight id tReport).flightOf 9 ≠ none ∧
    (tReport.ctx 0).st = 2 ∧ (tReport.ctx 0).eosDone = false ∧ tReport.adm.flights = [] ∧
    ¬ (0 < (combineReports ([] : List Report)).lanes) := by decide +kernel

/-- Both facing roles held by engines that are on. -/
def tFacing : State := (tLive.wr LOAD_FE_ROLE_INPUT 0).wr LOAD_FE_ROLE_OUTPUT 1 |>.wr LOAD_FE_ROLE_SPARE 2

theorem wit_facing : tFacing.facingHeld = true ∧ tFacing.face.sending = none ∧ tFacing.eosDue = none ∧
    (tFacing.setCtx 5 { st := 3 }).eosDue = some 5 ∧ (tFlight id tFacing).nextFrame.isSome = true ∧
    tFacing.outReady 0 = none ∧
    (let s := { tFlight id tFacing with
        fab := { tFacing.fab with ctl := [{ slot := 0, src := .port 0 8, dst := .fe, k := 0 }] } }
     let s := s.modFeIn 0 (fun i => { i with ticket := some 9, ended := some true })
     s.outReady 0 = some ({ ticket := 9, ctx := 0, fidx := 0, slot := 0 }, true)) ∧
    tFacing.unusable 104 = false ∧ tFacing.rd LOAD_FE_ROLE_SPARE = 2 ∧ (tFacing.wr LOAD_FE_ROLE_SPARE 3).rd LOAD_FE_ROLE_SPARE = 3 ∧
    tFacing.inv = true ∧ 106 < tFacing.health.units.length := by decide +kernel

/-- A resident forme of two impressions in slot 0 with the sequencer state `i`. -/
def tMulti (i : ImpSt) : State :=
  State.reset.modSlot 0 (fun x => { x with multi := true, st := 2, imp := { i with count := 2 } })

theorem wit_impressions :
    (let s := tMulti { waiting := [9] }
     (s.slot 0).multi = true ∧ (s.slot 0).imp.round = [] ∧ (s.slot 0).imp.waiting ≠ [] ∧ (s.slot 0).tiles = [] ∧
     (s.slot 0).imp.hostGate = false) ∧
    (let s := tMulti { round := [(9, false)] }
     (s.slot 0).imp.round ≠ [] ∧ s.flightOf 9 = none ∧ (s.slot 0).imp.waiting = []) ∧
    (let c : CutStream := { imp := 0, cut := 0, tile := 0, port := 8, spill := true, row0 := 0, rows := 1, fslot := 1 }
     let s := tMulti { round := [(9, false)], streams := [c] }
     (s.slot 0).imp.streams[0]? = some c ∧ c.fslot = (s.slot 0).imp.round.length) ∧
    (let c : CutStream := { imp := 1, cut := 0, tile := 0, port := 0x81, spill := false, row0 := 0, rows := 1 }
     let s := (tMulti { round := [(9, false)], streams := [c], passed := [0] }).seqNext 0 1
     0 ∈ (s.slot 0).imp.passed ∧ (s.slot 0).imp.streams = [c] ∧ s.refillReady 0 0 c = true) ∧
    (let s := (tMulti { round := [(9, false)] }).wr (TILE_CFG_HELD.tile 0) 1 |>.modSlot 0 (fun x => { x with tiles := [0, 1] })
     let s := s.modTile 1 (fun x => { x with imp := 1 })
     s.tileSlot 0 = some 0 ∧ s.drainedTile 0 0 = true ∧ s.mayLeave 0 0 = true ∧ (s.tile 0).wave = (s.tile 1).wave ∧
     s.switchDrained 0 0 0 = true ∧ (s.slot 0).imp.store.find? (fun y => y.imp == 1 && y.phys == 0) = none ∧
     ((s.modTile 1 (fun x => { x with wave := 1 })).tile 0).wave < ((s.modTile 1 (fun x => { x with wave := 1 })).tile 1).wave ∧
     ((s.modImp 0 (fun i => { i with round := [] })).mayLeave 0 0) = false) := by decide +kernel

theorem wit_governor : (min 1023 ([900].foldl min 2000) = 900) ∧ State.reset.rd GOV_PACE_STATUS_BELOW = 0 ∧
    (State.reset.wr GOV_PACE_STATUS_BELOW 1).rd GOV_PACE_STATUS_BELOW = 1 ∧ (State.reset.wr GOV_PACE_STATUS_BELOW 1).inv = true ∧
    State.reset.rd GOV_PACE_FLOOR_FLOOR * (1024 + 2 * State.reset.rd GOV_PACE_FLOOR_GUARD) ≤ 1023 * 1024 ∧
    State.reset.pwr.stepSince = none ∧ State.reset.rd GOV_THERM_LEVEL < 8 ∧ 3 ≤ State.reset.rd GOV_THERM_SHED_C := by
  decide +kernel

/-- One whole input of context 0 that waits, and its decision. -/
def tWait (s : State) : State := { s with adm := { s.adm with waiting := [⟨0, 0, 0, 0, 0, 0⟩] } }

theorem wit_admission : (tWait tFacing).power = 0 ∧ (tWait tFacing).refusal ⟨0, 0, 0, 0, 0, 0⟩ 0 = some 7 ∧
    (tWait (tFacing.modSlot 0 (fun x => { x with st := 2, maxCtx := 4 }))).refusal ⟨0, 0, 0, 0, 0, 0⟩ 0 = none ∧
    (tWait (tFacing.wr PWR_STATUS_STATE 2)).power = 2 ∧
    (({ tWait tFacing with base := 2 ^ 40 }).rd GOV_ADMIT_WAIT_WAIT_US * 1000 < 2 ^ 40) ∧
    (tFlight (fun f => { f with deadline := 5 }) State.reset).flightOf 9 ≠ none ∧
    (tFlight (fun f => { f with contract := true, o := 3, deadline := 5 }) tFacing).adm.flights.all (fun f => decide (f.o ≤ f.deadline))
      = true ∧
    (tFlight (fun f => { f with deadline := 5 }) State.reset).starvedUnit 9 = none := by decide +kernel

theorem wit_time : tLive.mayWrite 0x60 TIME_STEP_NS.addr 0xFFFFFFFF = true ∧ tLive.ppsEdge = none ∧
    ({ tLive with ppsEdge := some 0, base := 100000000 } : State).inv = true := by decide +kernel

theorem wit_registerAccesses : tLive.mayWrite 0x60 LOAD_WDOG_PERIOD_PERIOD_US.addr 1000 = true ∧
    (tLive.regAct 0x60 LOAD_WDOG_PERIOD_PERIOD_US.addr 1000).1 = true ∧ tLive.inv = true ∧
    tLive.mayWrite 0x60 ACCESS_CMD_WRITE.addr 1 = true ∧ ((tLive.wrc (1 + 0x60) ACCESS_SEL_ENTRY 63).regAct 0x60 ACCESS_CMD_WRITE.addr 1).1 = false ∧
    place LOAD_WDOG_PERIOD_PERIOD_US.addr 4 = .reg ∧ regAccepts LOAD_WDOG_PERIOD_PERIOD_US.addr 0x10000 = false ∧
    place 0x0A20000000 4 = .none ∧ State.reset.reachable 0x60 LOAD_WDOG_PERIOD_PERIOD_US.addr 4 = false ∧
    tLive.reachable 0x60 MGMT_DROP_COUNT.addr 4 = true ∧ tLive.granted 0x60 MGMT_DROP_COUNT.addr 4 rightR = true := by decide +kernel

theorem wit_denied : tLive.reachable 0 LOAD_WDOG_PERIOD_PERIOD_US.addr 4 = true ∧
    tLive.granted 0 LOAD_WDOG_PERIOD_PERIOD_US.addr 4 rightW = false ∧ tLive.rd ACCESS_DENY_INFO_VALID = 0 ∧
    (tLive.wr ACCESS_DENY_INFO_VALID 1).rd ACCESS_DENY_INFO_VALID = 1 ∧ (tLive.wr ACCESS_DENY_INFO_VALID 1).inv = true := by decide +kernel

theorem wit_protection : tLive.mayWrite 0x60 REGION_ENTRY_P.addr 0x80000000 = true ∧ bit 0x80000000 31 = true ∧ bit 0x80000000 29 = false ∧
    tLive.mayWrite 0x60 REGION_SUB_P.addr 0x80000000 = true ∧
    ({ tLive with prot := { tLive.prot with region := [(0, 0xC0000000)], sub := [(0, 0xC0000000)] } } : State).mayWrite 0x60
      REGION_ENTRY_P.addr 0x80000001 = true ∧ bit 0xC0000000 30 = true ∧ bits 0xC0000000 0 13 ≠ bits 0x80000001 0 13 ∧
    tLive.mayWrite 0x60 REGION_SUB_P.addr 0x80000001 = true ∧
    tLive.mayWrite 0x60 ACCESS_CMD_WRITE.addr 1 = true ∧ tLive.mayWrite 0x60 ACCESS_CMD_READ.addr 2 = true ∧
    tLive.rdc 0x61 ACCESS_SEL_ENTRY ≠ 63 ∧ tLive.rdc 0x61 ACCESS_E2_LIMIT * 64 < targetSize (tLive.rdc 0x61 ACCESS_SEL_TARGET) ∧
    (tLive.wrc 0x61 ACCESS_SEL_ENTRY 63).rdc 0x61 ACCESS_SEL_ENTRY = 63 := by decide +kernel

/-- A scrub of one code word block of commons under way. -/
def tScrub : State := { tLive with scrub := some { next := 0x0800000000, stop := 0x0800000040, hard := [] } }

theorem wit_ecc : tLive.mayWrite 0x60 ECC_FLIP_CTRL_ARM.addr 1 = true ∧ tLive.flipMask = 0 ∧
    (tLive.wr ECC_FLIP_MASK0_BITS 1).flipMask = 1 ∧ codeWord 0x0900000000 = some (.sram 0, 0) ∧
    tLive.mayWrite 0x60 ECC_FLIP_CTRL_DISARM.addr 2 = true ∧ tLive.mayWrite 0x60 ECC_SCRUB_CTRL_START.addr 1 = true ∧
    tLive.scrubOk = false ∧ ((tLive.wr ECC_SCRUB_LEN_UNITS 1).wr ECC_SCRUB_BASE_HI_ADDR 8).scrubOk = true ∧
    tLive.mayWrite 0x60 ECC_SCRUB_CTRL_ABORT.addr 2 = true ∧ tLive.health.hardSeen = [] ∧
    (tScrub.scrubOn ⟨0x0800000000, 0x0800000040, []⟩ 64).health.hardSeen = [] ∧
    (tScrub.scrubOn ⟨0x0800000000, 0x0800000040, []⟩ 64).inv = true ∧
    ((tFlip (tRun id) 0 5 0).mem (.sram 0)).isValid (.sram 0) 0 = true ∧ ((tFlip (tRun id) 0 5 1).mem (.sram 0)).flip 0 = 1 ∧
    popCount 72 (((tFlip (tRun id) 0 5 3).mem (.sram 0)).flip 0) = 2 ∧ (tFlip (tRun id) 0 5 3).inv = true ∧
    ((tRun id).mem (.sram 0)).isValid (.sram 0) 0 = false := by decide +kernel

/-- Stream engine 0 in state `st`. -/
def tEng (st : Nat) (s : State) : State := s.modEng 0 (fun x => { x with st := st })

theorem wit_streams : tLive.engUser 0 0x60 = true ∧ tLive.mayWrite 0x60 (STREAM_ENG_CTRL_START.idx 0).addr 1 = true ∧
    tLive.mayWrite 0x60 (STREAM_ENG_CTRL_START.idx 0).addr 2 = true ∧ tLive.mayWrite 0x60 (STREAM_ENG_CTRL_START.idx 0).addr 4 = true ∧
    tLive.mayWrite 0x60 (STREAM_ENG_CTRL_START.idx 0).addr 8 = true ∧ tLive.mayWrite 0x60 (STREAM_ENG_CTRL_START.idx 0).addr 16 = true ∧
    (tLive.engine 0).st = 0 ∧ (tLive.engStart 0).secondDrain 0 = false ∧ ((tEng 6 tLive).engine 0).st = 6 ∧
    (tEng 1 tLive).engRunning 0 = true ∧ tLive.engRunning 0 = false ∧
    (let s := tLive.modEng 0 (fun x => { x with st := 1, batch := [zeros 64] })
     ((s.engine 0).desc.isSome = true)) := by decide +kernel

theorem wit_galleys : (tLive.cgalCfg 1 0).pkt = false ∧ (tLive.cgalCfg 1 0).en = false ∧ tLive.ing.length = 16 ∧
    tLive.mayWrite 0x60 STREAM_GCMD_DROP.addr 1 = true ∧ tLive.mayWrite 0x60 STREAM_GCMD_RESET.addr 2 = true ∧
    (tLive.wrc 0x61 STREAM_GSEL_KIND 1).rdc 0x61 STREAM_GSEL_KIND = 1 ∧
    (let s := ((tLive.wrc (1 + galKey 1 0 0) STREAM_GCFG_EN 1).wrc (1 + galKey 1 0 0) STREAM_GSIZE_CAP_KIB 1)
     (s.cgalCfg 1 0).en = true ∧ 4 ≤ s.cgalFree 1 0 ∧ s.cgalFree 1 0 < 4 * ceilDiv 1028 4 ∧
     ((s.wrc (1 + galKey 1 0 0) STREAM_GCFG_PKT 1).cgalCfg 1 0).pkt = true) := by decide +kernel

theorem wit_netPorts : tLive.mayWrite 0x60 (NET_CFG_MODE.net 0).addr (1518 * 2 ^ 18) = true ∧ fecFits 0 0 = true ∧ fecFits 1 0 = false ∧
    tLive.mayWrite 0x60 (NET_CFG_MODE.net 0).addr (1518 * 2 ^ 18 + 1) = true ∧ 0 < modeLinks ((tLive.wr (NET_CFG_MODE.net 0) 1).rd (NET_CFG_MODE.net 0)) ∧
    modeLinks (tLive.rd (NET_CFG_MODE.net 0)) = 0 ∧ tLive.mayWrite 0x60 (NET_PTP_TX_CTRL_SEND.net 0).addr (2 ^ 31 + 60) = true ∧
    tLive.rd (NET_PTP_TX_CTRL_BUSY.net 0) = 0 ∧ bits (2 ^ 31 + 60) 0 9 = 60 ∧ (tLive.wr (NET_STATUS_LINK_UP.net 0) 1).linkUp 0 0 = true ∧
    tLive.mayWrite 0x60 (NET_PTP_RXQ_POP.net 0).addr (2 ^ 31) = true ∧ (tLive.port 0).rxCount = 0 ∧
    ((tLive.modNet 0 (fun x => { x with rxCount := 1, txWait := some (0, []) })).port 0).rxCount ≠ 0 := by decide +kernel

/-- A decoded picture of two by two samples, 8-bit, 4:2:0. -/
def tPic : Picture := ⟨2, 2, 8, [[[1, 2], [3, 4]], [[5]], [[6]]]⟩

theorem wit_ingest :
    (let s := tLive.wr (NET_STATUS_LINK_UP.net 0) 15
     s.netReady 0 = true ∧ s.linkUp 0 3 = true ∧ s.rxCheck 0 3 false [] = .drop 0 ∧ s.rxCheck 0 3 true [] = .drop 1 ∧
     524288 < 524287 + (zeros 2).length) ∧
    tLive.linkUp 0 0 = false ∧ tLive.decQ.getD 0 [] = [] ∧
    (let g : Ingest := { held := [⟨1, 4, 0, true, 0, 0, [], 0⟩] }
     let s := { tLive.setCtx 0 { st := 2, ing := g } with base := 2 ^ 40 }
     s.ctxs.length = 1 ∧ (s.ctx 0).st = 2 ∧ g.units = [4] ∧ g.complete 4 = false ∧ g.held.find? (fun p => p.au == 4) ≠ none ∧
     0 + s.ictx 0 NET_CTX_JB_JB_TIMEOUT * 100000 ≤ s.base) ∧
    (let s := ({ tLive with decQ := [[8197]] } : State).setCtx 5 { st := 2, ing := { st := 1, aus := [⟨2, 0, 0, [], []⟩] } }
     s.decQ.getD 0 [] = [8197] ∧ 8197 % 4096 = 5 ∧ (s.ctx 5).ing.aus.find? (fun u => u.seq == 8197 / 4096) = some ⟨2, 0, 0, [], []⟩ ∧
     s.unusable 107 = false ∧ (s.ctx 5).jbCount = 0 ∧ (s.ctx 5).ing.part = none ∧ 0 ≤ s.ictx 5 NET_CTX_DEC_DPB_FRAMES ∧
     codedOk (s.ictx 5 NET_CTX_CFG_PAYLOAD) tPic = true ∧ 0 % (s.ictx 5 NET_CTX_PIC_OUT_DIV_M1 + 1) = 0 ∧
     indexOf? (fun y => y == BufSt.free) ((s.modCtx 5 (fun x => { x with bufs := [.claimed, .free] })).ctx 5).bufs = some 1 ∧
     (match exec (.auDecode 0 (.pictures false 0 [(0, tPic)])) s with
       | .next w => (w.ctx 5).ing.st == 1 && (w.ctx 5).ing.aus == [] && w.decQ == [[]]
       | _ => false) = true ∧
     ((s.modIng 5 (fun g => { g with early := some 2, aus := [] })).ctx 5).ing.early = some (8197 / 4096)) ∧
    tLive.mayWrite 0x60 0x0A00091004 (2 ^ 27 + 4095) = true ∧ vidOk 1 4094 = true ∧ vidOk 1 4095 = false ∧
    tLive.mayWrite 0x60 0x0A0009103C 0 = true ∧ (tLive.ctx 0).st < 2 ∧ (tLive.setCtx 0 { st := 2 }).rdc 0x61 NET_CTX_SEL_CTX = 0 ∧
    (tLive.setFields 0x60 0x0A0009103C 0).ictx 0 NET_CTX_CFG_EN = 0 ∧ evenOk 0x0A0009103C 0 = true := by decide +kernel

/-- Result galley 0 with one record of eight bytes, bound to network port 0, the stream port and USB. -/
def tResult : State :=
  let s := ((tLive.wrc 1 (NET_RES_CFG_EN.net 0) 1).wr (NET_STATUS_LINK_UP.net 0) 15).wrc 1 CTX_RES_CFG_USB 1
  let s := (s.wr SPORT_CFG_EN 1).wr SPORT_STATUS_ALIGNED 1 |>.wrc 1 SPORT_RES_CFG_EN 1 |>.wr USB_STATUS_CONFIGURED 1
  let s := s.wrc (1 + galKey 2 0 0) STREAM_GSIZE_CAP_KIB 1
  s.modCgal 2 0 (fun x => { x with pkts := [{ slots := 1, len := 8 }], wptr := 2 })

theorem wit_results : tResult.resultTurn 0 = some 0 ∧ (tResult.port 0).txWait = none ∧ tResult.resultReady 0 0 = true ∧
    tLive.resultTurn 0 = none ∧ tResult.spTurn = some 0 ∧ (tResult.ringRead 2 0 0 8 0x51).1 = some (zeros 8) ∧
    8 ≤ 0 + min (tResult.resultMtu 0 0) (8 - 0) ∧ ((tResult.wr (NET_CFG_MAX_FRAME.net 0) 70).resultMtu 0 0) < 8 ∧
    (({ tResult with sport := { tResult.sport with left := 7 } } : State).sport.left < 8) ∧
    (({ tResult.modCgal 2 0 (fun x => { x with pkts := [{ slots := 3, len := 20 }], wptr := 5 }) with
      sport := { tResult.sport with left := 8 } } : State).headPacket 2 0 0xFF).1 = some (zeros 20) ∧
    tResult.rdc 1 (NET_RES_CFG_EN.net 0) = 1 ∧ tResult.linkUp 0 (tResult.rdc 1 (NET_RES_CFG_LINK.net 0)) = true ∧
    (tResult.cgal 2 0).pkts ≠ [] ∧ (tResult.headPacket 2 0 0x51).1 = some (zeros 8) ∧ tResult.linked false = true ∧
    tResult.usbGalley = some 0 ∧ tResult.rd SPORT_STATUS_XOFF_IN = 0 ∧ tResult.rdc 1 SPORT_RES_CFG_EN ≠ 0 ∧
    tResult.rd SPORT_STATUS_STALLED = 0 ∧ tResult.sport.sending = none ∧ (tResult.wr SPORT_STATUS_XOFF_IN 1).rd SPORT_STATUS_XOFF_IN = 1 ∧
    4 * ceilDiv 8 4 ≤ 512 ∧ tLive.linked false = false ∧ tResult.inv = true := by decide +kernel

/-- A whole record of four bytes on channel 15 with CRC `c`. -/
def tRec (c : Nat) : SpRec := { ch := 15, seq := 1, payload := zeros 4, crc := c, kind := .whole }

theorem wit_streamPort :
    (let s := (tLive.wr SPORT_CFG_EN 1).wr SPORT_STATUS_LOCK 15 |>.wr SPORT_STATUS_ALIGNED 1
     s.inv = true ∧ s.rd SPORT_CFG_EN = 1 ∧ s.rd SPORT_STATUS_LOCK % 2 ^ s.lanes = 2 ^ s.lanes - 1 ∧ 0 < s.lanes ∧
     s.rd SPORT_STATUS_ALIGNED = 1 ∧ s.sport.cur = none ∧ s.rd (SPORT_CH_EN.idx 15) = 0 ∧
     (s.wr (SPORT_CH_EN.idx 15) 1).rd (SPORT_CH_EN.idx 15) ≠ 0 ∧ s.rd SPORT_STATUS_XOFF_IN = 0) ∧
    (let s := tLive.wr SPORT_CFG_EN 1
     s.rd SPORT_STATUS_LOCK % 2 ^ s.lanes ≠ 2 ^ s.lanes - 1 ∧ s.rd SPORT_STATUS_ALIGNED ≠ 1 ∧
     ((s.modLane 0 (fun x => { x with good := 63 })).lane 0).good = 63 ∧ (s.lane 0).good < 63 ∧
     (((s.modLane 0 (fun x => { x with recent := List.replicate 15 false })).lane 0).recent.take 63).filter (fun x => !x) =
       List.replicate 15 false ∧ ((s.setLock 0 true).rd SPORT_STATUS_LOCK).testBit 0 = true) ∧
    spCrc 15 1 (zeros 4) = (tRec (spCrc 15 1 (zeros 4))).crc ∧ spCrc 15 1 (zeros 4) ≠ (tRec (spCrc 15 1 (zeros 4) + 1)).crc ∧
    (let s := { tLive.wr SPORT_CFG_EN 1 with base := 2 ^ 40, sport := { cur := some (tRec 0), xoffSince := some 0 } }
     s.sport.since + s.rd SPORT_CFG_REC_TIMEOUT * 1000 ≤ s.base ∧ 0 + s.rd SPORT_EGR_XOFF_TIMEOUT * 1000 ≤ s.base) := by decide +kernel

theorem wit_burl : tLive.mayWrite 0x60 BURL_CTRL_LOAD.addr (2 + 16 * tLive.rd BURL_CTRL_HOLD_RELEASE) = true ∧ tLive.burl.st = 0 ∧
    (tLive.powerUp [127]).1 = true ∧ tLive.mayWrite 0x60 BURL_CTRL_LOAD.addr (8 + 16 * tLive.rd BURL_CTRL_HOLD_RELEASE) = true ∧
    tLive.mayWrite 0x60 BURL_CTRL_LOAD.addr (4 + 16 * tLive.rd BURL_CTRL_HOLD_RELEASE) = true ∧ tLive.bridgeOn 0 2 = false ∧
    (let s := (tLive.modBurl (fun b => { b with st := 4, writes := true })).setReg 1 BURL_QCFG_EN.addr 0
     let s := ((s.wrc 1 BURL_QCFG_EN 1).wrc 1 BURL_QCFG_MODE 2)
     s.burl.st = 4) ∧
    tLive.mayWrite 0x60 BURL_CAPTURE_ARM.addr (2 ^ 31 + 1) = true ∧ tLive.mayWrite 0x60 BURL_CAPTURE_ARM.addr 0 = true ∧
    tLive.rd BURL_CAPTURE_BUSY = 0 ∧ tLive.io.bank.getD 3 0 = 0 ∧ tLive.burl.fired = false ∧
    ({ tLive with base := 100000, io := { tLive.io with bank := [1, 0, 0, 0] } } : State).bankLive 0 = true := by decide +kernel

/-- The live device with firmware running and an open USB session. -/
def tHost : State :=
  let s := (tLive.wr USB_STATUS_CONFIGURED 1).wr MGMT_STATUS_LINK_UP 1 |>.wr MGMT_STATUS_ADDR_VALID 1
  { s with fw := { s.fw with running := true }, host := { s.host with usb := { isOpen := true, lost := 1 } } }

theorem wit_host : tHost.linked false = true ∧ tHost.linked true = true ∧ (tHost.sess false).waitQ = none ∧ (tHost.sess false).isOpen = true ∧
    (tHost.sess true).isOpen = false ∧ (tHost.sess false).restricted = false ∧ memForm false 0x0900000000 256 = true ∧
    memForm false 0x0900000001 4 = false ∧ 256 ≤ 256 - 0x0900000000 % 256 ∧ tHost.fw.running = true ∧
    (({ tHost with base := 30000000000 } : State).setSess true { isOpen := true }).host.mgmt.lastReq + 30000000000 ≤ 30000000000 ∧
    (tHost.sess false).events.length < 1024 ∧ tHost.datagramDue = false ∧
    (tHost.setSess true { isOpen := true, events := List.replicate 32 (0, ⟨0, 0, 0, 0, 0, 0, 0⟩) }).datagramDue = true ∧
    (tHost.setSess false { isOpen := true, waitQ := some (⟨false, 1, 0, .right⟩, 5, 0) }).host.usb.waitQ = some (⟨false, 1, 0, .right⟩, 5, 0) ∧
    (⟨true, 1, 0, .wrongHeader⟩ : HostHdr).form ≠ .right ∧ (⟨false, 1, 0, .wrongLength⟩ : HostHdr).form ≠ .right := by
  decide +kernel

theorem wit_attach : tLive.rd SYS_FUNC_READY_USB = 1 ∧ tLive.mayWrite 0x60 USB_CTRL_MAX_SPEED.addr 1 = true ∧
    tLive.mayWrite 0x60 MGMT_CFG_STATIC.addr 2 = true ∧ tLive.mayWrite 0x71 MGMT_CFG_STATIC.addr 2 = false ∧
    (tLive.setAcc (targetOf MGMT_CFG_STATIC.addr).1 0 ⟨0xF0007171, 0, 0x3FF⟩).mayWrite 0x71 MGMT_CFG_STATIC.addr 2 = true ∧
    (tLive.wr MGMT_CFG_STATIC 1).mayWrite 0x60 (MGMT_CFG_STATIC.addr + 8) 7 = true ∧
    (tLive.wr MGMT_CFG_STATIC 1).rd MGMT_CFG_STATIC = 1 ∧ tLive.rd MGMT_CFG_STATIC = 0 ∧ maskOk 0x00FF00FF = false ∧
    tHost.rd MGMT_STATUS_LINK_UP = 1 ∧ tLive.fw.running = false := by decide +kernel

/-- A resident slot 0 and context 0 in state `st`. -/
def tCtx (st : Nat) : State :=
  ((tLive.modSlot 0 (fun x => { x with st := 2, contract := true, maxCtx := 4 })).setCtx 0 { st := st }).wrc 1 CTX_BIND1_LIMIT_US 5

theorem wit_contexts : (tCtx 0).mayWrite 0x60 CTX_CMD_BIND.addr 1 = true ∧ (tCtx 0).freeFidx 0 = some 0 ∧ (tCtx 0).limitNs 0 = 5000 ∧
    (tCtx 0).isContract 0 = false ∧ ((tCtx 0).wrc 1 CTX_BIND0_CONTRACT 1).isContract 0 = true ∧
    (tCtx 0).rdc (1 + (tCtx 0).resultGalley 0) CTX_RES_CFG_POLICY = 3 ∧ (tLive.slot 0).st ≠ 2 ∧
    ((tCtx 0).wrc 1 CTX_RES_CFG_POLICY 1).rdc 1 CTX_RES_CFG_POLICY ≠ 3 ∧
    (tCtx 1).mayWrite 0x60 CTX_CMD_BIND.addr 2 = true ∧ (tCtx 1).mayWrite 0x60 CTX_CMD_BIND.addr 4 = true ∧
    (tCtx 2).mayWrite 0x60 CTX_CMD_BIND.addr 8 = true ∧ (tCtx 1).rd SYS_FUNC_READY_DATA_PLANE = 1 ∧
    ((tCtx 3).setCtx 0 { st := 3, eosDone := true }).ctxs.length = 1 := by decide +kernel

/-- The plan of a forme with nothing in it, for slot 7. -/
def tPlan : LoadPlan := ⟨formeOf [], 7, 0, [], [], [], [], [], [], [], 0, [], 0, 0, [], 0, [], false, false⟩

theorem wit_formes : tLive.mayWrite 0x60 LOAD_CTRL_SLOT.addr (tLive.ctrlWord (2 ^ 16)) = true ∧ bit (tLive.ctrlWord (2 ^ 16)) 16 = true ∧
    bit (tLive.ctrlWord (2 ^ 16)) 17 = false ∧ tLive.rd LOAD_STATUS_BUSY ≠ 1 ∧
    (match (tLive.tryLoad 0 tLive.imageAddr false (tLive.rd LOAD_CTRL_TILE_LIMIT) false false 0).1 with
      | .error _ => true
      | .ok _ => false) = true ∧
    (tLive.wr LOAD_STATUS_BUSY 1).rd LOAD_STATUS_BUSY = 1 ∧ tLive.mayWrite 0x60 LOAD_CTRL_SLOT.addr (tLive.ctrlWord (2 ^ 17)) = true ∧
    bit (tLive.ctrlWord (2 ^ 17)) 17 = true ∧ (tLive.modSlot 0 (fun x => { x with st := 3 })).drained 0 = true ∧
    (tFlight id tLive).inFlight 0 ≠ 0 ∧ tLive.roleHeld tLive.admCore = true ∧
    (let s := { tLive with ld := some ⟨tPlan, 4⟩ }
     s.pending = [] ∧ s.fw.down = none ∧ s.ld.isSome = true ∧ tPlan.slot = 7 ∧ tPlan.held.any s.unusable = false ∧
     (match step s with
       | .next y => (y.slot 7).st == 2 && y.rd LOAD_STATUS_DONE == 1
       | _ => false) = true ∧
     (match step ({ s with ld := some ⟨{ tPlan with held := [103] }, 0⟩ }.markUnusable 103 4) with
       | .next y => (y.slot 7).st == 0 && y.rd LOAD_STATUS_FAIL_STEP == 15
       | _ => false) = true) := by decide +kernel

theorem wit_quoinsByMaster : tLive.reachable 0x60 (0x0A10000000 + 16 * 131071) 4 = true ∧
    tLive.granted 0x60 (0x0A10000000 + 16 * 131071 + 4) 4 rightW = true ∧ tLive.granted 0x60 0x0A10000000 4 rightR = true ∧
    tLive.oldest 5 = none ∧ tLive.inputCtx 5 = none ∧ State.reset.reachable 0x60 0x0A10000000 4 = false ∧
    (({ tLive with quoins := { tLive.quoins with waits := [(5, .core 2, 3)] } } : State).oldest 5 = some (.core 2, 3)) := by decide +kernel

theorem wit_firmware : tHost.fw.running = true ∧ State.reset.fw.running = false ∧ State.reset.fw.recovery = false ∧ State.reset.pwr.resetLow = false ∧
    ({ State.reset with fw := { State.reset.fw with bootSel := 3 } } : State).fw.bootSel = 3 ∧ tHost.unusable 132 = false ∧
    tHost.roleHeld tHost.heaCore = true ∧ tHost.fw.down = none ∧
    (match exec (.mcRestart 2 ⟨0, true⟩) tHost with
      | .next w => w.fw.down == some 2 && !w.roleHeld 0x62
      | _ => false) = true ∧
    tHost.health.hardSeen = [] ∧ tHost.pwr.joined.contains 103 = false ∧ tHost.health.mapDue = false := by decide +kernel

theorem wit_security : tLive.mayWrite 0x60 FW_CTRL_COMMIT.addr 1 = true ∧ tLive.mayWrite 0x60 FW_CTRL_COMMIT.addr 2 = true ∧
    tLive.rd FW_UPDATE_CTRL_BUSY = 0 ∧ tLive.rd FW_STATUS_FLASH_STALE = 0 ∧ bit tLive.fw.revoke tLive.fw.keySlot = false ∧
    (∃ i < 4, bit ((({ tLive with otp := { tLive.otp with fwKeys := [1, 0, 0, 0] } } : State).otp.revoke).lor tLive.fw.revoke) i = false ∧
      ({ tLive with otp := { tLive.otp with fwKeys := [1, 0, 0, 0] } } : State).otp.fwKeys.getD i 0 ≠ 0) ∧
    tLive.mayWrite 0x60 FW_UPDATE_CTRL_START.addr (2 ^ 31) = true ∧ tLive.coresUp.length = 5 ∧
    tLive.mayWrite 0x60 SEC_ATTEST_CTRL_ATTEST.addr (2 ^ 31) = true ∧ tLive.rd SEC_ATTEST_CTRL_BUSY = 0 ∧ tLive.fw.report = none ∧
    (tLive.fw.upd = none ∧ tLive.ld = none ∧ tLive.rd FW_ROLE_SPARE ≠ 7 ∧ (∀ r < 4, tLive.role r ≠ 7)) ∧
    (let z := tLive.setAcc (targetOf 0x0800000000).1 0 ⟨0xF0006060, 0, 0xFFF⟩
     z.reachable z.secCore 0x0800000000 17744 = true ∧ z.granted z.secCore 0x0800000000 17744 rightW = true) ∧
    place 0x0800000000 17744 = .mem .commons 0 ∧ (656 + 17088) % 8 = 0 ∧
    tLive.mayWrite 0x60 SEC_DEBUG_CTRL_UNLOCK.addr 1 = true ∧ tLive.rd SEC_DEBUG_STATUS_ACTIVE ≠ 1 ∧
    tDebug.rd SEC_DEBUG_STATUS_ACTIVE = 1 ∧ tDebug.rd SEC_DEBUG_STATUS_SCOPE % 2 = 1 := by decide +kernel

theorem wit_resets : tLive.mayWrite 0x60 SYS_RESET_GO.addr (0x57520001) = true ∧ bit 0x57520001 0 = true ∧ bits 0x57520001 16 16 = 0x5752 ∧
    tLive.power ≠ 6 ∧ tLive.mayWrite 0x60 SYS_RESET_GO.addr 1 = true ∧ tLive.mayWrite 0x60 PWR_BLOCK_RESET_DOMAIN.addr 103 = true ∧
    (tLive.setAcc (targetOf PWR_BLOCK_RESET_DOMAIN.addr).1 0 ⟨0xF0007070, 0, 0x3FF⟩).mayWrite 0x70 PWR_BLOCK_RESET_DOMAIN.addr 103 = true ∧
    tLive.rd (TILE_CFG_HELD.tile 103) = 0 ∧ tLive.rd (TILE_CFG_HELD.tile 0) = 1 ∧ tLive.domainOn 103 = true ∧
    State.reset.domainOn 107 = false ∧ tLive.mayWrite 0x60 PWR_BLOCK_RESET_DOMAIN.addr 107 = true ∧ tLive.pwr.resetLow = false ∧
    tLive.fw.upd = none ∧
    (∃ u ∈ ({ tLive with fw := { tLive.fw with upd := some { step := 7, granule := 0, img := none } } } : State).fw.upd, u.step = 7) := by
  refine ⟨?_, ?_, ?_, ?_, ?_, ?_, ?_, ?_, ?_, ?_, ?_, ?_, ?_, ?_, ⟨_, rfl, rfl⟩⟩ <;> decide +kernel

theorem wit_power : tLive.mayWrite 0x60 PWR_BUDGET_BUDGET.addr 2000 = true ∧ tLive.committed ≤ 2000 ∧ 0 < tLive.committed ∧
    tLive.mayWrite 0x60 PWR_SLOT_PARK_PARK.addr 1 = true ∧ tLive.slotBusy 0 = false ∧ ((tCtx 2).slotBusy 0 = true) ∧
    tLive.mayWrite 0x60 PWR_CTRL_RETAIN.addr 2 = true ∧ tLive.mayWrite 0x60 PWR_CTRL_RETAIN.addr 4 = true ∧
    tLive.mayWrite 0x60 PWR_CTRL_RETAIN.addr 8 = true ∧ tLive.power = 0 ∧ (tLive.wr PWR_STATUS_STATE 1).power = 1 ∧
    (tLive.wr PWR_STATUS_STATE 2).mayWrite 0x60 PWR_CTRL_RETAIN.addr 4 = true ∧ (tLive.wr PWR_STATUS_STATE 3).tripHolds = false ∧
    tLive.adm.flights = [] ∧ tLive.ctxs = [] ∧ (tLive.rd PWR_TRIP_TEMP_C : Int) ≤ 200 ∧ (20 : Int) < tLive.rd PWR_TRIP_TEMP_C - 15 := by
  decide +kernel

theorem wit_tests : tLive.health.units.length = 133 ∧ tLive.inv = true ∧ tLive.parkDue 0 = false ∧
    (let s := { tLive with pwr := { tLive.pwr with joined := [1] } }
     s.parkDue 1 = true ∧ s.health.exhausted.contains 1 = false ∧ s.tileSlot 1 = none) ∧
    (let s := { (tLive.wr PWR_BUDGET_BUDGET 4000) with pwr := { tLive.pwr with queue := [(1, 0)] } }
     s.power = 0 ∧ s.pwr.queue = [(1, 0)] ∧ s.testedPower + 45 ≤ s.rd PWR_BUDGET_BUDGET) ∧
    (let s := { tLive with pwr := { tLive.pwr with testing := [1, 2], queue := [(3, 0)] }, base := 10000000000 }
     ({ s with pwr := { s.pwr with testing := [124] } }).pwr.testing.contains 124 = true ∧ s.health.ledger = [] ∧
     s.pwr.testing.contains 1 = true ∧ s.power ≠ 3 ∧ s.unusable 1 = false ∧ ∃ e ∈ s.pwr.queue, e.1 = 3 ∧ e.2 + 10000000000 ≤ s.base) := by
  decide +kernel

/-- An activation table's header: from 0, 1/step 1.0, both limits 0. -/
def tTable : List Byte := zeros 4 ++ leBytes 4 0x3F800000 ++ zeros 56

theorem wit_requantiseForms : (tL1 tReq).level2 0 = false ∧ tReq.level2 0 = true ∧
    ((tL1 tReq).reqArgs 0 (.l1 0 0 3 false 5 1 0 0 false)).isSome = true ∧
    ((tL1 tReq).reqArgs 0 (.l1 0 0 4 false 5 1 0 0 false)).isNone = true ∧
    (tReq.reqArgs 0 (.l2 0 0 8 false 5 1 true false false)).isSome = true ∧ floatFmt 8 = true ∧ ((tReq.core 0).sreg 2).extractLsb' 0 16 = 0 ∧
    (tReq.reqArgs 0 (.l2 0 0 0 true 4 1 true false false)).isNone = true ∧ 15 < (tReq.plat 0).comb.length ∧
    tTable.length = 64 ∧ actTableOk (tTable ++ zeros 2048) = true ∧ actTableOk (zeros 64 ++ zeros 2048) = false ∧
    (((tReq.sramWrite 0 0 tTable).2).sramRead 0 0 64).1 = some tTable ∧
    (((tReq.sramWrite 0 0 tTable).2).sramRead 0 64 8).1 = some (zeros 8) ∧
    ((tReq.reqArgs 0 (.l2 0 3 1 false 1 1 true false false)).any (fun a =>
      ((tReq.reqValues 0 a).filterMap (tableSeg (tReq.away 0) (actTableOf (tTable ++ zeros 2048))) == List.replicate 32 0))) = true ∧
    ((tFlip (tRun id) 8 5 3).sramRead 0 64 8).1 = none := by decide +kernel

theorem wit_facingRecords :
    (let f : Flight := { ticket := 9, ctx := 0, fidx := 0, slot := 0 }
     let s := { tFlight id tFacing with fab := { tFacing.fab with ctl := [{ slot := 0, src := .port 0 8, dst := .fe, k := 0 }] } }
     let s := s.modFeIn 0 (fun i => { i with ticket := some 9, ended := some false })
     s.outReady 0 = some (f, false) ∧ (s.slot 0).heads = [] ∧ (s.writeRecords f []).1 = true ∧
     (let s := (s.wrc (1 + galKey 2 0 0) STREAM_GSIZE_CAP_KIB 1).wrc (1 + galKey 2 0 0) STREAM_GCFG_EN 1
      let s := s.wrc (1 + galKey 2 0 0) STREAM_GLIMIT_MAX_BYTES 1024
      let s := (s.modCgal 2 0 (fun x => { x with wptr := 1 })).setMem .commons ((s.mem .commons).putWord .commons 0 5 3)
      (s.writeRecords f [{ mode := 0, unit := 0, entry := 0, body := zeros 64 }]).1 = false)) := by decide +kernel

theorem wit_engines :
    (let s := tLive.modEng 0 (fun x => { x with st := 1, batchAddr := 0xF000000000 })
     (match (s.engineRun 0 false).1 with
       | .halt (.error _ _) => true
       | _ => false) = true ∧ s.engTicket 0 = none) ∧
    (tRoute [.frameEnd 9 false] [] tLive).engTicket 0 = none ∧
    ({ tLive with fab := { tLive.fab with ctl :=
      [{ slot := 0, src := .eng 0, dst := .tile 0, k := 0, a := [.frameEnd 9 false] }] } } : State).engTicket 0 = some 9 ∧
    (let link := leBytes 4 (2 ^ 31 + 2 * 2 ^ 22) ++ leBytes 5 0x0800000100 ++ zeros 23
     let s := tLive.modEng 0 (fun x => { x with st := 1, batchAddr := 0x0800000000, batch := [link] })
     (match (s.engineRun 0 false).1 with
       | .done => true
       | _ => false) = true) := by decide +kernel

theorem wit_engineTokens :
    (tData 1 0 [] [7]).credited 1 ((tData 1 0 [] [7]).group 0) = true ∧ (tData 1 0 [] [7]).fab.routes[0]?.any (fun x => x.todo == [7]) = true ∧
    (({ State.reset with fab := { State.reset.fab with routes := [{ slot := 0, src := .feIn 0, scalar := false, recvs := [], todo := [7] }] } } : State).group 0).length = 1 := by decide +kernel

/-- Ingress galley 0 of one KiB, enabled, in packet mode where `pkt` is 1, its packet being assembled `a`. -/
def tIngress (pkt : Nat) (a : Option Asm) : State :=
  let s := ((tLive.wrc (1 + galKey 1 0 0) STREAM_GCFG_EN 1).wrc (1 + galKey 1 0 0) STREAM_GSIZE_CAP_KIB 1).wrc (1 + galKey 1 0 0)
    STREAM_GLIMIT_MAX_BYTES 4096
  (s.wrc (1 + galKey 1 0 0) STREAM_GCFG_PKT pkt).modCgal 1 0 (fun x => { x with asm := a })

theorem wit_ingressWrites : packetType 0x10 = true ∧ (tIngress 0 none).inv = true ∧ ((tIngress 0 none).cgalCfg 1 0).pkt = false ∧
    ((tIngress 0 none).cgalFree 1 0) = 1024 ∧ ((tIngress 1 none).cgalCfg 1 0).pkt = true ∧ ((tIngress 1 none).cgalCfg 1 0).max = 4096 ∧
    (tIngress 1 none).asmRoom 1 0 { len := 0, ty := 0x10 } = 1024 ∧ ((zeros 1024).length ≤ 1024) ∧ 1024 < (zeros 1025).length ∧
    ((tIngress 1 (some { len := 0, discard := true })).cgal 1 0).asm = some { len := 0, discard := true } := by decide +kernel

theorem wit_galleyCommands :
    (((tIngress 1 (some { len := 5 })).wrc 0x61 STREAM_GSEL_KIND 1).cgal 1 0).asm = some { len := 5 } ∧
    ((tPort tLive 0 []).portCfg 0 0).en = true ∧ (tLive.portCfg 0 0).en = false ∧
    (let s := (tPort tLive 0 [1]).wrc (1 + galKey 0 0 0) STREAM_GCFG_PKT 1
     let s := s.modGal 0 0 (fun g => { g with pktLeft := 3 })
     (s.portCfg 0 0).pkt = true ∧ ((s.tile 0).ports.gal 0).pktLeft = 2 + 1) ∧
    (let s := (tPort tLive 8 []).wrc (1 + galKey 0 0 8) STREAM_GCFG_PKT 1
     (s.portCfg 0 8).pkt = true ∧ 0 < (((s.modGal 0 8 (fun g => { g with asm := 1 })).tile 0).ports.gal 8).asm) := by decide +kernel

/-- A device whose firmware key in slot 0 is programmed. -/
def tKeyed : State := { State.reset with otp := { State.reset.otp with fwKeys := [1, 0, 0, 0] }, fw := { State.reset.fw with bootSel := 1 } }

/-- The least image that has every part of Table 16-3: its manifest, sixteen bytes of firmware, one compatibility entry and a
signature. -/
def tImage : List Byte := leBytes 4 0x49574641 ++ leBytes 2 1 ++ [0, 3] ++ leBytes 4 7 ++ leBytes 4 2 ++ zeros 12 ++ leBytes 4 256 ++
  leBytes 4 16 ++ leBytes 4 0 ++ leBytes 2 1 ++ zeros 2 ++ leBytes 4 272 ++ leBytes 4 284 ++ leBytes 4 8140 ++ zeros 200 ++ zeros 16 ++
  zeros 12 ++ zeros 7856

/-- Where a signature verifies, which the model leaves free, the premises of a good start are met. -/
theorem wit_bootImage (h : ∀ k a b, Config.slhVerify k a b = true) : tKeyed.imageCause (some tImage) = none ∧
    tKeyed.fw.running = false ∧ tKeyed.fw.recovery = false ∧ tKeyed.pwr.resetLow = false ∧ tKeyed.fw.bootSel = 1 := by
  refine ⟨?_, by decide +kernel, by decide +kernel, by decide +kernel, by decide +kernel⟩
  simp only [State.imageCause, h]
  decide +kernel

/-- The state that a command leaves. -/
def tOut (c : Instr) (s : State) : State :=
  match exec c s with
  | .next t => t
  | .fault _ => State.reset
  | .refused _ => State.reset

/-- Tile 0 RUNNING with s1 and s2 set. -/
def tS12 (a b : Word) : State := tRun (fun c => (c.setS 1 a).setS 2 b)

/-- Table 3-3 by hand: 0xFFFFFFFF + 1 wraps to 0, and the next word follows. -/
theorem test_add_wraps : ((tOut (.add 0 3 1 2) (tS12 0xFFFFFFFF 1)).core 0).sreg 3 = 0 ∧
    ((tOut (.add 0 3 1 2) (tS12 0xFFFFFFFF 1)).core 0).pc = 1 := by decide +kernel

/-- Table 3-3: the high half of -1 times 2, signed and unsigned. -/
theorem test_mulh : ((tOut (.mulhs 0 3 1 2) (tS12 0xFFFFFFFF 2)).core 0).sreg 3 = 0xFFFFFFFF ∧
    ((tOut (.mulhu 0 3 1 2) (tS12 0xFFFFFFFF 2)).core 0).sreg 3 = 1 := by decide +kernel

/-- R44: a write to s0 is discarded. -/
theorem test_s0_discards : ((tOut (.lui 0 0 5) (tS12 1 2)).core 0).sreg 0 = 0 := by decide +kernel

/-- Table 3-3: SRA brings in the sign; a shift amount is the low five bits of rs2. -/
theorem test_sra : ((tOut (.sra 0 3 1 2) (tS12 0x80000000 33)).core 0).sreg 3 = 0xC0000000 := by decide +kernel

/-- R79, R5: SW stores little-endian, LW reads the word back. -/
theorem test_sw_lw : ((tOut (.lw 0 3 0 8) (tOut (.sw 0 1 0 8) (tS12 0x11223344 0))).core 0).sreg 3 = 0x11223344 ∧
    ((tOut (.sw 0 1 0 8) (tS12 0x11223344 0)).tile 0).sram.byte 8 = 0x44 := by decide +kernel

/-- R83: LOOPI with COUNT 0 goes on behind the end word. -/
theorem test_loop_skipped : ((tOut (.loopi 0 9 0) (tRun id)).core 0).pc = 10 ∧ ((tOut (.loopi 0 9 0) (tRun id)).core 0).loops = [] := by
  decide +kernel

/-- R84: the body runs again while the index is below the count. -/
theorem test_loop_repeats : ((tOut (.loopEnd 0) (tLoops [⟨1, 4, 0, 2⟩] true)).core 0).pc = 1 ∧
    ((tOut (.loopEnd 0) (tLoops [⟨1, 4, 1, 2⟩] true)).core 0).loops = [] := by decide +kernel

/-- R88: 200 + 100 in unsigned bytes is 255 with SAT under S = 1, and 44 without. -/
theorem test_vadd :
    vlane (((tOut (.vadd 0 ⟨1, 2, 3, 0, 0, true, 0⟩) (tRun (fun c => (c.setV 2 200).setV 3 100))).core 0).vreg 1) 8 0 = 255 ∧
    ((tOut (.vadd 0 ⟨1, 2, 3, 0, 0, true, 0⟩) (tRun (fun c => (c.setV 2 200).setV 3 100))).core 0).flags.sat = true ∧
    vlane (((tOut (.vadd 0 ⟨1, 2, 3, 0, 0, false, 0⟩) (tRun (fun c => (c.setV 2 200).setV 3 100))).core 0).vreg 1) 8 0 = 44 := by
  decide +kernel

/-- R69: an LW beyond tile SRAM is TILE_ADDR_RANGE, code 1, at the offset. -/
theorem test_lw_fault : (tOut (.lw 0 3 1 0) (tS1 0x180000)).rd (TILE_FAULT_CODE.tile 0) = 1 ∧
    (tOut (.lw 0 3 1 0) (tS1 0x180000)).rd (TILE_FAULT_VALID.tile 0) = 1 := by decide +kernel

/-- R346, R347: a SIGNAL beyond 2^32 - 1 saturates; a TEST answers the count. -/
theorem test_quoin : (tOut (.quoinSignal 0x60 7 5) (tLive.setCount 7 0xFFFFFFFE)).qcount 7 = 0xFFFFFFFF ∧
    (tOut (.quoinTest 0x60 7) (tLive.setCount 7 0x01020304)).resp = .ok [4, 3, 2, 1] := by decide +kernel

/-- R9: a value that a register does not take is refused, and nothing is written. -/
theorem test_refused : (tOut (.registerWrite 0x60 LOAD_WDOG_PERIOD_PERIOD_US.addr 0x10000) tLive).resp = .refused ∧
    (tOut (.registerWrite 0x60 LOAD_WDOG_PERIOD_PERIOD_US.addr 0x10000) tLive).regs = tLive.regs := by decide +kernel

/-- R340's example: SYS_ID of a B1 device is answered with the payload B1 10 74 AF. -/
theorem test_sys_id : (tOut (.regRead ⟨false, 7, 0, .right⟩ 0x0A00000000 1) tHost.startAcc).host.out =
    [.response false 0 (packet 3 7 0 0x8000 [0xB1, 0x10, 0x74, 0xAF])] := by decide +kernel

/-- R318: the CRC is the CRC-32 of IEEE 802.3, whose check value over "123456789" is 0xCBF43926. -/
theorem test_crc : crc32 [0x31, 0x32, 0x33, 0x34, 0x35, 0x36, 0x37, 0x38, 0x39] = 0xCBF43926 := by decide +kernel

/-- Every check of WellFormed refuses a term. -/
theorem test_wellFormed_refuses :
    ([.nop 104, .rcRead 256 0, .registerWrite 0 (2 ^ 64) 0, .registerWrite 0 0 (2 ^ 32), .formeRelock 8, .frameStart (.tile 104) ⟨0, 0⟩,
      .frameStart (.steer 0 4) ⟨0, 0⟩, .frameStart (.spill 8 0) ⟨0, 0⟩, .tokenArrival 0 8 ⟨false, false, false⟩, .steeringFire 104 0, .steeringFire 0 4,
      .facingFault 3, .streamStart 0 36, .mergeTransfer 4, .ingressGalleyWrite 16 [] false ⟨0, false⟩, .ingressGalleyWrite 0 [] false ⟨256, false⟩,
      .netCfgWrite 0 2 0, .netLinkChange 0 4 true true, .auRelease 4096, .auDecode 16 .unsupported, .resultDatagramSend 0 256,
      .ctxCfgWrite 0 0x1002 0, .sportRecordReceive (.record ⟨256, 0, [], 0, .whole⟩),
      .sportRecordReceive (.record ⟨0, 65536, [], 0, .whole⟩),
      .burlGalleyPacket 8, .ioInputChange 32 true, .bankSupplyChange 4 0, .bankSupplyChange 0 3, .sessionClose ⟨false, 2 ^ 16, 0, .right⟩,
      .sessionClose ⟨true, 0, 2 ^ 48, .right⟩, .sessionOpen ⟨false, 0, 0, .right⟩ (2 ^ 32), .regWrite ⟨false, 0, 0, .right⟩ 0 [2 ^ 32],
      .quoin ⟨false, 0, 0, .right⟩ 0 256 0 0, .eventMask ⟨false, 0, 0, .right⟩ (2 ^ 32), .quoinTest 0 (2 ^ 17), .quoinSignal 0 0 (2 ^ 32),
      .mgmtAddrWrite 0 20 0, .mcRestart 5 ⟨0, false⟩, .resetN 0 4 false, .bistDone 133 ⟨0, [], [], 0⟩, .bistDone 0 ⟨64, [], [], 0⟩, .sportLaneLock 4 true, .burlClockEdge 4,
      .usbAttach true 5 true, .mgmtLinkChange true 3, .dhcpLease (2 ^ 32) 0 0, .funcReady 32 0, .funcReady 16 104] : List Instr).all
      (fun i => !i.wf) = true ∧
    ([.nop 103, .rcRead 255 0, .streamStart 0 35, .quoinTest 0x60 131071, .frameStart (.steer 103 3) ⟨7, 0⟩, .retainEnter] : List Instr).all
      Instr.wf = true := by decide

end Sys2Proof.Tests
end

section
/-! O53. The events of a load that ends while no command waits (01 R30, R34, R35) are not always the newest of the log after
that step: the step goes on to write an entry of the log to its mirror in HBM (16 R380), and that write may take an armed flip
mask (11 R263), which raises ECC_FLIP_APPLIED. -/
namespace Sys2Proof.Machine

/-- A load of a forme with nothing in it into slot 7, held with its four writes of R30 made. -/
def emptyLoad : LoadJob where
  plan :=
    { f := formeOf [], slot := 7, addr := 0, counts := [], held := [], placed := [], pipes := [], streams := [], weightEng := []
      engines := [], granule := 0, pages := [], region := 0, quoin := 0, storePages := [], power := 0, acc := [], auto := false
      override := false }
  done := 4

/-- The device after reset with its HBM on and every pseudo-channel carrying traffic (R246, R249). -/
def hbmUp : State := (State.reset.setDomain 124 true).wr HBMC_CH_READY_READY 0xFFFFFFFF

/-- A mask of one bit armed for the code word at HBM address `a` (R263). -/
def State.armFlip (s : State) (a : Nat) : State :=
  (((s.wr ECC_FLIP_ADDR_LO_ADDR (a % 2 ^ 32 / 4)).wr ECC_FLIP_ADDR_HI_ADDR (a / 2 ^ 32)).wr ECC_FLIP_MASK0_BITS 1).wr
    ECC_FLIP_CTRL_ARMED 1

/-- `emptyLoad` in progress, slot 7 LOADING, and the first word of the log mirror's header armed to be stored with a flipped bit. -/
def loadingArmed : State :=
  { ((hbmUp.armFlip mirrorBase).wr LOAD_STATUS_BUSY 1).modSlot 7 (fun _ => { st := 1 }) with ld := some emptyLoad }

/-- With no command waiting the block idles (log entry 1). -/
theorem step_of_pending_nil {s : State} (h : s.pending = []) : step s = .next s.idle := by
  unfold step
  rw [h]

theorem loadingArmed_inv : loadingArmed.inv = true := by decide +kernel

/-- The idle step of `loadingArmed` ends the load, and the mirror's header then takes the armed mask: the two events, newest
first. -/
theorem loadingArmed_idle_events :
    loadingArmed.idle.log.ring.map (·.code) = [EV_ECC_FLIP_APPLIED, EV_FORME_LOADED] := by decide +kernel

/-- Refutes O53: the step that ends a load also writes the log's mirror, and a flip mask armed for the mirror's header makes
ECC_FLIP_APPLIED, not FORME_LOADED, the newest event after it. -/
theorem not_formesLoadAndLeave : ¬ Obligations.FormesLoadAndLeave := by
  unfold Obligations.FormesLoadAndLeave
  intro holds
  obtain ⟨-, -, ends, -⟩ :=
    holds loadingArmed loadingArmed 0 7 0 (0, 0) emptyLoad.plan none emptyLoad loadingArmed_inv
  obtain ⟨y, hstep, -, -, -, -, ev, hnewest, hcode, -, -⟩ := ends ⟨rfl, rfl, rfl, rfl, by decide⟩ rfl
  rw [step_of_pending_nil rfl] at hstep
  cases hstep
  have hflip : loadingArmed.idle.log.ring.head?.map (·.code) = some EV_ECC_FLIP_APPLIED := by
    rw [← List.head?_map, loadingArmed_idle_events, List.head?_cons]
  rw [hnewest, Option.map_some, hcode] at hflip
  exact absurd hflip (by decide)

end Sys2Proof.Machine
end

section
/-! O10. Scalar and vector registers as read and as written, and the place of a lane in a vector (02 R44). -/
namespace Sys2Proof.Machine

/-! ## Registers -/

/-- A part of a list that was replaced reads as the replacement, every other part as before. -/
theorem getD_setAt {α : Type} (l : List α) (i j : Nat) (x d : α) :
    (setAt l i x).getD j d = if j = i ∧ i < l.length then x else l.getD j d := by
  unfold setAt
  rw [List.getD_eq_getElem?_getD, List.getD_eq_getElem?_getD, List.getElem?_set]
  by_cases hj : i = j
  · subst hj
    by_cases hi : i < l.length <;> simp [hi]
  · rw [if_neg hj, if_neg (fun h => hj h.1.symm)]

@[simp] theorem SCore.sreg_zero (c : SCore) : c.sreg 0 = 0 := rfl

@[simp] theorem SCore.setS_zero (c : SCore) (x : Word) : c.setS 0 x = c := rfl

theorem SCore.sreg_setS_same {c : SCore} (hs : c.s.length = 16) {r : BitVec 4} (hr : r ≠ 0) (x : Word) :
    (c.setS r x).sreg r = x := by
  have hlt : r.toNat < c.s.length := by rw [hs]; exact r.isLt
  unfold SCore.sreg SCore.setS
  rw [if_neg hr, if_neg hr]
  dsimp only
  rw [getD_setAt, if_pos ⟨rfl, hlt⟩]

theorem SCore.sreg_setS_ne (c : SCore) {r q : BitVec 4} (hq : q ≠ r) (x : Word) : (c.setS r x).sreg q = c.sreg q := by
  have hne : q.toNat ≠ r.toNat := fun h => hq (BitVec.eq_of_toNat_eq h)
  unfold SCore.setS
  split
  · rfl
  · unfold SCore.sreg
    dsimp only
    rw [getD_setAt, if_neg (fun (h : _ ∧ _) => hne h.1)]

theorem SCore.vreg_setV_same {c : SCore} (hv : c.v.length = 8) (a : BitVec 3) (y : Vec) : (c.setV a y).vreg a = y := by
  have hlt : a.toNat < c.v.length := by rw [hv]; exact a.isLt
  unfold SCore.vreg SCore.setV
  dsimp only
  rw [getD_setAt, if_pos ⟨rfl, hlt⟩]

theorem SCore.vreg_setV_ne (c : SCore) {a b : BitVec 3} (hb : b ≠ a) (y : Vec) : (c.setV a y).vreg b = c.vreg b := by
  have hne : b.toNat ≠ a.toNat := fun h => hb (BitVec.eq_of_toNat_eq h)
  unfold SCore.vreg SCore.setV
  dsimp only
  rw [getD_setAt, if_neg (fun h => hne h.1)]

/-! ## Lanes -/

theorem vlanes_length (n : Nat) (y : Vec) : (vlanes n y).length = 512 / n := by simp [vlanes]

theorem vlanes_getD {n i : Nat} (hi : i < 512 / n) (y : Vec) :
    (vlanes n y).getD i 0 = (y.extractLsb' (n * i) n).toNat := by
  rw [BitVec.extractLsb'_toNat]
  simp [vlanes, vlane, bits, List.getD_eq_getElem?_getD, hi]

/-- Lane `i` of the number that a list of lanes spells is its element `i`. -/
theorem bits_lanesNat (n i : Nat) (l : List Nat) : bits (lanesNat n l) (n * i) n = l.getD i 0 % 2 ^ n := by
  induction l generalizing i with
  | nil => simp [lanesNat, bits]
  | cons x xs ih =>
    have hx : x % 2 ^ n < 2 ^ n := Nat.mod_lt _ (Nat.two_pow_pos n)
    cases i with
    | zero => simp [lanesNat, bits]
    | succ i =>
      have hrest : (lanesNat n (x :: xs)) / 2 ^ n = lanesNat n xs := by
        rw [lanesNat, Nat.add_mul_div_left _ _ (Nat.two_pow_pos n), Nat.div_eq_of_lt hx, Nat.zero_add]
      rw [List.getD_cons_succ, ← ih i]
      unfold bits
      rw [show n * (i + 1) = n + n * i by rw [Nat.mul_succ, Nat.add_comm], Nat.shiftRight_add,
        Nat.shiftRight_eq_div_pow _ n, hrest]

/-- A field that lies within the low `m` bits is a field of the number modulo 2 ^ m. -/
theorem bits_mod_two_pow {lo len m : Nat} (h : lo + len ≤ m) (w : Nat) : bits (w % 2 ^ m) lo len = bits w lo len := by
  apply Nat.eq_of_testBit_eq
  intro j
  rw [testBit_bits, testBit_bits, Nat.testBit_mod_two_pow]
  by_cases hj : j < len
  · simp [show lo + j < m by omega]
  · simp [hj]

/-- A field of a bit vector that holds a number is that field of the number. -/
theorem toNat_extractLsb'_ofNat {lo len m : Nat} (h : lo + len ≤ m) (w : Nat) :
    ((BitVec.ofNat m w).extractLsb' lo len).toNat = bits w lo len := by
  rw [BitVec.extractLsb'_toNat, BitVec.toNat_ofNat, ← bits_mod_two_pow h w]
  rfl

/-- A lane that lies within the vector, as written by a list of lanes. -/
theorem ofLanes_lane {n i : Nat} (h : n * i + n ≤ 512) (l : List Nat) :
    ((ofLanes n l).extractLsb' (n * i) n).toNat = l.getD i 0 % 2 ^ n :=
  (toNat_extractLsb'_ofNat h (lanesNat n l)).trans (bits_lanesNat n i l)

/-- Settles O10: each read after a write is one lemma about lists by index, each lane one field of the register's number. -/
theorem registersAndLanes : Obligations.RegistersAndLanes := by
  unfold Obligations.RegistersAndLanes
  intro c r q x a b y n i l hs hv
  refine ⟨c.sreg_zero, c.setS_zero x, fun hr => SCore.sreg_setS_same hs hr x, fun hq => c.sreg_setS_ne hq x,
    SCore.vreg_setV_same hv a y, fun hb => c.vreg_setV_ne hb y, fun _ => ⟨vlanes_length n y, fun hi =>
    ⟨vlanes_getD hi y, fun _ => ofLanes_lane ?_ l⟩⟩⟩
  calc n * i + n = n * (i + 1) := (Nat.mul_succ n i).symm
    _ ≤ n * (512 / n) := Nat.mul_le_mul_left n hi
    _ ≤ 512 := Nat.mul_div_le 512 n

end Sys2Proof.Machine
end

section
/-! O19. FIRE as issued, its branches in order (03 R64, R65, R96), and FIRE_ISSUE: tokens first, then the platen. -/
namespace Sys2Proof.Machine

section FireBranches

variable {s u w w' : State} {t : Nat} {f : FireOp}

/-! ## FIRE -/

theorem exec_fire (h : s.atIssue t = some u) : exec (.fire t f) s = .next (u.fire t f) :=
  congrArg Host.Outcome.next (State.issue_of_atIssue h _)

theorem State.fire_of_fault {code : Nat} {addr : Option Int} (h : u.fireFault t f = some (code, addr)) :
    u.fire t f = u.stageFault t code addr := by
  unfold State.fire
  rw [h]

theorem State.fire_of_fireable (h : u.fireFault t f = none) (hready : u.fireable t f = true) :
    u.fire t f = if u.tagDiffers t f then u.stageFault t 0x11
      else u.modCore t (fun c => { c with waiting := some (.fire t f) }) := by
  unfold State.fire
  rw [h]
  exact if_pos hready

/-- A FIRE whose ports are not ready stalls; until then only registers (Table 2-13's counts) have changed. -/
theorem State.fire_of_not_fireable (h : u.fireFault t f = none) (hready : u.fireable t f = false) :
    ∃ v : State, u.fire t f = v.stall t (.fire t f) ∧ v.tiles = u.tiles := by
  unfold State.fire
  rw [h]
  dsimp only
  rw [if_neg (by rw [hready]; decide)]
  refine ⟨_, rfl, ?_⟩
  split <;> split <;> rfl

theorem State.tile_stall (h : t < u.tiles.length) (i : Instr) :
    (u.stall t i).tile t = { u.tile t with st := .stalled, core := { (u.tile t).core with waiting := some i } } :=
  State.tile_modTile_self u h _

/-- A state's tile is a matter of its tiles. -/
theorem State.tile_congr (h : w.tiles = u.tiles) (t : Nat) : w.tile t = u.tile t := by
  unfold State.tile
  rw [h]

/-- A stalled FIRE keeps what its ports and its platen hold. -/
theorem State.fire_stalls (h : u.fireFault t f = none) (hready : u.fireable t f = false) (ht : t < u.tiles.length) :
    (u.fire t f).tile t = { u.tile t with st := .stalled, core := { u.core t with waiting := some (.fire t f) } } := by
  obtain ⟨v, hfire, htiles⟩ := State.fire_of_not_fireable h hready
  rw [hfire, State.tile_stall (by rw [htiles]; exact ht), State.tile_congr htiles]
  rfl

/-! ## FIRE_ISSUE -/

theorem exec_fireIssue_of_not_due (h : s.dueFire t = none) : exec (.fireIssue t) s = .next s := by
  show execFireIssue t s = _
  unfold execFireIssue
  rw [h]

theorem exec_fireIssue_of_due (h : s.dueFire t = some f) :
    exec (.fireIssue t) s = .next (if s.tagDiffers t f then s.stageFault t 0x11 else s.fireRun t f) := by
  show execFireIssue t s = _
  unfold execFireIssue
  rw [h]

theorem State.fireRun_of_moveErr {e : MoveErr} (h : s.movePorts t (firePorts f) = (some e, w)) :
    s.fireRun t f = w.stageFault t 6 e.addr := by
  unfold State.fireRun
  rw [h]

/-- Once the tokens have moved, a FIRE with P = 0 is done. -/
theorem State.fireRun_of_moved (h : s.movePorts t (firePorts f) = (none, w)) (hp : f.p = false) :
    s.fireRun t f = w.fireDone t := by
  unfold State.fireRun
  rw [h]
  exact if_neg (by rw [hp]; decide)

/-- Once the tokens have moved, a FIRE with P = 1 works the platen on its x as it then is. -/
theorem State.fireRun_of_platen {x : Nat} (h : s.movePorts t (firePorts f) = (none, w)) (hp : f.p = true)
    (hx : w.fireX t f = (some x, w')) : s.fireRun t f = (w'.platenOp t f x).fireDone t := by
  unfold State.fireRun
  rw [h]
  dsimp only
  rw [if_pos hp, hx]

/-- An x that is uncorrectable is met once the tokens have moved, and reported at its draw's offset. -/
theorem State.fireRun_of_badX (h : s.movePorts t (firePorts f) = (none, w)) (hp : f.p = true)
    (hx : w.fireX t f = (none, w')) :
    s.fireRun t f = w'.stageFault t 6 (some ((w.core t).gen (f.xr.toNat % 4)).offset) := by
  unfold State.fireRun
  rw [h]
  dsimp only
  rw [if_pos hp, hx]

end FireBranches

/-- Settles O19: the branches of FIRE at issue, then those of FIRE_ISSUE, each by its own lemma. -/
theorem fireWaitsThenIssues : Obligations.FireWaitsThenIssues := by
  unfold Obligations.FireWaitsThenIssues
  intro s u w w' t x code f addr
  have issued (hdue : s.dueFire t = some f) (htag : s.tagDiffers t f = false) :
      exec (.fireIssue t) s = .next (s.fireRun t f) := by rw [exec_fireIssue_of_due hdue, htag]; rfl
  refine ⟨fun hat hf => ?fault, fun hat hf hready htag => ?waits, fun hat hf hready ht => ?stalls,
    fun hat hf hready htag => ?tags, exec_fireIssue_of_not_due, fun hdue htag => ?issueTags,
    fun e hdue htag hmove => ?moveErr, fun hdue htag hmove hp hx => ?badX, fun hdue htag hmove hp => ?moved,
    fun hdue htag hmove hp hx => ?platen⟩
  case fault => rw [exec_fire hat, State.fire_of_fault hf]
  case waits => rw [exec_fire hat, State.fire_of_fireable hf hready, htag]; rfl
  case stalls =>
    have htile := State.fire_stalls hf hready ht
    exact ⟨_, exec_fire hat, by rw [State.core, htile], by rw [htile], by rw [htile], by rw [htile]⟩
  case tags => rw [exec_fire hat, State.fire_of_fireable hf hready, htag]; rfl
  case issueTags => rw [exec_fireIssue_of_due hdue, htag]; rfl
  case moveErr => rw [issued hdue htag, State.fireRun_of_moveErr hmove]
  case badX => rw [issued hdue htag, State.fireRun_of_badX hmove hp hx]
  case moved => rw [issued hdue htag, State.fireRun_of_moved hmove hp]
  case platen => rw [issued hdue htag, State.fireRun_of_platen hmove hp hx]

end Sys2Proof.Machine
end

section
/-! O23. What a stage fault leaves (02 R69): its record in the tile's fault registers, its event, and the abort of the frame, during
which memories, galleys and routes change but no tile's state, core and control unit again. -/
namespace Sys2Proof.Machine

/-! ## Registers -/

theorem State.rd_raise (s : State) (c r x y z : Nat) (f : Fld) : (s.raise c r x y z).rd f = s.rd f := rfl

theorem State.reg_setReg_self {s : State} (h : s.tabWf = true) (c a v : Nat) : (s.setReg c a v).reg c a = v % 2 ^ 32 := by
  rw [reg_setReg h, if_pos rfl]

theorem State.reg_setReg_ne {s : State} (h : s.tabWf = true) {a b : Nat} (hb : b ≠ a) (v : Nat) :
    (s.setReg 0 a v).reg 0 b = s.reg 0 b := by
  rw [reg_setReg h, if_neg (by unfold rkey; omega)]

theorem State.reg_wr_ne {s : State} (h : s.tabWf = true) (f : Fld) {b : Nat} (hb : b ≠ f.addr) (v : Nat) :
    (s.wr f v).reg 0 b = s.reg 0 b := reg_setReg_ne h hb _

theorem State.rd_setReg_ne {s : State} (h : s.tabWf = true) {a : Nat} {g : Fld} (hg : g.addr ≠ a) (v : Nat) :
    (s.setReg 0 a v).rd g = s.rd g := by
  unfold State.rd
  rw [reg_setReg_ne h hg]

theorem State.tabWf_of_inv {s : State} (h : s.inv = true) : s.tabWf = true := by
  simp only [State.inv, Bool.and_eq_true, and_assoc] at h
  obtain ⟨-, htab, -⟩ := h
  exact htab

theorem State.tiles_length_of_inv {s : State} (h : s.inv = true) : s.tiles.length = 104 := by
  simp only [State.inv, State.shape, Bool.and_eq_true, beq_iff_eq, and_assoc] at h
  obtain ⟨-, -, htiles, -⟩ := h
  exact htiles

/-! ## The state, the core and the control unit of a tile -/

/-- What of a tile a memory or galley operation leaves alone: its state, its core and its control unit. -/
def Tile.control (x : Tile) : TileSt × SCore × CtlUnit := (x.st, x.core, x.ctl)

/-- No tile's state, core or control unit differs between two states. -/
def State.SameControl (s w : State) : Prop := ∀ t, (w.tile t).control = (s.tile t).control

namespace State.SameControl

theorem refl (s : State) : s.SameControl s := fun _ => rfl

theorem trans {s u w : State} (h : s.SameControl u) (k : u.SameControl w) : s.SameControl w :=
  fun t => (k t).trans (h t)

theorem of_tiles {s w : State} (h : w.tiles = s.tiles) : s.SameControl w := fun t => by rw [tile_congr h]

theorem modTile (s : State) (t : Nat) {f : Tile → Tile} (hf : ∀ x, (f x).control = x.control) :
    s.SameControl (s.modTile t f) := by
  intro t'
  rw [tile_modTile]
  split
  case isTrue h => rw [hf, h.1]
  case isFalse => rfl

theorem foldl {α : Type} {f : State → α → State} (hf : ∀ (s : State) (a : α), s.SameControl (f s a)) (l : List α) (s : State) :
    s.SameControl (l.foldl f s) := by
  induction l generalizing s with
  | nil => exact refl s
  | cons a l ih => exact (hf s a).trans (ih (f s a))

/-! Memories -/

theorem setMem (s : State) (i : MemId) (m : Mem) : s.SameControl (s.setMem i m) := by
  cases i with
  | hbm | commons | msram | flash => exact refl s
  | sram t | gsram t | prog t => exact modTile s t (fun _ => rfl)

theorem correct (s : State) (i : MemId) (w v : Nat) : s.SameControl (s.correct i w v) :=
  (setMem s i _).trans (of_tiles (raiseOnce_tiles ..))

theorem readWord (s : State) (i : MemId) (w m : Nat) : s.SameControl (s.readWord i w m).2 := by
  unfold State.readWord
  split
  · exact refl s
  · exact correct s i w _
  · exact of_tiles rfl

theorem readWords (s : State) (i : MemId) (w m n : Nat) : s.SameControl (s.readWords i w m n).2.2 := by
  induction n generalizing s w with
  | zero => exact refl s
  | succ n ih => exact (readWord s i w m).trans (ih _ (w + 1))

theorem read (s : State) (i : MemId) (a n m : Nat) : s.SameControl (s.read i a n m).2 := by
  unfold State.read
  split
  · exact refl s
  · exact readWords s i _ m _

theorem takeFlip (s : State) (i : MemId) (w : Nat) : s.SameControl (s.takeFlip i w).2 := by
  unfold State.takeFlip
  split <;> exact of_tiles rfl

theorem writeWord (s : State) (i : MemId) (w v : Nat) : s.SameControl (s.writeWord i w v) :=
  (takeFlip s i w).trans (setMem _ i _)

theorem writeWords (s : State) (i : MemId) (w : Nat) (l : List (List Byte)) : s.SameControl (s.writeWords i w l) := by
  induction l generalizing s w with
  | nil => exact refl s
  | cons b l ih => exact (writeWord s i w _).trans (ih _ (w + 1))

theorem writeUnit (s : State) (i : MemId) (u o : Nat) (bs : List Byte) (m : Nat) :
    s.SameControl (s.writeUnit i u o bs m).2 := by
  unfold State.writeUnit
  dsimp only
  split
  · exact writeWords s i _ _
  · split
    · exact (readWords s i _ m _).trans (writeWords _ i _ _)
    · exact readWords s i _ m _

theorem writeFrom (s : State) (i : MemId) (a : Nat) (bs : List Byte) (m n : Nat) :
    s.SameControl (s.writeFrom i a bs m n).2 := by
  induction n generalizing s a bs with
  | zero => exact refl s
  | succ n ih =>
    unfold State.writeFrom
    split
    · exact refl s
    · exact (writeUnit s i _ _ _ m).trans (ih _ _ _)

theorem write (s : State) (i : MemId) (a : Nat) (bs : List Byte) (m : Nat) : s.SameControl (s.write i a bs m).2 :=
  writeFrom s i a bs m _

/-! Galleys, credits and loop ports -/

theorem modGal (s : State) (t p : Nat) (f : TGalley → TGalley) : s.SameControl (s.modGal t p f) :=
  modTile s t (fun _ => rfl)

theorem modLoop (s : State) (t p : Nat) (f : LoopPort → LoopPort) : s.SameControl (s.modLoop t p f) :=
  modTile s t (fun _ => rfl)

theorem creditBack (s : State) (t p n : Nat) : s.SameControl (s.creditBack t p n) := by
  unfold State.creditBack
  split <;> exact of_tiles rfl

theorem checkLag (s : State) (r : Nat) : s.SameControl (s.checkLag r) := by
  unfold State.checkLag
  dsimp only
  split
  · exact refl s
  · split
    · exact refl s
    · split <;> exact of_tiles rfl

theorem lagAt (s : State) (t p : Nat) : s.SameControl (s.lagAt t p) := by
  refine foldl (fun s r => ?_) _ s
  split
  · exact checkLag s r
  · exact refl s

theorem popTokens (s : State) (t p n : Nat) : s.SameControl (s.popTokens t p n) := by
  unfold State.popTokens
  dsimp only
  split
  · exact ((modGal s t p _).trans (creditBack _ t p _)).trans (lagAt _ t p)
  · exact modGal s t p _

theorem pushToken (s : State) (t p data tag : Nat) : s.SameControl (s.pushToken t p data tag) :=
  (write s _ _ _ _).trans (modGal _ t p _)

/-! The abort of a frame, once its tile is marked -/

theorem discardInput (s : State) (t p : Nat) : s.SameControl (s.discardInput t p) := by
  unfold State.discardInput
  split
  · exact refl s
  · exact (popTokens s t p _).trans (modGal _ t p _)

theorem resetToken (s : State) (t p fidx : Nat) : s.SameControl (s.resetToken t p fidx).2 := by
  unfold State.resetToken
  dsimp only
  split <;> exact read s _ _ _ _

theorem payLoop (s : State) (t p : Nat) : s.SameControl (s.payLoop t p) := by
  unfold State.payLoop
  dsimp only
  split
  · exact modLoop s t p _
  · split
    · exact refl s
    · split
      · exact ((resetToken s t p _).trans (pushToken _ t p _ _)).trans (modLoop _ t p _)
      · exact refl s

theorem payLoops (s : State) (t : Nat) : s.SameControl (s.payLoops t) := foldl (fun s p => payLoop s t p) _ s

end State.SameControl

/-- What the abort of a frame makes of its tile's state, core and control unit (R41, R136). -/
def Tile.abort (x : Tile) (f : TFrame) : Tile :=
  { x with
    st := if x.st = .halted then .halted else .draining
    back := if x.st = .halted then .draining else x.back
    core := { x.core with waiting := none, loops := [], loopDue := false }
    jobs := []
    ctl := { x.ctl with frame := some { f with aborted := true } } }

theorem State.abortHere_control {s : State} {t : Nat} {f : TFrame} (ht : t < s.tiles.length)
    (hf : (s.tile t).ctl.frame = some f) (hab : f.aborted = false) :
    ((s.abortHere t).tile t).control = ((s.tile t).abort f).control := by
  have hmark : (((s.dropWaits (.tile t)).modTile t (fun x => x.abort f)).tile t) = (s.tile t).abort f :=
    tile_modTile_self (s.dropWaits (.tile t)) ht _
  have hrest (u : State) : u.SameControl (State.payLoops ((List.range 12).foldl
      (fun s p => s.modLoop t p (fun l => l.aborted p f.fidx)) ([8, 9, 10, 11].foldl (fun s p => s.dropAsm t p)
        ((List.range 8).foldl (fun s p => s.discardInput t p) u))) t) :=
    (((SameControl.foldl (fun s p => SameControl.discardInput s t p) _ u).trans
      (SameControl.foldl (fun s p => SameControl.modGal s t p _) _ _)).trans
      (SameControl.foldl (fun s p => SameControl.modLoop s t p _) _ _)).trans (SameControl.payLoops _ t)
  unfold State.abortHere
  rw [hf]
  dsimp only
  rw [if_neg (by rw [hab]; decide)]
  exact (hrest _ t).trans (congrArg Tile.control hmark)

/-! ## Step 1: the record -/

/-- What TILE_FAULT_ADDR and the event show of a fault's offset: ADDR_VALID with it, or 0 where there is none (Table 2-12). -/
def faultAddr : Option Int → Nat
  | some x => 2 ^ 31 + offsetBits x
  | none => 0

/-- Recording a fault changes nothing but registers. -/
theorem State.recordFault_regs (s : State) (t pc code : Nat) (addr : Option Int) :
    ∃ r, s.recordFault t pc code addr = { s with regs := r } := by
  unfold State.recordFault
  split <;> exact ⟨_, rfl⟩

theorem State.recordFault_first {s : State} {t : Nat} (h : s.rd (TILE_FAULT_VALID.tile t) ≠ 1) (pc code : Nat)
    (addr : Option Int) :
    s.recordFault t pc code addr = (((s.wr (TILE_FAULT_VALID.tile t) 1).wr (TILE_FAULT_CODE.tile t) code).wr
      (TILE_FAULT_PC_PC.tile t) pc).setReg 0 (TILE_FAULT_ADDR_OFFSET.tile t).addr (faultAddr addr) := by
  unfold State.recordFault
  rw [if_neg h]
  cases addr <;> rfl

theorem State.recordFault_later {s : State} {t : Nat} (h : s.rd (TILE_FAULT_VALID.tile t) = 1) (pc code : Nat)
    (addr : Option Int) : s.recordFault t pc code addr = s.wr (TILE_FAULT_OVERFLOW.tile t) 1 := if_pos h

/-! The fault registers of a tile are three words; VALID, CODE and OVERFLOW lie apart in the first. -/

@[simp] theorem TILE_FAULT_VALID_tile (t : Nat) : TILE_FAULT_VALID.tile t = ⟨0x9001f000c + 0x200000 * t, 8, 1, 4⟩ := rfl
@[simp] theorem TILE_FAULT_CODE_tile (t : Nat) : TILE_FAULT_CODE.tile t = ⟨0x9001f000c + 0x200000 * t, 0, 8, 4⟩ := rfl
@[simp] theorem TILE_FAULT_OVERFLOW_tile (t : Nat) : TILE_FAULT_OVERFLOW.tile t = ⟨0x9001f000c + 0x200000 * t, 31, 1, 4⟩ := rfl
@[simp] theorem TILE_FAULT_PC_PC_tile (t : Nat) : TILE_FAULT_PC_PC.tile t = ⟨0x9001f0010 + 0x200000 * t, 0, 12, 4⟩ := rfl
@[simp] theorem TILE_FAULT_ADDR_OFFSET_tile (t : Nat) :
    TILE_FAULT_ADDR_OFFSET.tile t = ⟨0x9001f0014 + 0x200000 * t, 0, 22, 4⟩ := rfl

theorem State.recordFault_first_holds {s : State} {t : Nat} (hw : s.tabWf = true) (h : s.rd (TILE_FAULT_VALID.tile t) ≠ 1)
    (pc : Nat) {code : Nat} (hc : code < 32) (addr : Option Int) :
    let w := s.recordFault t pc code addr
    w.rd (TILE_FAULT_VALID.tile t) = 1 ∧ w.rd (TILE_FAULT_CODE.tile t) = code ∧ w.rd (TILE_FAULT_PC_PC.tile t) = pc % 4096 ∧
      w.reg 0 (TILE_FAULT_ADDR_OFFSET.tile t).addr = faultAddr addr % 2 ^ 32 := by
  have hvalid : (s.wr (TILE_FAULT_VALID.tile t) 1).tabWf = true := wr_tabWf hw _ _
  have hcode : ((s.wr (TILE_FAULT_VALID.tile t) 1).wr (TILE_FAULT_CODE.tile t) code).tabWf = true := wr_tabWf hvalid _ _
  have hpc := wr_tabWf hcode (TILE_FAULT_PC_PC.tile t) pc
  dsimp only
  rw [recordFault_first h]
  refine ⟨?_, ?_, ?_, reg_setReg_self hpc ..⟩
  · rw [rd_setReg_ne hpc (by simp), rd_wr_ne hcode _ _ _ (by simp) (by simp), rd_wr_ne hvalid _ _ _ (by simp) (by simp),
      rd_wr_self hw _ _ (by simp)]
    rfl
  · rw [rd_setReg_ne hpc (by simp), rd_wr_ne hcode _ _ _ (by simp) (by simp), rd_wr_self hvalid _ _ (by simp)]
    exact Nat.mod_eq_of_lt (by simp; omega)
  · rw [rd_setReg_ne hpc (by simp), rd_wr_self hcode _ _ (by simp)]
    rfl

theorem State.recordFault_later_holds {s : State} {t : Nat} (hw : s.tabWf = true) (h : s.rd (TILE_FAULT_VALID.tile t) = 1)
    (pc code : Nat) (addr : Option Int) :
    let w := s.recordFault t pc code addr
    w.rd (TILE_FAULT_OVERFLOW.tile t) = 1 ∧ w.rd (TILE_FAULT_CODE.tile t) = s.rd (TILE_FAULT_CODE.tile t) ∧
      w.rd (TILE_FAULT_PC_PC.tile t) = s.rd (TILE_FAULT_PC_PC.tile t) ∧
      w.reg 0 (TILE_FAULT_ADDR_OFFSET.tile t).addr = s.reg 0 (TILE_FAULT_ADDR_OFFSET.tile t).addr := by
  dsimp only
  rw [recordFault_later h]
  exact ⟨rd_wr_self hw _ _ (by simp), rd_wr_ne hw _ _ _ (by simp) (by simp), rd_wr_ne hw _ _ _ (by simp) (by simp),
    reg_wr_ne hw _ (by simp) _⟩

/-- A register below the one that arms the scan is not the one. -/
theorem State.rd_wr_scan {s : State} (hw : s.tabWf = true) (f : Fld) (hf : f.addr < LOAD_IMP_CTRL_FAULT_SCAN.addr) (v : Nat) :
    (s.wr f v).rd LOAD_IMP_CTRL_FAULT_SCAN = s.rd LOAD_IMP_CTRL_FAULT_SCAN := rd_setReg_ne hw (Nat.ne_of_gt hf) _

/-- The fault registers of the tiles lie below the register that arms the scan. -/
theorem State.recordFault_scan {s : State} {t : Nat} (hw : s.tabWf = true) (ht : t < 104) (pc code : Nat) (addr : Option Int) :
    (s.recordFault t pc code addr).rd LOAD_IMP_CTRL_FAULT_SCAN = s.rd LOAD_IMP_CTRL_FAULT_SCAN := by
  have hlow : 0x9001f0014 + 0x200000 * t < LOAD_IMP_CTRL_FAULT_SCAN.addr := by
    show _ < 0xa00150340
    omega
  by_cases h : s.rd (TILE_FAULT_VALID.tile t) = 1
  · rw [recordFault_later h, rd_wr_scan hw _ (by simp; omega)]
  · have hvalid : (s.wr (TILE_FAULT_VALID.tile t) 1).tabWf = true := wr_tabWf hw _ _
    have hcode : ((s.wr (TILE_FAULT_VALID.tile t) 1).wr (TILE_FAULT_CODE.tile t) code).tabWf = true := wr_tabWf hvalid _ _
    rw [recordFault_first h, rd_setReg_ne (wr_tabWf hcode _ _) (by simp; omega), rd_wr_scan hcode _ (by simp; omega),
      rd_wr_scan hvalid _ (by simp; omega), rd_wr_scan hw _ (by simp; omega)]

/-! ## Step 2: the event -/

/-- With nothing lost, no EVENTS_LOST comes first. -/
theorem HostSt.noteLost_of_none_lost {h : HostSt} (l : LogSt) (base now : Nat) (mgmt : Bool)
    (hlost : (if mgmt then h.mgmt else h.usb).lost = 0) : h.noteLost l base now mgmt = (h, l) := by
  unfold HostSt.noteLost
  dsimp only
  rw [if_neg (by simp [Sess.lostDue, hlost])]

/-- An event raised is the newest of the log; with nothing lost in either session it takes the next SEQ as it stood. -/
theorem State.raise_newest (s : State) (code src a0 a1 a2 : Nat) :
    ∃ seq, (s.raise code src a0 a1 a2).log.ring.head? = some ⟨s.now, code, src, seq, a0, a1, a2⟩ ∧
      (s.host.usb.lost = 0 → s.host.mgmt.lost = 0 → seq = s.log.seq) := by
  refine ⟨_, rfl, fun husb hmgmt => ?_⟩
  rw [HostSt.noteLost_of_none_lost s.log s.base s.now false husb,
    HostSt.noteLost_of_none_lost s.log s.base s.now true hmgmt]

theorem State.faultEvent_eq (s : State) (t pc code : Nat) (addr : Option Int) :
    s.faultEvent t pc code addr = s.raise (0x200 + code) (srcTile t) (s.frameArg t)
      (pc % 4096 + s.cfgSlot t % 8 * 2 ^ 16 + (s.tile t).logical % 128 * 2 ^ 24) (faultAddr addr) := by
  cases addr <;> rfl

/-! ## Step 3 and the whole fault -/

theorem State.faultAbort_of_no_frame {s : State} {t : Nat} (h : (s.tile t).ctl.frame = none) (code : Nat) :
    s.faultAbort t code = s := by
  unfold State.faultAbort
  rw [h]

/-- The abort of the frame held leaves the tile's state, core and control unit as an abort leaves them. -/
theorem State.faultAbort_control {s : State} {t : Nat} {f : TFrame} (ht : t < s.tiles.length)
    (hf : (s.tile t).ctl.frame = some f) (hab : f.aborted = false) (code : Nat) :
    ((s.faultAbort t code).tile t).control = ((s.tile t).abort f).control := by
  unfold State.faultAbort
  rw [hf]
  dsimp only
  rw [if_neg (by rw [hab]; decide)]
  exact abortHere_control (s := (s.recordCause f.ticket (0x200 + code)).sendX (ctlOut t) f.ticket) ht hf hab

/-- A frame not aborted yet, at a tile not halted: aborted, the tile DRAINING with nothing waiting and no loop open. -/
theorem State.faultAbort_drains {s : State} {t : Nat} {f : TFrame} (ht : t < s.tiles.length)
    (hf : (s.tile t).ctl.frame = some f) (hab : f.aborted = false) (hst : (s.tile t).st ≠ .halted) (code : Nat) :
    let w := s.faultAbort t code
    (w.tile t).ctl.frame = some { f with aborted := true } ∧ (w.tile t).st = .draining ∧ (w.core t).waiting = none ∧
      (w.core t).loops = [] := by
  have hcontrol := faultAbort_control ht hf hab code
  simp only [Tile.control, Prod.mk.injEq] at hcontrol
  obtain ⟨hstate, hcore, hctl⟩ := hcontrol
  refine ⟨by rw [hctl]; rfl, by rw [hstate]; exact if_neg hst, ?_, ?_⟩ <;> rw [State.core, hcore] <;> rfl

/-- A stage fault other than TILE_PROG_ECC with no scan armed: its record, its event and the abort. -/
theorem State.stageFault_eq {s : State} {t code : Nat} (hw : s.tabWf = true) (ht : t < 104) (hc : code ≠ 7)
    (hscan : s.rd LOAD_IMP_CTRL_FAULT_SCAN = 0) (addr : Option Int) :
    s.stageFault t code addr =
      ((s.recordFault t (s.core t).pc code addr).faultEvent t (s.core t).pc code addr).faultAbort t code := by
  have hoff : ((s.recordFault t (s.core t).pc code addr).faultEvent t (s.core t).pc code addr).rd
      LOAD_IMP_CTRL_FAULT_SCAN = 0 := by
    rw [faultEvent_eq, rd_raise, recordFault_scan hw ht, hscan]
  unfold State.stageFault State.stageFaultAt
  dsimp only
  rw [if_neg hc]
  unfold State.faultScan
  rw [if_neg (by rw [← State.core, hoff]; exact fun h => absurd h.1 (by decide))]
  rfl

/-- Settles O23: the record by the registers it writes, the event as the newest of the log, and the abort through what the
memory and galley operations of an abort leave alone. -/
theorem stageFaultRecorded : Obligations.StageFaultRecorded := by
  unfold Obligations.StageFaultRecorded
  intro s t code addr f hinv ht hcode hc hscan
  have hw := State.tabWf_of_inv hinv
  have hfault := State.stageFault_eq hw ht hc hscan addr
  obtain ⟨r, hregs⟩ := s.recordFault_regs t (s.core t).pc code addr
  dsimp only
  rw [hfault, State.faultEvent_eq]
  refine ⟨fun hvalid hframe => ?first, fun hvalid hframe => ?later, fun hframe => ?event, fun hframe hab hst => ?abort⟩
  case first =>
    obtain ⟨h1, h2, h3, h4⟩ := State.recordFault_first_holds hw (by rw [hvalid]; decide) (s.core t).pc hcode addr
    rw [State.faultAbort_of_no_frame (by rw [hregs]; exact hframe)]
    exact ⟨h1, h2, h3, h4, by rw [hregs]; rfl⟩
  case later =>
    rw [State.faultAbort_of_no_frame (by rw [hregs]; exact hframe)]
    exact State.recordFault_later_holds hw hvalid (s.core t).pc code addr
  case event =>
    rw [State.faultAbort_of_no_frame (by rw [hregs]; exact hframe), hregs]
    obtain ⟨seq, hnewest, hseq⟩ := State.raise_newest { s with regs := r } (0x200 + code) (srcTile t) _ _ (faultAddr addr)
    exact ⟨_, hnewest, rfl, rfl, hseq, rfl, rfl⟩
  case abort =>
    have hlen : t < s.tiles.length := by rw [State.tiles_length_of_inv hinv]; exact ht
    exact State.faultAbort_drains (by rw [hregs]; exact hlen) (by rw [hregs]; exact hframe) hab (by rw [hregs]; exact hst) code

end Sys2Proof.Machine
end

section
/-! O24. The debug commands of TILE_CTRL (02 R71, R259): what a write that reaches the register makes of each command. -/
namespace Sys2Proof.Machine

/-! ## A write that reaches its register -/

/-- A write that may be made takes its effect on the state as it stands, and is refused where the register's own rule refuses
it. -/
theorem State.writeCmd_of_mayWrite {s : State} {m a v : Nat} (h : s.mayWrite m a v = true) (act : State → Bool × State) :
    s.writeCmd m a v act = if (act s).1 then (act s).2.answer (.ok []) else (act s).2.refuse m a := by
  simp only [State.mayWrite, Bool.and_eq_true, beq_iff_eq] at h
  obtain ⟨⟨⟨hreach, hgrant⟩, hplace⟩, haccepts⟩ := h
  unfold State.writeCmd State.accessCheck
  simp [hreach, hgrant, hplace, haccepts]

theorem State.writeCmd_done {s w : State} {m a v : Nat} {act : State → Bool × State} (h : s.mayWrite m a v = true)
    (hact : act s = (true, w)) : s.writeCmd m a v act = w.answer (.ok []) := by
  rw [writeCmd_of_mayWrite h, hact]
  rfl

theorem State.writeCmd_refused {s w : State} {m a v : Nat} {act : State → Bool × State} (h : s.mayWrite m a v = true)
    (hact : act s = (false, w)) : s.writeCmd m a v act = w.refuse m a := by
  rw [writeCmd_of_mayWrite h, hact]
  rfl

/-! ## TILE_CTRL with one command -/

section TileCtrl
variable {s : State} {t : Nat}

theorem State.tileCtrl_halt (h : s.haltOk t = true) : s.tileCtrl t 1 = (true, s.halt t) := by
  simp [State.tileCtrl, bits, bit, h, Nat.testBit, Nat.shiftRight_eq_div_pow]

theorem State.tileCtrl_resume (h : s.haltOk t = true) : s.tileCtrl t 2 = (true, s.resume t) := by
  simp [State.tileCtrl, bits, bit, h, Nat.testBit, Nat.shiftRight_eq_div_pow]

theorem State.tileCtrl_step (h : s.haltOk t = true) : s.tileCtrl t 4 = (true, s.stepOne t) := by
  simp [State.tileCtrl, bits, bit, h, Nat.testBit, Nat.shiftRight_eq_div_pow]

theorem State.tileCtrl_clear (h : (s.tile t).st = .idle) : s.tileCtrl t 8 = (true, s.clearAll (.sram t)) := by
  simp [State.tileCtrl, bits, bit, h, Nat.testBit, Nat.shiftRight_eq_div_pow]

/-- HALT, RESUME and STEP need the halt controls to be accepted. -/
theorem State.tileCtrl_not_accepted (h : s.haltOk t = false) {v : Nat} (hv : bits v 0 3 ≠ 0) :
    s.tileCtrl t v = (false, s) := if_pos ⟨hv, by rw [h]; decide⟩

theorem State.tileCtrl_clear_not_idle (h : (s.tile t).st ≠ .idle) : s.tileCtrl t 8 = (false, s) := by
  simp [State.tileCtrl, bits, bit, h, Nat.testBit, Nat.shiftRight_eq_div_pow]

end TileCtrl

/-! ## A tile changed more than once -/

/-- Changes that agree on the tile are one change. -/
theorem State.modTile_congr (s : State) {t : Nat} {f g : Tile → Tile} (h : f (s.tile t) = g (s.tile t)) :
    s.modTile t f = s.modTile t g := by
  unfold State.modTile
  rw [modAt_congr s.tiles {} t f g h]

theorem modAt_modAt {α : Type} (l : List α) (i : Nat) (f g : α → α) : modAt (modAt l i f) i g = modAt l i (g ∘ f) := by
  unfold modAt
  cases e : l[i]? with
  | none => simp [e]
  | some x =>
    have hi : i < l.length := (List.getElem?_eq_some_iff.1 e).1
    simp [hi]

theorem State.modTile_modTile (s : State) (t : Nat) (f g : Tile → Tile) :
    (s.modTile t f).modTile t g = s.modTile t (g ∘ f) := by
  unfold State.modTile
  rw [modAt_modAt]

/-! ## HALT and RESUME -/

section Debug
variable {s : State} {t : Nat}

theorem State.halt_of_not_halted (h : (s.tile t).st ≠ .halted) :
    s.halt t = s.modTile t (fun x => { x with st := .halted, back := x.st }) := s.modTile_congr (if_neg h)

theorem State.resume_of_halted (h : (s.tile t).st = .halted) :
    s.resume t = (((s.modTile t (fun x => { x with st := x.back })).retryPscs t).retryCopy t).ctlGo t := if_pos h

theorem State.retryPscs_of_none_waiting (h : (s.core t).waiting = none) : s.retryPscs t = s := by
  unfold State.retryPscs
  rw [h]

theorem State.retryCopy_of_none_waiting (h : (s.core t).waiting = none) : s.retryCopy t = s := by
  unfold State.retryCopy
  rw [h]
  exact if_neg (fun hend => by rw [h] at hend; cases hend.1)

/-- The control unit of a tile that holds a frame starts nothing. -/
theorem State.ctlGo_of_frame (h : (s.tile t).ctl.frame.isSome = true) : s.ctlGo t = s := by
  have hbetween : s.between t = false := by
    unfold State.between
    obtain ⟨f, hf⟩ := Option.isSome_iff_exists.1 h
    simp [hf]
  simp [State.ctlGo, State.tryTagReset, State.tryEos, State.tryStart, hbetween]

/-- Tile `t` as RUNNING, with the rest as it is. -/
def State.running (s : State) (t : Nat) : State := s.modTile t (fun x => { x with st := .running })

theorem State.tile_running (ht : t < s.tiles.length) : (s.running t).tile t = { s.tile t with st := .running } :=
  s.tile_modTile_self ht _

end Debug

/-! ## What a decoded word runs -/

/-- A command that `runWord` runs as `exec` does, to a next state. -/
def RunsAsWord (i : Instr) : Prop := ∀ s, ∃ v, runWord i s = some (.next v) ∧ exec i s = .next v

theorem takeIf_runs {b : Bool} {i j : Instr} (hj : RunsAsWord j) (h : takeIf b j = some i) : RunsAsWord i := by
  unfold takeIf at h
  split at h
  · cases h; exact hj
  · cases h

theorem decodeAlu_runs {t w : Nat} {i : Instr} (h : decodeAlu t w = some i) : RunsAsWord i := by
  unfold decodeAlu at h
  dsimp only at h
  split at h
  · cases h
  · split at h <;> cases h <;> exact fun s => ⟨_, rfl, rfl⟩

theorem decodeShi_runs {t w : Nat} {i : Instr} (h : decodeShi t w = some i) : RunsAsWord i := by
  unfold decodeShi at h
  dsimp only at h
  split at h
  · cases h
  · split at h <;> cases h <;> exact fun s => ⟨_, rfl, rfl⟩

theorem decodeAgw_runs {t w : Nat} {i : Instr} (h : decodeAgw t w = some i) : RunsAsWord i := by
  unfold decodeAgw at h
  dsimp only at h
  split at h
  · cases h
  · split at h
    · cases h
      exact fun s => ⟨_, rfl, rfl⟩
    · split at h
      · exact takeIf_runs (fun s => ⟨_, rfl, rfl⟩) h
      · split at h
        · exact takeIf_runs (fun s => ⟨_, rfl, rfl⟩) h
        · cases h

theorem decodeVop_runs {l2 : Bool} {t w : Nat} {i : Instr} (h : decodeVop l2 t w = some i) : RunsAsWord i := by
  unfold decodeVop at h
  dsimp only at h
  split at h
  case h_21 => exact takeIf_runs (fun s => ⟨_, rfl, rfl⟩) h
  all_goals (cases h <;> exact fun s => ⟨_, rfl, rfl⟩)

theorem decodeQop_runs {l2 : Bool} {t w : Nat} {i : Instr} (h : decodeQop l2 t w = some i) : RunsAsWord i := by
  unfold decodeQop at h
  dsimp only at h
  split at h <;> exact takeIf_runs (fun s => ⟨_, rfl, rfl⟩) h

/-- Every word that decodes is one that TILE_STEP runs as its instruction command runs. -/
theorem decodeSpindle_runs {l2 : Bool} {t w : Nat} {i : Instr} (h : decodeSpindle l2 t w = some i) : RunsAsWord i := by
  unfold decodeSpindle at h
  dsimp only at h
  split at h
  case h_1 => exact decodeAlu_runs h
  case h_6 => exact decodeShi_runs h
  case h_13 => exact decodeAgw_runs h
  case h_20 => exact decodeVop_runs h
  case h_25 => split at h <;> exact takeIf_runs (fun s => ⟨_, rfl, rfl⟩) h
  case h_36 => exact decodeQop_runs h
  case h_38 => cases h
  case h_2 | h_3 | h_4 | h_5 | h_7 | h_8 | h_9 | h_14 | h_17 | h_18 => cases h; exact fun s => ⟨_, rfl, rfl⟩
  all_goals exact takeIf_runs (fun s => ⟨_, rfl, rfl⟩) h

/-! ## STEP -/

/-- Tile `t` was halted while RUNNING, within a frame, with nothing waiting and no end of a loop body due, and the word `w` at
its program counter reads well: STEP executes that word. -/
structure State.StepsWord (s : State) (t w : Nat) : Prop where
  exists_tile : t < s.tiles.length
  halted : (s.tile t).st = .halted
  back : (s.tile t).back = .running
  frame : (s.tile t).ctl.frame.isSome = true
  waiting : (s.core t).waiting = none
  loopDue : (s.core t).loopDue = false
  pc_lt : (s.core t).pc < 4096
  word : (s.tile t).prog.look (.prog t) (s.core t).pc = .good w

/-- With nothing waiting, no FIRE is due. -/
theorem exec_fireIssue_of_none_waiting {s : State} {t : Nat} (h : (s.core t).waiting = none) :
    exec (.fireIssue t) s = .next s := by
  show execFireIssue t s = _
  simp [execFireIssue, State.dueFire, h]

theorem exec_nop {s u : State} {t : Nat} (h : s.atIssue t = some u) :
    exec (.nop t) s = .next (u.complete t (fun c => c)) := congrArg Host.Outcome.next (State.issue_of_atIssue h _)

section Step
variable {s : State} {t w : Nat}

theorem State.StepsWord.tile_running (h : s.StepsWord t w) : (s.running t).tile t = { s.tile t with st := .running } :=
  State.tile_running h.exists_tile

theorem State.StepsWord.core_running (h : s.StepsWord t w) : (s.running t).core t = s.core t := by
  rw [State.core, h.tile_running]
  rfl

/-- Such a tile only goes back to RUNNING. -/
theorem State.StepsWord.resume (h : s.StepsWord t w) : s.resume t = s.running t := by
  have hrun : s.modTile t (fun x => { x with st := x.back }) = s.running t := s.modTile_congr (by simp only [h.back])
  have hwait : ((s.running t).core t).waiting = none := by rw [h.core_running]; exact h.waiting
  rw [resume_of_halted h.halted, hrun, retryPscs_of_none_waiting hwait, retryCopy_of_none_waiting hwait,
    ctlGo_of_frame (by rw [h.tile_running]; exact h.frame)]

/-- Once RUNNING it issues its word in the state as it is. -/
theorem State.StepsWord.atIssue (h : s.StepsWord t w) : (s.running t).atIssue t = some (s.running t) := by
  have hready : (s.running t).ready t = true := by
    unfold State.ready
    rw [h.tile_running]
    exact congrArg Option.isNone h.waiting
  have hfetch : (s.running t).fetch t = (some w, s.running t) := by
    unfold State.fetch State.readWord
    rw [h.core_running, show (s.running t).mem (.prog t) = ((s.running t).tile t).prog from rfl, h.tile_running, h.word]
  unfold State.atIssue
  simp [hready, h.core_running, h.loopDue, h.pc_lt, hfetch]

theorem State.StepsWord.runPc (h : s.StepsWord t w) {i : Instr} (hdec : decodeSpindle (s.level2 t) t w = some i) :
    (s.running t).runPc t = outState (s.running t) (runWord i (s.running t)) := by
  have hdec' : decodeSpindle ((s.running t).level2 t) t w = some i := hdec
  unfold State.runPc
  rw [h.core_running, h.loopDue]
  dsimp only
  rw [if_neg (by decide), h.core_running, h.tile_running]
  dsimp only
  rw [h.word]
  dsimp only
  rw [hdec']

/-- STEP is the word's instruction in the tile as RUNNING, then FIRE_ISSUE, then the halt. -/
theorem State.StepsWord.stepOne (h : s.StepsWord t w) {i : Instr} {v x : State}
    (hdec : decodeSpindle (s.level2 t) t w = some i) (hexec : exec i (s.running t) = .next v)
    (hfire : exec (.fireIssue t) v = .next x) : s.stepOne t = x.halt t := by
  obtain ⟨v', hrun, hexec'⟩ := decodeSpindle_runs hdec (s.running t)
  obtain rfl : v = v' := Host.Outcome.next.inj (hexec.symm.trans hexec')
  have hpc : (s.running t).runPc t = v := by rw [h.runPc hdec, hrun]; rfl
  have hfire' : execFireIssue t v = .next x := hfire
  unfold State.stepOne
  rw [if_pos h.halted, h.resume]
  dsimp only
  rw [if_pos ⟨by rw [h.waiting]; rfl, by rw [h.core_running, h.waiting]; rfl, by rw [h.tile_running]⟩, hpc, hfire']
  rfl

/-- A NOP in between leaves the halt as it was, on the next word. -/
theorem State.StepsWord.halt_complete (h : s.StepsWord t w) :
    ((s.running t).complete t (fun c => c)).halt t = s.modCore t (fun c => { c with
      pc := c.pc + 1, loopDue := c.loops.head?.any (fun l => l.last == c.pc) }) := by
  have hwait : (s.tile t).core.waiting = none := h.waiting
  unfold State.running State.complete State.modCore State.halt
  rw [modTile_modTile, modTile_modTile]
  refine s.modTile_congr ?_
  simp only [Function.comp, SCore.finish]
  rw [if_neg (by decide), h.halted, h.back, hwait]
  cases (s.tile t).core.loops <;> rfl

theorem State.StepsWord.stepOne_nop (h : s.StepsWord t w) (hdec : decodeSpindle (s.level2 t) t w = some (.nop t)) :
    s.stepOne t = s.modCore t (fun c => { c with
      pc := c.pc + 1, loopDue := c.loops.head?.any (fun l => l.last == c.pc) }) := by
  have hlen : t < (s.running t).tiles.length := by rw [State.running, State.modTile_length]; exact h.exists_tile
  have hwait : (((s.running t).complete t (fun c => c)).core t).waiting = none := by
    rw [State.core_complete _ hlen, SCore.finish_waiting]
  rw [h.stepOne hdec (exec_nop h.atIssue) (exec_fireIssue_of_none_waiting hwait), h.halt_complete]

end Step

/-- Settles O24: a write that may be made reaches TILE_CTRL, and each command is the lemma of its own name; a decoded word runs
as its instruction command does. -/
theorem tileDebugCommands : Obligations.TileDebugCommands := by
  unfold Obligations.TileDebugCommands
  intro s m t w i
  have done {v : Nat} {u : State} (hmay : s.mayWrite m (tileCtrlAddr t) v = true) (hctrl : s.tileCtrl t v = (true, u)) :
      (.next (s.writeCmd m (tileCtrlAddr t) v (fun s => s.tileCtrl t v)) : Out1) = .next (u.answer (.ok [])) :=
    congrArg _ (State.writeCmd_done hmay hctrl)
  have refused {v : Nat} (hmay : s.mayWrite m (tileCtrlAddr t) v = true) (hctrl : s.tileCtrl t v = (false, s)) :
      (.next (s.writeCmd m (tileCtrlAddr t) v (fun s => s.tileCtrl t v)) : Out1) = .next (s.refuse m (tileCtrlAddr t)) :=
    congrArg _ (State.writeCmd_refused hmay hctrl)
  refine ⟨fun hmay hok hst => ?halt, fun hmay hok hst => ?resume,
    fun hmay hok ht hst hback hframe hwait hloop hpc hword hdec => ?step, fun hmay hok => ?stepRefused,
    fun hmay hst => ?clear, fun hmay hok => ?haltRefused, fun hmay hst => ?clearRefused⟩
  case halt =>
    have hctrl := State.tileCtrl_halt hok
    rw [State.halt_of_not_halted hst] at hctrl
    exact done hmay hctrl
  case resume =>
    have hctrl := State.tileCtrl_resume hok
    rw [State.resume_of_halted hst] at hctrl
    exact done hmay hctrl
  case step =>
    have h : s.StepsWord t w := ⟨ht, hst, hback, hframe, hwait, hloop, hpc, hword⟩
    have hctrl := State.tileCtrl_step hok
    refine ⟨?_, ?_⟩
    · obtain ⟨v, -, hexec⟩ := decodeSpindle_runs hdec (s.running t)
      rw [h.stepOne hdec hexec rfl] at hctrl
      exact ⟨v, _, hexec, rfl, done hmay hctrl⟩
    · rintro rfl
      rw [h.stepOne_nop hdec] at hctrl
      exact done hmay hctrl
  case stepRefused => exact refused hmay (State.tileCtrl_not_accepted hok (by decide))
  case clear => exact done hmay (State.tileCtrl_clear hst)
  case haltRefused => exact refused hmay (State.tileCtrl_not_accepted hok (by decide))
  case clearRefused => exact refused hmay (State.tileCtrl_clear_not_idle hst)

end Sys2Proof.Machine
end

section
/-! O29. Watch reports and decided flips (07 R170, R173): what SCALE_WATCH_REPORT makes of the oldest report, and what
SCALE_SLOT_FLIP makes of the first decided flip. That a report waits while its frame is in flight is log entry 38. -/
namespace Sys2Proof.Machine

/-! ## The oldest watch report -/

/-- What the reports of one group share: the frame, the slot, the stage and the REQ. -/
def State.groupKey (s : State) (x : Report) : Nat × Nat × Nat × Option (Nat × Nat) × Nat :=
  (x.ticket, x.accepted, x.slot, s.stageOf x, x.rq)

/-- The values of the group of `r`, over every replica that has reported. -/
def State.groupWatch (s : State) (r : Report) : Watch :=
  combineReports (s.adm.reports.filter (fun x => s.groupKey x == s.groupKey r))

/-- The group of `r` taken from the queue. -/
def State.takeGroup (s : State) (r : Report) : State :=
  { s with adm := { s.adm with reports := s.adm.reports.filter (fun x => s.groupKey x != s.groupKey r) } }

/-- The directory entry of the stage, unit and REQ that `r` names. -/
def State.reportDir (s : State) (r : Report) : Option ScaleDir :=
  (s.slot r.slot).dir.find? (fun d => some (d.stage, d.unit) == s.stageOf r && d.rq == r.rq)

/-- The frame of `r` is in flight; a later frame of the same ticket was accepted at another time. -/
def State.Flying (s : State) (r : Report) : Prop := ∃ g, s.flightOf r.ticket = some g ∧ g.accepted = r.accepted

/-- The group of `r` tells too little of its frame: a report was dropped, or the lanes are too few. -/
def State.GroupShort (s : State) (r : Report) : Prop :=
  (r.ticket, r.accepted) ∈ s.adm.dropped ∨ (s.groupWatch r).lanes < s.rd GOV_SCALE_MIN_LANES_LANES

theorem State.any_accepted_iff_flying {s : State} {r : Report} :
    (s.flightOf r.ticket).any (fun g => g.accepted == r.accepted) = true ↔ s.Flying r := by
  simp only [State.Flying, Option.any_eq_true, beq_iff_eq]

/-- The test by which SCALE_WATCH_REPORT forgets a group. -/
def State.forgetsGroup (s : State) (r : Report) : Bool :=
  s.adm.dropped.contains (r.ticket, r.accepted) || decide ((s.groupWatch r).lanes < s.rd GOV_SCALE_MIN_LANES_LANES) ||
    !s.reportLive r

theorem State.forgetsGroup_iff {s : State} {r : Report} :
    s.forgetsGroup r = true ↔ s.GroupShort r ∨ s.reportLive r = false := by
  simp [State.forgetsGroup, State.GroupShort]

section ScaleWatchReport

variable {s : State} {r : Report} {rest : List Report} {d : ScaleDir}

theorem exec_scaleWatchReport_of_flying (hrep : s.adm.reports = r :: rest) (hfly : s.Flying r) :
    exec .scaleWatchReport s = .next s := by
  show execScaleWatchReport s = _
  unfold execScaleWatchReport
  rw [hrep]
  dsimp only
  rw [State.any_accepted_iff_flying.mpr hfly, Bool.or_true, if_pos rfl]

/-- Once its frame is no longer in flight the oldest report's group is taken, and decided where an entry of the directory
names it and the test of the group passes. -/
theorem exec_scaleWatchReport_of_not_flying (hrole : s.roleHeld s.admCore = true) (hrep : s.adm.reports = r :: rest)
    (hfly : ¬ s.Flying r) :
    exec .scaleWatchReport s = .next (match s.reportDir r with
      | some d => if s.forgetsGroup r then s.takeGroup r else (s.takeGroup r).decideScale r d (s.groupWatch r)
      | none => s.takeGroup r) := by
  have hany := Bool.eq_false_iff.mpr (mt State.any_accepted_iff_flying.mp hfly)
  show execScaleWatchReport s = _
  unfold execScaleWatchReport State.takeGroup State.forgetsGroup State.groupWatch
  rw [hrep]
  dsimp only
  rw [hrole, hany, if_neg (by decide)]
  rfl

theorem exec_scaleWatchReport_decides (hrole : s.roleHeld s.admCore = true) (hrep : s.adm.reports = r :: rest)
    (hfly : ¬ s.Flying r) (hdir : s.reportDir r = some d) (henough : ¬ s.GroupShort r) (hlive : s.reportLive r = true) :
    exec .scaleWatchReport s = .next ((s.takeGroup r).decideScale r d (s.groupWatch r)) := by
  have hkept : ¬ s.forgetsGroup r = true := by simp [State.forgetsGroup_iff, henough, hlive]
  rw [exec_scaleWatchReport_of_not_flying hrole hrep hfly, hdir]
  exact congrArg _ (if_neg hkept)

/-- Too little told, the group is forgotten whether or not the directory names it. -/
theorem exec_scaleWatchReport_forgets (hrole : s.roleHeld s.admCore = true) (hrep : s.adm.reports = r :: rest)
    (hfly : ¬ s.Flying r) (hshort : s.GroupShort r) : exec .scaleWatchReport s = .next (s.takeGroup r) := by
  rw [exec_scaleWatchReport_of_not_flying hrole hrep hfly]
  cases s.reportDir r with
  | none => rfl
  | some d => exact congrArg _ (if_pos (State.forgetsGroup_iff.mpr (.inl hshort)))

end ScaleWatchReport

/-! ## The first decided flip -/

/-- Context `c` is in a gap: no frame of it is in flight. -/
def State.Gap (s : State) (c : Nat) : Prop := ∀ g ∈ s.adm.flights, g.ctx ≠ c

/-- The context of `f` runs as it did when the flip was decided. -/
def State.FlipLive (s : State) (f : Flip) : Prop :=
  ((s.ctx f.ctx).st = 2 ∨ (s.ctx f.ctx).st = 3) ∧ (s.ctx f.ctx).eosDone = false ∧ (s.ctx f.ctx).slot = f.slot ∧
    (s.ctx f.ctx).fidx = f.fidx

/-- The flip `f` taken from the list of decided flips. -/
def State.dropFlip (s : State) (f : Flip) : State :=
  { s with adm := { s.adm with flips := s.adm.flips.filter (fun g => g != f) } }

theorem State.all_ne_iff_gap {s : State} {c : Nat} : s.adm.flights.all (fun g => g.ctx != c) = true ↔ s.Gap c := by
  simp [State.Gap]

/-- The test by which SCALE_SLOT_FLIP carries a flip out. -/
def State.carriesOut (s : State) (f : Flip) : Bool :=
  ((s.ctx f.ctx).st == 2 || (s.ctx f.ctx).st == 3) && !(s.ctx f.ctx).eosDone && (s.ctx f.ctx).slot == f.slot &&
    (s.ctx f.ctx).fidx == f.fidx

theorem State.carriesOut_iff {s : State} {f : Flip} : s.carriesOut f = true ↔ s.FlipLive f := by
  simp [State.carriesOut, State.FlipLive, and_assoc]

section ScaleSlotFlip

variable {s : State} {f : Flip} {fs : List Flip}

/-- Once its context is in a gap, the first flip is taken, and carried out where its context runs as it did. -/
theorem exec_scaleSlotFlip_of_gap (hrole : s.roleHeld s.admCore = true) (hflips : s.adm.flips = f :: fs)
    (hgap : s.Gap f.ctx) :
    exec .scaleSlotFlip s = .next (if s.carriesOut f then (s.dropFlip f).flip f else s.dropFlip f) := by
  have hfind : s.adm.flips.find? (fun f => s.roleHeld s.admCore && s.adm.flights.all (fun g => g.ctx != f.ctx)) =
      some f := by
    rw [hflips, List.find?_cons_of_pos]
    rw [hrole, State.all_ne_iff_gap.mpr hgap, Bool.and_self]
  show execScaleSlotFlip s = _
  unfold execScaleSlotFlip
  dsimp only
  rw [hfind]
  rfl

theorem exec_scaleSlotFlip_carries_out (hrole : s.roleHeld s.admCore = true) (hflips : s.adm.flips = f :: fs)
    (hgap : s.Gap f.ctx) (hlive : s.FlipLive f) : exec .scaleSlotFlip s = .next ((s.dropFlip f).flip f) := by
  rw [exec_scaleSlotFlip_of_gap hrole hflips hgap, if_pos (State.carriesOut_iff.mpr hlive)]

theorem exec_scaleSlotFlip_forgets (hrole : s.roleHeld s.admCore = true) (hflips : s.adm.flips = f :: fs)
    (hgap : s.Gap f.ctx) (hlive : ¬ s.FlipLive f) : exec .scaleSlotFlip s = .next (s.dropFlip f) := by
  rw [exec_scaleSlotFlip_of_gap hrole hflips hgap, if_neg (mt State.carriesOut_iff.mp hlive)]

theorem exec_scaleSlotFlip_of_no_gap (hbusy : ∀ f ∈ s.adm.flips, ¬ s.Gap f.ctx) : exec .scaleSlotFlip s = .next s := by
  have hfind : s.adm.flips.find? (fun f => s.roleHeld s.admCore && s.adm.flights.all (fun g => g.ctx != f.ctx)) = none := by
    rw [List.find?_eq_none]
    intro f hf hdue
    exact hbusy f hf (State.all_ne_iff_gap.mp (Bool.and_eq_true_iff.mp hdue).2)
  show execScaleSlotFlip s = _
  unfold execScaleSlotFlip
  dsimp only
  rw [hfind]

end ScaleSlotFlip

/-- Settles O29: a report waits, is decided or is forgotten, and a flip is carried out, is forgotten or waits, each by the
lemma of that name. -/
theorem dynamicScales : Obligations.DynamicScales := by
  unfold Obligations.DynamicScales
  intro s r rest d f fs hrole
  refine ⟨exec_scaleWatchReport_of_flying, fun hrep hfly hdir hlost hlanes hlive => ?decides,
    exec_scaleWatchReport_forgets hrole, exec_scaleSlotFlip_carries_out hrole, exec_scaleSlotFlip_forgets hrole,
    exec_scaleSlotFlip_of_no_gap⟩
  case decides =>
    have henough : ¬ s.GroupShort r := not_or.mpr ⟨hlost, Nat.not_lt.mpr hlanes⟩
    exact exec_scaleWatchReport_decides hrole hrep hfly hdir henough hlive

end Sys2Proof.Machine
end

section
/-! O30. The facing engines (08 R193, R194, R201): what the input engine sends, how every frame leaves the output engine, and the
roles after a failure, which the aborts of its frames leave alone. What a failed write reports, and that END_OF_STREAM comes
before the next frame, are log entry 36. -/
namespace Sys2Proof.Machine

/-! ## The input engine -/

section InputEngine

variable {s : State} {c : Nat} {f : Flight}

theorem exec_feInputFrame_of_sending (hsend : s.face.sending ≠ none) : exec .feInputFrame s = .next s := by
  refine congrArg Host.Outcome.next (if_pos (.inr ?_))
  exact Option.isSome_iff_ne_none.mpr hsend

/-- With both roles held and no frame being sent, an END_OF_STREAM that is due goes before the next frame. -/
theorem exec_feInputFrame_of_idle (hheld : s.facingHeld = true) (hsend : s.face.sending = none) :
    exec .feInputFrame s = .next (match s.eosDue with
      | some c => s.sendEos c
      | none => s.nextFrame.elim s s.sendFrame) := by
  show execFeInputFrame s = _
  unfold execFeInputFrame
  rw [if_neg (by simp [hheld, hsend])]
  cases s.eosDue with
  | some c => rfl
  | none => cases s.nextFrame <;> rfl

theorem exec_feInputFrame_sendEos (hheld : s.facingHeld = true) (hsend : s.face.sending = none)
    (hdue : s.eosDue = some c) : exec .feInputFrame s = .next (s.sendEos c) := by
  rw [exec_feInputFrame_of_idle hheld hsend, hdue]

theorem exec_feInputFrame_sendFrame (hheld : s.facingHeld = true) (hsend : s.face.sending = none)
    (hdue : s.eosDue = none) (hnext : s.nextFrame = some f) : exec .feInputFrame s = .next (s.sendFrame f) := by
  rw [exec_feInputFrame_of_idle hheld hsend, hdue, hnext]
  rfl

end InputEngine

/-! ## The galleys' configuration while the engine reads and writes -/

/-- A write below a key leaves what the key reads as, whatever the form of the table. -/
theorem tget_tput_of_lt {α : Type} [DecidableEq α] (d : Nat → α) (t : Table α) {k j : Nat} (h : k < j) (v : α) :
    tget d (tput d t k v) j = tget d t j := by
  have hkey : tfind (tput d t k v) j = tfind t j := by
    induction t with
    | nil =>
      simp only [tput]
      split
      · rfl
      · simp only [tfind, if_neg (Nat.ne_of_lt h), if_neg (Nat.lt_asymm h)]
    | cons e t ih =>
      obtain ⟨i, w⟩ := e
      simp only [tput]
      split
      next hi =>
        subst hi
        split <;> simp only [tfind, if_neg (Nat.ne_of_lt h), if_neg (Nat.lt_asymm h)]
      next =>
        split
        next => split <;> simp only [tfind, if_neg (Nat.ne_of_lt h), if_neg (Nat.lt_asymm h)]
        next => simp only [tfind, ih]
  unfold tget
  rw [hkey]

/-- No register of a copy above 256 differs. The configuration of a result galley stands in copies far above (Table 12-10); the
output engine's accesses, their errors and the count of dropped records (R352) are all in lower ones. -/
def State.SameHighCopies (s w : State) : Prop := ∀ c a, 256 < c → w.reg c a = s.reg c a

namespace State.SameHighCopies

theorem refl (s : State) : s.SameHighCopies s := fun _ _ _ => rfl

theorem trans {s u w : State} (h : s.SameHighCopies u) (h' : u.SameHighCopies w) : s.SameHighCopies w :=
  fun c a hc => (h' c a hc).trans (h c a hc)

theorem of_regs {s w : State} (h : w.regs = s.regs) : s.SameHighCopies w := fun c a _ => by unfold State.reg; rw [h]

theorem of_ite {s u w : State} {p : Prop} [Decidable p] (hu : s.SameHighCopies u) (hw : s.SameHighCopies w) :
    s.SameHighCopies (if p then u else w) := by
  split <;> assumption

theorem of_ite_snd {s : State} {α : Type} {x y : α × State} {p : Prop} [Decidable p] (hx : s.SameHighCopies x.2)
    (hy : s.SameHighCopies y.2) : s.SameHighCopies (if p then x else y).2 := by
  split <;> assumption

theorem setReg (s : State) {c a : Nat} (hc : c ≤ 256) (ha : a < 0x10000000000) (v : Nat) :
    s.SameHighCopies (s.setReg c a v) := by
  intro c' a' hc'
  have hlt : rkey c a < rkey c' a' := by
    unfold rkey
    omega
  exact congrArg BitVec.toNat (tget_tput_of_lt regReset s.regs hlt _)

theorem wr (s : State) {f : Fld} (hf : f.addr < 0x10000000000) (v : Nat) : s.SameHighCopies (s.wr f v) :=
  setReg s (Nat.zero_le _) hf _

theorem inc (s : State) {f : Fld} (hf : f.addr < 0x10000000000) (n : Nat) : s.SameHighCopies (s.inc f n) := wr s hf _

theorem raiseOnce (s : State) (k n c r x y z : Nat) : s.SameHighCopies (s.raiseOnce k n c r x y z) := by
  rcases raiseOnce_cases s k n c r x y z with h | ⟨l, h⟩ <;> rw [h] <;> exact of_regs rfl

/-- A configuration read from such registers is the same. -/
theorem cgalCfg_result {s w : State} (h : s.SameHighCopies w) (g : Nat) : w.cgalCfg 2 g = s.cgalCfg 2 g := by
  have hrdc (f : Fld) : w.rdc (1 + galKey 2 0 g) f = s.rdc (1 + galKey 2 0 g) f :=
    congrArg (bits · f.lo f.len) (h _ _ (by unfold galKey; omega))
  unfold State.cgalCfg
  simp only [hrdc]

/-! Memories (11 R258 to R263) -/

theorem setMem (s : State) (i : MemId) (m : Mem) : s.SameHighCopies (s.setMem i m) := by
  cases i <;> exact of_regs rfl

theorem correct (s : State) (i : MemId) (w v : Nat) : s.SameHighCopies (s.correct i w v) :=
  ((setMem s i _).trans (inc _ (f := ECC_ERR_CORR_COUNT) (by decide) 1)).trans (raiseOnce _ _ _ _ _ _ _ _)

theorem uncorrectable (s : State) (i : MemId) (w m : Nat) : s.SameHighCopies (s.uncorrectable i w m) :=
  (inc s (f := ECC_ERR_UNCORR_COUNT) (by decide) 1).trans (of_regs rfl)

theorem readWord (s : State) (i : MemId) (w m : Nat) : s.SameHighCopies (s.readWord i w m).2 := by
  unfold State.readWord
  split
  · exact refl s
  · exact correct s i w _
  · exact uncorrectable s i w m

theorem readWords (s : State) (i : MemId) (w m n : Nat) : s.SameHighCopies (s.readWords i w m n).2.2 := by
  induction n generalizing s w with
  | zero => exact refl s
  | succ n ih => exact (readWord s i w m).trans (ih _ (w + 1))

theorem read (s : State) (i : MemId) (a n m : Nat) : s.SameHighCopies (s.read i a n m).2 :=
  of_ite_snd (refl s) (readWords s i _ m _)

theorem takeFlip (s : State) (i : MemId) (w : Nat) : s.SameHighCopies (s.takeFlip i w).2 := by
  have hmask : s.SameHighCopies (((s.wr ECC_FLIP_MASK0_BITS 0).wr ECC_FLIP_MASK1_BITS 0).wr ECC_FLIP_MASK2_BITS 0) :=
    ((wr s (by decide) 0).trans (wr _ (by decide) 0)).trans (wr _ (by decide) 0)
  exact of_ite_snd ((hmask.trans (wr _ (f := ECC_FLIP_CTRL_ARMED) (by decide) 0)).trans (of_regs rfl)) (refl s)

theorem writeWord (s : State) (i : MemId) (w v : Nat) : s.SameHighCopies (s.writeWord i w v) :=
  (takeFlip s i w).trans (setMem _ i _)

theorem writeWords (s : State) (i : MemId) (w : Nat) (l : List (List Byte)) : s.SameHighCopies (s.writeWords i w l) := by
  induction l generalizing s w with
  | nil => exact refl s
  | cons b l ih => exact (writeWord s i w _).trans (ih _ (w + 1))

theorem writeUnit (s : State) (i : MemId) (u o : Nat) (bs : List Byte) (m : Nat) :
    s.SameHighCopies (s.writeUnit i u o bs m).2 :=
  of_ite_snd (writeWords s i _ _)
    (of_ite_snd ((readWords s i _ m _).trans (writeWords _ i _ _)) (readWords s i _ m _))

theorem write (s : State) (i : MemId) (a : Nat) (bs : List Byte) (m : Nat) : s.SameHighCopies (s.write i a bs m).2 := by
  suffices hfrom : ∀ n (s : State) a bs, s.SameHighCopies (s.writeFrom i a bs m n).2 from hfrom _ s a bs
  intro n
  induction n with
  | zero => exact fun s _ _ => refl s
  | succ n ih =>
    intro s a bs
    exact of_ite_snd (refl s) ((writeUnit s i _ _ _ m).trans (ih _ _ _))

/-! The engine's reads (08 R194, 11 R257) -/

theorem deny (s : State) (m a right : Nat) : s.SameHighCopies (s.deny m a right) := by
  have hinfo (t k : Nat) : s.SameHighCopies ((((s.wr ACCESS_DENY_INFO_VALID 1).wr ACCESS_DENY_INFO_TARGET t).wr
      ACCESS_DENY_INFO_MASTER m).wr ACCESS_DENY_INFO_KIND k) :=
    (((wr s (by decide) _).trans (wr _ (by decide) _)).trans (wr _ (by decide) _)).trans (wr _ (by decide) _)
  have haddr (u : State) : u.SameHighCopies ((u.wr ACCESS_DENY_ADDR_LO_ADDR (a % 2 ^ 32)).wr ACCESS_DENY_ADDR_HI_ADDR
      (a / 2 ^ 32)) := (wr u (by decide) _).trans (wr _ (by decide) _)
  have hrecord := of_ite (p := s.rd ACCESS_DENY_INFO_VALID = 0)
    ((hinfo (targetOf a).1 (if right = rightR then 0 else 1)).trans (haddr _))
    (wr s (f := ACCESS_DENY_INFO_OVERFLOW) (by decide) 1)
  exact (hrecord.trans (inc _ (f := ACCESS_DENY_COUNT_COUNT) (by decide) 1)).trans (raiseOnce _ _ _ _ _ _ _ _)

theorem accessCheck (s : State) (m a n right : Nat) : s.SameHighCopies (s.accessCheck m a n right).2 :=
  of_ite_snd (refl s) (of_ite_snd (refl s) (deny s m a right))

theorem feRead (s : State) (head : Bool) (off n : Nat) : s.SameHighCopies (s.feRead head off n).2 := by
  have hcheck := accessCheck s (s.feMaster head) (0x0800000000 + off) n rightR
  exact of_ite_snd (refl s) (of_ite_snd (hcheck.trans (read _ _ _ _ _)) hcheck)

theorem feReads (s : State) (head : Bool) (l : List (Nat × Nat)) : s.SameHighCopies (s.feReads head l).2 := by
  induction l generalizing s with
  | nil => exact refl s
  | cons a l ih =>
    unfold State.feReads
    dsimp only
    split
    · exact feRead s head _ _
    · exact (feRead s head _ _).trans (ih _)

theorem feStage (s : State) (head : Bool) (k off : Nat) : s.SameHighCopies (s.feStage head k off).2 := by
  unfold State.feStage
  dsimp only
  split
  · exact feReads s head _
  · split <;> exact (feReads s head _).trans (feReads _ head _)

theorem headMap (s : State) (k stage off : Nat) : s.SameHighCopies (s.headMap k stage off).2 := by
  have hfirings (u : State) (n : Nat) : u.SameHighCopies (u.inc (LOAD_FE_FIRINGS_COUNT.idx (u.rd LOAD_FE_ROLE_OUTPUT)) n) := by
    have hrole : u.rd LOAD_FE_ROLE_OUTPUT < 4 := bits_lt _ _ 2
    refine inc u ?_ n
    show 0xa00150208 + 4 * u.rd LOAD_FE_ROLE_OUTPUT < 0x10000000000
    omega
  unfold State.headMap
  dsimp only
  split
  · exact feStage s true k off
  · exact of_ite_snd (feStage s true k off) ((feStage s true k off).trans (hfirings _ _))

theorem headMaps (s : State) (k : Nat) (l : List (Nat × Nat)) : s.SameHighCopies (s.headMaps k l).2 := by
  induction l generalizing s with
  | nil => exact refl s
  | cons h l ih =>
    unfold State.headMaps
    dsimp only
    split
    · exact headMap s k _ _
    · exact (headMap s k _ _).trans (ih _)

/-! Result galleys (12 R283, 15 R352) -/

theorem modCgal (s : State) (kind n : Nat) (f : CGalley → CGalley) : s.SameHighCopies (s.modCgal kind n f) := by
  unfold State.modCgal
  split <;> exact of_regs rfl

theorem watermark (s : State) (kind n : Nat) : s.SameHighCopies (s.watermark kind n) := of_ite (modCgal s 1 n _) (refl s)

theorem ringRead (s : State) (kind n pos len m : Nat) : s.SameHighCopies (s.ringRead kind n pos len m).2 :=
  (read s _ _ _ m).trans (read _ _ _ _ m)

theorem ringWrite (s : State) (kind n pos : Nat) (bs : List Byte) (m : Nat) :
    s.SameHighCopies (s.ringWrite kind n pos bs m).2 := (write s _ _ _ m).trans (write _ _ _ _ m)

theorem putPacket (s : State) (kind n : Nat) (bs : List Byte) (cont : Bool) (m : Nat) :
    s.SameHighCopies (s.putPacket kind n bs cont m).2 :=
  ((ringWrite s kind n _ _ m).trans (modCgal _ kind n _)).trans (watermark _ kind n)

theorem popPacket (s : State) (kind n : Nat) : s.SameHighCopies (s.popPacket kind n) := by
  unfold State.popPacket
  split
  · exact refl s
  · exact (modCgal s kind n _).trans (watermark _ kind n)

theorem popPackets (s : State) (kind n k : Nat) : s.SameHighCopies (s.popPackets kind n k) := by
  induction k generalizing s with
  | zero => exact refl s
  | succ k ih => exact (popPacket s kind n).trans (ih _)

theorem countDrop (s : State) {g : Nat} (hg : g < 256) : s.SameHighCopies (s.countDrop g) := by
  have hcount : s.SameHighCopies ((s.incc (1 + g) CTX_RES_DROPPED_COUNT).modCgal 2 g (fun x =>
      { x with dropped := x.dropped + 1 })) :=
    (setReg s (by omega) (by decide) _).trans (modCgal _ 2 g _)
  have hraise (u : State) (src a0 a1 a2 : Nat) : u.SameHighCopies (u.raise EV_RESULT_DROPPED src a0 a1 a2) := of_regs rfl
  exact of_ite ((hcount.trans (hraise _ _ _ _ _)).trans (modCgal _ 2 g _)) hcount

theorem removeRecord (s : State) (kind g i m : Nat) : s.SameHighCopies (s.removeRecord kind g i m) :=
  (((ringRead s kind g _ _ m).trans (ringWrite _ kind g _ _ m)).trans (modCgal _ kind g _)).trans (watermark _ kind g)

theorem makeRoom (s : State) {g : Nat} (hg : g < 256) (need fuel : Nat) : s.SameHighCopies (s.makeRoom g need fuel) := by
  induction fuel generalizing s with
  | zero => exact refl s
  | succ fuel ih =>
    exact of_ite (refl s) (((of_ite (popPackets s 2 g _) (removeRecord s 2 g _ _)).trans (countDrop _ hg)).trans (ih _))

theorem putParts (s : State) (g m : Nat) (cont : Bool) (l : List (List Byte)) :
    s.SameHighCopies (s.putParts g m cont l).2 := by
  induction l generalizing s cont with
  | nil => exact refl s
  | cons p l ih => exact (putPacket s 2 g p cont m).trans (ih _ true)

theorem putRecord (s : State) {g : Nat} (hg : g < 256) (parts : List (List Byte)) (m : Nat) :
    s.SameHighCopies (s.putRecord g parts m).2 := by
  have hroom (p : Prop) [Decidable p] (need fuel : Nat) : s.SameHighCopies (if p then s.makeRoom g need fuel else s) :=
    of_ite (makeRoom s hg need fuel) (refl s)
  exact of_ite_snd ((hroom _ _ _).trans (putParts _ g m false parts)) ((hroom _ _ _).trans (countDrop _ hg))

theorem writeRecords (s : State) (f : Flight) (l : List RecBody) : s.SameHighCopies (s.writeRecords f l).2 := by
  induction l generalizing s with
  | nil => exact refl s
  | cons b l ih =>
    have hput := putRecord s (g := s.resultGalley f.ctx) (bits_lt _ _ 8)
    exact of_ite_snd (hput _ _) ((hput _ _).trans (ih _))

end State.SameHighCopies

/-! ## The output engine -/

/-- A frame that the output engine cannot complete: the failure reported, the error record, and the engine done with it. -/
def State.failFrame (s : State) (k : Nat) (f : Flight) (code addr : Nat) : State :=
  let x := s.outFail f code addr
  (x.errorRecord ((x.flightOf f.ticket).getD f)).outDone k f

/-- What the output engine makes of a frame that was not aborted. The model takes the address of a failed write from the galley's
configuration before the frame's data is read. -/
def State.completeFrame (s : State) (k : Nat) (f : Flight) : State :=
  match s.headMaps k (s.slot k).heads with
  | (.error e, u) => u.failFrame k f e.1 e.2
  | (.ok l, u) =>
    match u.writeRecords f (frameBodies (u.slot k).away l) with
    | (true, v) => (v.present f.ctx (frameBodies (u.slot k).away l)).outDone k f
    | (false, v) =>
      v.failFrame k f EV_FACING_READ_ERROR (0x0800000000 + (s.cgalCfg 2 (s.resultGalley f.ctx)).base)

section OutputEngine

variable {s u v : State} {k : Nat} {f : Flight} {e : Nat × Nat} {l : List (Nat × FeDesc × List (List (List Nat)))}

theorem exec_feOutputFrame_waits (hslot : s.feSlot = some k) (hready : s.outReady k = none) :
    exec .feOutputFrame s = .next s := by
  show execFeOutputFrame s = _
  unfold execFeOutputFrame
  rw [hslot]
  dsimp only
  rw [hready]
  exact congrArg _ (ite_self s)

theorem exec_feOutputFrame_of_ready {a : Bool} (hheld : s.facingHeld = true) (hslot : s.feSlot = some k)
    (hready : s.outReady k = some (f, a)) :
    exec .feOutputFrame s = .next (if a then (s.errorRecord f).outDone k f else s.completeFrame k f) := by
  show execFeOutputFrame s = _
  unfold execFeOutputFrame State.completeFrame
  rw [if_neg (by simp [hheld]), hslot]
  dsimp only
  rw [hready]
  dsimp only
  rcases s.headMaps k (s.slot k).heads with ⟨e | l, u⟩
  · rfl
  · dsimp only
    rcases u.writeRecords f (frameBodies (u.slot k).away l) with ⟨_ | _, v⟩ <;> rfl

theorem exec_feOutputFrame_aborted (hheld : s.facingHeld = true) (hslot : s.feSlot = some k)
    (hready : s.outReady k = some (f, true)) : exec .feOutputFrame s = .next ((s.errorRecord f).outDone k f) :=
  exec_feOutputFrame_of_ready hheld hslot hready

theorem exec_feOutputFrame_completes (hheld : s.facingHeld = true) (hslot : s.feSlot = some k)
    (hready : s.outReady k = some (f, false)) : exec .feOutputFrame s = .next (s.completeFrame k f) :=
  exec_feOutputFrame_of_ready hheld hslot hready

theorem exec_feOutputFrame_unreadable (hheld : s.facingHeld = true) (hslot : s.feSlot = some k)
    (hready : s.outReady k = some (f, false)) (hmaps : s.headMaps k (s.slot k).heads = (.error e, u)) :
    exec .feOutputFrame s = .next (u.failFrame k f e.1 e.2) := by
  rw [exec_feOutputFrame_completes hheld hslot hready, State.completeFrame, hmaps]

theorem exec_feOutputFrame_written (hheld : s.facingHeld = true) (hslot : s.feSlot = some k)
    (hready : s.outReady k = some (f, false)) (hmaps : s.headMaps k (s.slot k).heads = (.ok l, u))
    (hwrite : u.writeRecords f (frameBodies (u.slot k).away l) = (true, v)) :
    exec .feOutputFrame s = .next ((v.present f.ctx (frameBodies (u.slot k).away l)).outDone k f) := by
  rw [exec_feOutputFrame_completes hheld hslot hready, State.completeFrame, hmaps]
  dsimp only
  rw [hwrite]

theorem exec_feOutputFrame_unwritable (hheld : s.facingHeld = true) (hslot : s.feSlot = some k)
    (hready : s.outReady k = some (f, false)) (hmaps : s.headMaps k (s.slot k).heads = (.ok l, u))
    (hwrite : u.writeRecords f (frameBodies (u.slot k).away l) = (false, v)) :
    exec .feOutputFrame s = .next (v.failFrame k f EV_FACING_READ_ERROR
      (0x0800000000 + (v.cgalCfg 2 (s.resultGalley f.ctx)).base)) := by
  have hread := State.SameHighCopies.headMaps s k (s.slot k).heads
  have hwritten := State.SameHighCopies.writeRecords u f (frameBodies (u.slot k).away l)
  rw [hmaps] at hread
  rw [hwrite] at hwritten
  rw [exec_feOutputFrame_completes hheld hslot hready, State.completeFrame, hmaps, (hread.trans hwritten).cgalCfg_result]
  dsimp only
  rw [hwrite]

/-- Whatever becomes of the frame at work, the engine is done with it. -/
theorem exec_feOutputFrame_outDone {a : Bool} (hheld : s.facingHeld = true) (hslot : s.feSlot = some k)
    (hready : s.outReady k = some (f, a)) : ∃ x : State, exec .feOutputFrame s = .next (x.outDone k f) := by
  cases a with
  | true => exact ⟨_, exec_feOutputFrame_aborted hheld hslot hready⟩
  | false =>
    rcases hmaps : s.headMaps k (s.slot k).heads with ⟨e | l, u⟩
    · exact ⟨_, exec_feOutputFrame_unreadable hheld hslot hready hmaps⟩
    · rcases hwrite : u.writeRecords f (frameBodies (u.slot k).away l) with ⟨_ | _, v⟩
      · exact ⟨_, exec_feOutputFrame_unwritable hheld hslot hready hmaps hwrite⟩
      · exact ⟨_, exec_feOutputFrame_written hheld hslot hready hmaps hwrite⟩

end OutputEngine

/-! ## The frame that leaves the output engine -/

theorem State.headTake_adm (s : State) (k stage fuel : Nat) : (s.headTake k stage fuel).adm = s.adm := by
  induction fuel generalizing s with
  | zero => rfl
  | succ fuel ih =>
    have hfire (go : List (Nat × Nat × Src × Recv)) (n : Nat × Nat × Src × Recv → Nat) : (if go.isEmpty then s
        else (go.foldl (fun (s : State) w => s.windowTake stage w (n w)) s).headTake k stage fuel).adm = s.adm := by
      split
      · rfl
      · exact (ih _).trans (List.foldlRecOn (motive := fun w : State => w.adm = s.adm) _ _ rfl (fun _ h _ _ => h))
    unfold State.headTake
    dsimp only
    split
    · exact ih _
    · exact hfire _ _

theorem State.absorbAll_adm (s : State) : s.absorbAll.adm = s.adm := by
  unfold State.absorbAll
  split
  · rfl
  · exact List.foldlRecOn (motive := fun w : State => w.adm = s.adm) _ _ rfl (fun w h _ _ => (w.headTake_adm ..).trans h)

/-- The tickets of the frames in flight, in their order. -/
def State.flightTickets (s : State) : List Nat := s.adm.flights.map (·.ticket)

theorem State.flightTickets_modFlight (s : State) (n : Nat) {f : Flight → Flight} (hf : ∀ x, (f x).ticket = x.ticket) :
    (s.modFlight n f).flightTickets = s.flightTickets := by
  simp only [State.flightTickets, State.modFlight, List.map_map]
  refine List.map_congr_left fun x _ => ?_
  simp only [Function.comp_apply]
  split
  · exact hf x
  · rfl

/-- The engine turns to another frame without any frame coming into flight or leaving it. -/
theorem State.flightTickets_feNext (s : State) : s.feNext.flightTickets = s.flightTickets := by
  unfold State.feNext
  refine (congrArg (fun a => a.flights.map (·.ticket)) (State.absorbAll_adm _)).trans ?_
  split
  · exact List.foldlRecOn (motive := fun w : State => w.flightTickets = s.flightTickets) _ _ rfl
      (fun w h n _ => (w.flightTickets_modFlight n (by intro; rfl)).trans h)
  · rfl

theorem State.ticket_notMem_outDone (s : State) (k : Nat) (f : Flight) : f.ticket ∉ (s.outDone k f).flightTickets := by
  unfold State.outDone
  dsimp only
  rw [State.flightTickets_feNext]
  simp [State.flightTickets]

/-! ## What an abort leaves alone -/

/-- What the abort of frames leaves alone: the units' health, the slots' states, and the canonical form of the registers, though a
picture buffer that is freed may signal its context's FREE quoin, whose overflow is counted (R351, Table 15-6). -/
structure State.KeptByAbort (s w : State) : Prop where
  health : w.health = s.health
  states : w.slots.map (·.st) = s.slots.map (·.st)
  tabWf : s.tabWf = true → w.tabWf = true

namespace State.KeptByAbort

theorem refl (s : State) : s.KeptByAbort s := ⟨rfl, rfl, id⟩

theorem trans {s u w : State} (h : s.KeptByAbort u) (h' : u.KeptByAbort w) : s.KeptByAbort w where
  health := h'.health.trans h.health
  states := h'.states.trans h.states
  tabWf hs := h'.tabWf (h.tabWf hs)

/-- A change of anything but health, slots, registers and quoin counts. -/
theorem of_eq {s w : State} (hh : w.health = s.health) (hs : w.slots = s.slots) (hr : w.regs = s.regs)
    (hq : w.quoins.count = s.quoins.count) : s.KeptByAbort w where
  health := hh
  states := by rw [hs]
  tabWf := by unfold State.tabWf; rw [hr, hq]; exact id

theorem of_ite {s u w : State} {p : Prop} [Decidable p] (hu : s.KeptByAbort u) (hw : s.KeptByAbort w) :
    s.KeptByAbort (if p then u else w) := by
  split <;> assumption

theorem foldl {α : Type} {f : State → α → State} (hf : ∀ (s : State) (a : α), s.KeptByAbort (f s a)) (l : List α)
    (s : State) : s.KeptByAbort (l.foldl f s) :=
  List.foldlRecOn (motive := s.KeptByAbort) l f (refl s) (fun w h a _ => h.trans (hf w a))

theorem modSlot (s : State) (k : Nat) {f : Slot → Slot} (hf : ∀ x, (f x).st = x.st) : s.KeptByAbort (s.modSlot k f) where
  health := rfl
  states := by
    show (modAt s.slots k f).map (·.st) = _
    unfold modAt
    split
    next x hx =>
      obtain ⟨hk, rfl⟩ := List.getElem?_eq_some_iff.mp hx
      rw [List.map_set, hf, ← List.getElem_map (f := fun x : Slot => x.st) (h := by simpa using hk), List.set_getElem_self]
    next => rfl
  tabWf := id

theorem setCount (s : State) (i v : Nat) : s.KeptByAbort (s.setCount i v) where
  health := rfl
  states := rfl
  tabWf h := setCount_tabWf h i v

theorem wr (s : State) (f : Fld) (v : Nat) : s.KeptByAbort (s.wr f v) where
  health := rfl
  states := rfl
  tabWf h := wr_tabWf h f v

/-! Quoins (15 R346, R347) -/

theorem unhold (s : State) (mgmt : Bool) : s.KeptByAbort (s.unhold mgmt) := by
  cases mgmt <;> exact of_eq rfl rfl rfl rfl

theorem respond (s : State) (h : HostHdr) (op status : Nat) (payload : List Byte) :
    s.KeptByAbort (s.respond h op status payload) :=
  of_ite (of_eq rfl rfl rfl rfl) (of_eq rfl rfl rfl rfl)

theorem wake (s : State) (i : Nat) (w : Waiter) : s.KeptByAbort (s.wake i w) := by
  cases w with
  | tile t => exact of_eq rfl rfl rfl rfl
  | eng e => exact of_eq rfl rfl rfl rfl
  | merge c => exact of_eq rfl rfl rfl rfl
  | seq k tag => exact modSlot s k (fun _ => rfl)
  | host mgmt =>
    unfold State.wake
    dsimp only
    split
    · exact (unhold s mgmt).trans (respond _ _ _ _ _)
    · exact refl s
  | core c => exact refl s

theorem serve {s w : State} {i : Nat} (h : s.serve i = some w) : s.KeptByAbort w := by
  unfold State.serve at h
  split at h
  · split at h
    · cases h
      have hwaits (u : State) (l : List (Nat × Waiter × Nat)) :
          u.KeptByAbort { u with quoins := { u.quoins with waits := l } } := of_eq rfl rfl rfl rfl
      exact ((setCount s i _).trans (hwaits _ _)).trans (wake _ i _)
    · cases h
  · cases h

theorem settleN (s : State) (i n : Nat) : s.KeptByAbort (s.settleN i n) := by
  induction n generalizing s with
  | zero => exact refl s
  | succ n ih =>
    unfold State.settleN
    split
    next u hu => exact (serve hu).trans (ih u)
    next => exact refl s

theorem addCount (s : State) (m i n : Nat) : s.KeptByAbort (s.addCount m i n) := by
  unfold State.addCount
  refine of_ite (setCount s i _) ?_
  have hcount : s.KeptByAbort ((s.setCount i 0xFFFFFFFF).inc QUOIN_OVERFLOWS_COUNT) :=
    (setCount s i _).trans (wr _ _ _)
  have hlast (u : State) : u.KeptByAbort ((u.wr QUOIN_LAST_OVF_VALID 1).wr QUOIN_LAST_OVF_INDEX i) :=
    (wr u _ 1).trans (wr _ _ i)
  exact (hcount.trans (hlast _)).trans (of_eq rfl rfl rfl rfl)

/-! Picture buffers (13 R309, 15 R351) -/

theorem memFree (s : State) (c fuel : Nat) : s.KeptByAbort (s.memFree c fuel) := by
  induction fuel generalizing s with
  | zero => exact refl s
  | succ fuel ih =>
    have hctx : s.KeptByAbort (s.setCtx c { s.ctx c with freeNext := (s.ctx c).freeNext + 1 }) := of_eq rfl rfl rfl rfl
    exact of_ite (((hctx.trans (settleN _ _ _)).trans (addCount _ _ _ _)).trans (ih _)) (refl s)

theorem freeBuf (s : State) (c b : Nat) : s.KeptByAbort (s.freeBuf c b) := by
  have hctx : s.KeptByAbort (s.modCtx c (fun x => { x with bufs := setAt x.bufs b .free })) := of_eq rfl rfl rfl rfl
  exact of_ite (hctx.trans (memFree _ _ _)) hctx

/-! ABORT sent into the array (05 R136, 09 R214) -/

theorem cutSource (s : State) (src : Src) (n : Nat) : s.KeptByAbort (s.cutSource src n) := of_eq rfl rfl rfl rfl

theorem sendX (s : State) (src : Src) (n : Nat) : s.KeptByAbort (s.sendX src n) := of_eq rfl rfl rfl rfl

theorem feInX (s : State) (k n : Nat) : s.KeptByAbort (s.feInX k n) :=
  (of_ite (cutSource s _ n) (refl s)).trans (sendX _ _ n)

theorem refillX (s : State) (k i n p : Nat) : s.KeptByAbort (s.refillX k i n p) := by
  refine foldl (fun s j => ?_) _ s
  split
  · exact of_ite ((of_ite (cutSource s _ n) (refl s)).trans (sendX _ _ n)) (refl s)
  · exact refl s

theorem roundX (s : State) (k n : Nat) : s.KeptByAbort (s.roundX k n) := by
  have hentry : s.KeptByAbort (s.abortTicketEntry k n) := modSlot s k (fun _ => rfl)
  unfold State.roundX
  split
  · exact refl s
  · dsimp only
    split
    · exact hentry.trans (feInX _ k n)
    · exact hentry.trans (refillX _ k _ n _)
    · exact hentry

theorem abortFlight (s : State) (n cause : Nat) : s.KeptByAbort (s.abortFlight n cause) := by
  unfold State.abortFlight
  split
  · exact refl s
  next f _ =>
    have hcause : s.KeptByAbort (s.recordCause n cause) := of_eq rfl rfl rfl rfl
    have hsent := of_ite (p := ((s.recordCause n cause).slot f.slot).multi = true) (hcause.trans (roundX _ f.slot n))
      (hcause.trans (feInX _ f.slot n))
    exact of_ite (hsent.trans (freeBuf _ _ _)) hsent

theorem faceAbort (s : State) (output : Bool) : s.KeptByAbort (s.faceAbort output) := by
  have hout (s : State) (n : Nat) : s.KeptByAbort ((s.abortFlight n EV_FACING_FAULT).modOut (fun o =>
      { o with x := if o.x.contains n then o.x else o.x ++ [n] })) :=
    (abortFlight s n _).trans (of_eq rfl rfl rfl rfl)
  exact of_ite (foldl hout _ s) (foldl (fun s n => abortFlight s n _) _ s)

end State.KeptByAbort

/-! ## The roles after a failure -/

/-- The field of LOAD_FE_ROLE that names the holder of a role. -/
def roleFld (output : Bool) : Fld := if output then LOAD_FE_ROLE_OUTPUT else LOAD_FE_ROLE_INPUT

@[simp] theorem roleFld_addr (output : Bool) : (roleFld output).addr = 0xa00150200 := by cases output <;> rfl

@[simp] theorem roleFld_len (output : Bool) : (roleFld output).len = 2 := by cases output <;> rfl

/-- The fields of the two roles lie below that of the spare. -/
theorem roleFld_lo_add_len_le (output : Bool) : (roleFld output).lo + (roleFld output).len ≤ LOAD_FE_ROLE_SPARE.lo := by
  cases output <;> decide

/-- The spare can take a role from engine `e`. -/
def State.SpareUsable (s : State) (e : Nat) : Prop :=
  s.rd LOAD_FE_ROLE_SPARE < 3 ∧ s.rd LOAD_FE_ROLE_SPARE ≠ e ∧ s.unusable (104 + s.rd LOAD_FE_ROLE_SPARE) = false

/-- Engine `e` out of a role: its frames aborted, the role given to `holder`, its domain off. -/
def State.giveUpRole (s : State) (e holder : Nat) (output : Bool) : State :=
  ((s.faceAbort output).wr (roleFld output) holder).setDomain (104 + e) false

/-- The spare in the role that engine `e` has given up. -/
def State.spareIn (s : State) (e spare : Nat) (output : Bool) : State :=
  (((s.dropTest (104 + spare)).wr LOAD_FE_ROLE_SPARE 3).setDomain (104 + spare) true).raise EV_FACING_SUBSTITUTED s.heaCore e
    spare (b2n output)

/-- Every resident slot stopped. -/
def State.stopResident (s : State) : State :=
  { s with slots := s.slots.map (fun (x : Slot) => if x.st = 2 then { x with st := 4 } else x) }

section Roles

variable {s : State} {e holder : Nat} {output : Bool}

theorem State.faceSwap_of_usable (h : s.SpareUsable e) :
    s.faceSwap e output = (s.giveUpRole e (s.rd LOAD_FE_ROLE_SPARE) output).spareIn e (s.rd LOAD_FE_ROLE_SPARE) output := by
  have htest : (decide (s.rd LOAD_FE_ROLE_SPARE < 3) && s.rd LOAD_FE_ROLE_SPARE != e &&
      !s.unusable (104 + s.rd LOAD_FE_ROLE_SPARE)) = true := by simpa [State.SpareUsable, and_assoc] using h
  unfold State.faceSwap
  simp only [htest, if_true]
  rfl

theorem State.faceSwap_of_not_usable (h : ¬ s.SpareUsable e) :
    s.faceSwap e output = (s.giveUpRole e 3 output).faceLost e (b2n output) := by
  have htest : (decide (s.rd LOAD_FE_ROLE_SPARE < 3) && s.rd LOAD_FE_ROLE_SPARE != e &&
      !s.unusable (104 + s.rd LOAD_FE_ROLE_SPARE)) = false := by
    rw [Bool.eq_false_iff]
    simpa [State.SpareUsable, and_assoc] using h
  unfold State.faceSwap
  simp only [htest]
  rfl

theorem State.giveUpRole_tabWf (hw : s.tabWf = true) : (s.giveUpRole e holder output).tabWf = true :=
  wr_tabWf ((KeptByAbort.faceAbort s output).tabWf hw) _ _

theorem State.giveUpRole_states : (s.giveUpRole e holder output).slots.map (·.st) = s.slots.map (·.st) :=
  (KeptByAbort.faceAbort s output).states

theorem State.giveUpRole_health : (s.giveUpRole e holder output).health = s.health :=
  (KeptByAbort.faceAbort s output).health

theorem State.rd_giveUpRole (hw : s.tabWf = true) (hholder : holder < 4) :
    (s.giveUpRole e holder output).rd (roleFld output) = holder := by
  have hfits : (roleFld output).lo + (roleFld output).len ≤ 32 := Nat.le_trans (roleFld_lo_add_len_le output) (by decide)
  refine (rd_wr_self ((KeptByAbort.faceAbort s output).tabWf hw) (roleFld output) holder hfits).trans ?_
  rw [roleFld_len]
  exact Nat.mod_eq_of_lt hholder

/-! Where the spare is usable -/

@[simp] theorem State.spareIn_slots {spare : Nat} : (s.spareIn e spare output).slots = s.slots := rfl

@[simp] theorem State.spareIn_health {spare : Nat} : (s.spareIn e spare output).health = s.health := rfl

theorem State.rd_spareIn_role {spare : Nat} (hw : s.tabWf = true) :
    (s.spareIn e spare output).rd (roleFld output) = s.rd (roleFld output) :=
  rd_wr_ne (s := s.dropTest (104 + spare)) hw LOAD_FE_ROLE_SPARE _ 3 (by decide) (.inr (.inl (roleFld_lo_add_len_le output)))

theorem State.rd_spareIn_spare {spare : Nat} (hw : s.tabWf = true) : (s.spareIn e spare output).rd LOAD_FE_ROLE_SPARE = 3 :=
  rd_wr_self (s := s.dropTest (104 + spare)) hw LOAD_FE_ROLE_SPARE 3 (by decide)

/-- The spare takes the role; no slot changes its state. -/
theorem State.faceSwap_substituted (hw : s.tabWf = true) (h : s.SpareUsable e) :
    (s.faceSwap e output).rd (roleFld output) = s.rd LOAD_FE_ROLE_SPARE ∧
      (s.faceSwap e output).rd LOAD_FE_ROLE_SPARE = 3 ∧
      (s.faceSwap e output).slots.map (·.st) = s.slots.map (·.st) := by
  have hgave := giveUpRole_tabWf (e := e) (holder := s.rd LOAD_FE_ROLE_SPARE) (output := output) hw
  rw [faceSwap_of_usable h]
  refine ⟨?role, rd_spareIn_spare hgave, ?states⟩
  case role => rw [rd_spareIn_role hgave, rd_giveUpRole hw (Nat.lt_succ_of_lt h.1)]
  case states => rw [spareIn_slots, giveUpRole_states]

/-! Where none is -/

theorem State.funcLost_cases (s : State) (b : Nat) : s.funcLost b = s ∨
    ∃ v, s.funcLost b = (s.setReg 0 SYS_FUNC_READY_REGS.addr v).raise EV_FUNC_READY (srcBlock 0) b 0 0 := by
  unfold State.funcLost
  dsimp only
  split
  · exact .inr ⟨_, rfl⟩
  · exact .inl rfl

theorem State.funcLost_slots (s : State) (b : Nat) : (s.funcLost b).slots = s.slots := by
  rcases s.funcLost_cases b with h | ⟨v, h⟩
  · rw [h]
  · rw [h]
    rfl

theorem State.funcLost_health (s : State) (b : Nat) : (s.funcLost b).health = s.health := by
  rcases s.funcLost_cases b with h | ⟨v, h⟩
  · rw [h]
  · rw [h]
    rfl

theorem State.rd_funcLost_ne (hw : s.tabWf = true) (b : Nat) {g : Fld} (hg : g.addr ≠ SYS_FUNC_READY_REGS.addr) :
    (s.funcLost b).rd g = s.rd g := by
  rcases s.funcLost_cases b with h | ⟨v, h⟩
  · rw [h]
  · rw [h]
    exact rd_setReg_ne hw hg v

theorem State.rd_funcLost_facing (hw : s.tabWf = true) : (s.funcLost 7).rd SYS_FUNC_READY_FACING = 0 := by
  unfold State.funcLost
  dsimp only
  split
  case isTrue => exact rd_wr_self hw SYS_FUNC_READY_FACING 0 (by decide)
  case isFalse hbit =>
    apply Nat.eq_of_testBit_eq
    intro j
    unfold State.rd
    rw [testBit_bits, Nat.zero_testBit]
    by_cases hj : j = 0
    · subst hj
      exact Bool.eq_false_iff.mpr hbit
    · rw [decide_eq_false (by show ¬ j < 1; omega), Bool.false_and]

theorem State.rd_faceLost_role {role : Nat} (hw : s.tabWf = true) :
    (s.faceLost e role).rd (roleFld output) = s.rd (roleFld output) := by
  have hstopped : (s.stopResident.raise EV_FACING_LOST s.stopResident.heaCore e 3 role).tabWf = true := hw
  exact rd_funcLost_ne hstopped 7 (by rw [roleFld_addr]; decide)

theorem State.rd_faceLost_facing {role : Nat} (hw : s.tabWf = true) : (s.faceLost e role).rd SYS_FUNC_READY_FACING = 0 :=
  rd_funcLost_facing (s := s.stopResident.raise EV_FACING_LOST s.stopResident.heaCore e 3 role) hw

theorem State.faceLost_health {role : Nat} : (s.faceLost e role).health = s.health := funcLost_health _ 7

theorem State.faceLost_not_resident {role : Nat} : ∀ x ∈ (s.faceLost e role).slots, x.st ≠ 2 := by
  have hslots : (s.faceLost e role).slots = s.stopResident.slots := funcLost_slots _ 7
  intro x hx
  rw [hslots] at hx
  obtain ⟨y, -, rfl⟩ := List.mem_map.mp hx
  by_cases hy : y.st = 2
  · rw [if_pos hy]
    exact (by decide : (4 : Nat) ≠ 2)
  · rwa [if_neg hy]

/-- The role stays empty, FACING is cleared, and no slot stays RESIDENT. -/
theorem State.faceSwap_lost (hw : s.tabWf = true) (h : ¬ s.SpareUsable e) :
    (s.faceSwap e output).rd (roleFld output) = 3 ∧ (s.faceSwap e output).rd SYS_FUNC_READY_FACING = 0 ∧
      ∀ x ∈ (s.faceSwap e output).slots, x.st ≠ 2 := by
  have hgave := giveUpRole_tabWf (e := e) (holder := 3) (output := output) hw
  rw [faceSwap_of_not_usable h]
  refine ⟨?role, rd_faceLost_facing hgave, faceLost_not_resident⟩
  rw [rd_faceLost_role hgave, rd_giveUpRole hw (by decide)]

theorem State.faceSwap_health : (s.faceSwap e output).health = s.health := by
  by_cases h : s.SpareUsable e
  · rw [faceSwap_of_usable h, spareIn_health, giveUpRole_health]
  · rw [faceSwap_of_not_usable h, faceLost_health, giveUpRole_health]

end Roles

/-! ## FACING_FAULT -/

/-- The fault of engine `e` reported. -/
def State.faultReported (s : State) (e : Nat) : State :=
  s.raise EV_FACING_FAULT s.heaCore e 3 (if s.rd LOAD_FE_ROLE_OUTPUT = e then 1 else 0)

/-- Engine `e` marked UNUSABLE, as the first of what follows its fault. -/
def State.engineMarked (s : State) (e : Nat) : State :=
  { s with health := { s.health with units := setAt s.health.units (104 + e) (2, 6), mapDue := true } }.raise EV_UNIT_UNUSABLE
    s.heaCore (104 + e) 6 0

section Fault

variable {s : State} {e : Nat}

theorem State.faceFail_of_input (h : s.rd LOAD_FE_ROLE_INPUT = e) :
    s.faceFail e = (s.faultReported e).faceSwap e false := if_pos h

theorem State.faceFail_of_output (hi : s.rd LOAD_FE_ROLE_INPUT ≠ e) (ho : s.rd LOAD_FE_ROLE_OUTPUT = e) :
    s.faceFail e = (s.faultReported e).faceSwap e true := (if_neg hi).trans (if_pos ho)

theorem State.faceFail_of_neither (hi : s.rd LOAD_FE_ROLE_INPUT ≠ e) (ho : s.rd LOAD_FE_ROLE_OUTPUT ≠ e) :
    s.faceFail e = (s.faultReported e).wr LOAD_FE_ROLE_SPARE 3 := (if_neg hi).trans (if_neg ho)

theorem State.faceFail_health : (s.faceFail e).health = s.health := by
  by_cases hi : s.rd LOAD_FE_ROLE_INPUT = e
  · rw [faceFail_of_input hi]
    exact faceSwap_health
  · by_cases ho : s.rd LOAD_FE_ROLE_OUTPUT = e
    · rw [faceFail_of_output hi ho]
      exact faceSwap_health
    · rw [faceFail_of_neither hi ho]
      rfl

/-- No function is lost with a facing engine alone. -/
theorem State.markUnusable_facing (he : e < 3) (h : s.unusable (104 + e) = false) :
    s.markUnusable (104 + e) 6 = s.engineMarked e := by
  have hfun (u : State) : u.functionsLost (104 + e) = u := by
    unfold State.functionsLost
    rw [if_neg (by omega), if_neg (by omega), if_neg (by omega)]
  unfold State.markUnusable
  rw [if_neg (by rw [h]; decide)]
  dsimp only
  rw [if_neg (by omega), if_neg (by omega), hfun]
  rfl

theorem State.unusable_engineMarked_self (hlen : 104 + e < s.health.units.length) :
    (s.engineMarked e).unusable (104 + e) = true := by
  show (((setAt s.health.units (104 + e) (2, 6)).getD (104 + e) (1, 0)).1 == 2) = true
  rw [getD_setAt, if_pos ⟨rfl, hlen⟩]
  rfl

theorem State.unusable_engineMarked_ne {u : Nat} (hu : u ≠ 104 + e) : (s.engineMarked e).unusable u = s.unusable u := by
  show (((setAt s.health.units (104 + e) (2, 6)).getD u (1, 0)).1 == 2) = _
  rw [getD_setAt, if_neg (fun h => hu h.1)]
  rfl

/-- That `e` is unusable and reported does not decide whether the spare is usable for its role. -/
theorem State.spareUsable_reported : ((s.engineMarked e).faultReported e).SpareUsable e ↔ s.SpareUsable e := by
  have hrd : ((s.engineMarked e).faultReported e).rd LOAD_FE_ROLE_SPARE = s.rd LOAD_FE_ROLE_SPARE := rfl
  unfold State.SpareUsable
  rw [hrd]
  refine and_congr_right fun _ => and_congr_right fun hne => ?_
  rw [← unusable_engineMarked_ne (s := s) (e := e) (u := 104 + s.rd LOAD_FE_ROLE_SPARE) (by omega)]
  rfl

theorem exec_facingFault (he : e < 3) (h : s.unusable (104 + e) = false) :
    exec (.facingFault e) s = .next ((s.engineMarked e).faceFail e) := by
  show execFacingFault e s = _
  unfold execFacingFault
  rw [if_neg (not_or.mpr ⟨Nat.not_le.mpr he, by rw [h]; decide⟩), State.markUnusable_facing he h]

end Fault

/-- Settles O30: the engines' commands branch by branch, the frame that leaves with its ticket, and the roles after a failure by
what the aborts leave alone. -/
theorem facingEngines : Obligations.FacingEngines := by
  unfold Obligations.FacingEngines
  refine ⟨fun s u v c k f a e l hheld => ?frames, fun s e hinv he huse hlen => ?fault⟩
  case frames =>
    refine ⟨exec_feInputFrame_sendEos hheld, exec_feInputFrame_sendFrame hheld, exec_feInputFrame_of_sending,
      exec_feOutputFrame_waits, exec_feOutputFrame_aborted hheld, exec_feOutputFrame_written hheld,
      exec_feOutputFrame_unwritable hheld, exec_feOutputFrame_unreadable hheld, fun w hslot hready hexec g hg hticket => ?_⟩
    obtain ⟨x, hdone⟩ := exec_feOutputFrame_outDone hheld hslot hready
    obtain rfl : w = x.outDone k f := Host.Outcome.next.inj (hexec.symm.trans hdone)
    exact x.ticket_notMem_outDone k f (List.mem_map.mpr ⟨g, hg, hticket⟩)
  case fault =>
    have htab := State.tabWf_of_inv hinv
    have hw : ((s.engineMarked e).faultReported e).tabWf = true := htab
    refine ⟨_, exec_facingFault he huse, ?unusable, fun hin hspare => ?input, fun hin hout hspare => ?output,
      fun hin hspare => ?lost⟩
    case unusable =>
      exact (congrArg (fun h : Health => (h.units.getD (104 + e) (1, 0)).1 == 2) State.faceFail_health).trans
        (State.unusable_engineMarked_self (by omega))
    case input =>
      rw [State.faceFail_of_input (s := s.engineMarked e) hin]
      exact State.faceSwap_substituted (output := false) hw (State.spareUsable_reported.mpr hspare)
    case output =>
      rw [State.faceFail_of_output (s := s.engineMarked e) hin hout]
      obtain ⟨hrole, hempty, -⟩ :=
        State.faceSwap_substituted (output := true) hw (State.spareUsable_reported.mpr hspare)
      exact ⟨hrole, hempty⟩
    case lost =>
      rw [State.faceFail_of_input (s := s.engineMarked e) hin]
      exact State.faceSwap_lost (output := false) hw (mt State.spareUsable_reported.mp hspare)

end Sys2Proof.Machine
end

section
/-! O31. The impression sequencer (09 R207 to R213): when a round opens and ends, the spill and refill streams at their cuts, and
the steps of Table 9-5 one by one. That one TILE_RECONFIGURE takes one step and that a tile waits for those behind it is log
entry 18; that a tile without a stage takes its switch words all the same is log entry 75. -/
namespace Sys2Proof.Machine

/-! ## Rounds (R207) -/

section Rounds

variable {s : State} {k : Nat}

/-- Slot `k` carries rounds: a forme of several impressions, resident, draining or stopped, whose round is not lost. -/
def State.CarriesRounds (s : State) (k : Nat) : Prop :=
  k < 8 ∧ (s.slot k).multi = true ∧ 2 ≤ (s.slot k).st ∧ (s.slot k).imp.lost = false

/-- Every tile that carries a stage of impression 0 waits in it for a frame. -/
def State.FirstReady (s : State) (k : Nat) : Prop :=
  ∀ u ∈ (s.slot k).tiles, (s.slot k).carries 0 u = true → (s.tile u).imp = 0 ∧ (s.tile u).st = .waitFrame

theorem State.firstReady_iff : s.FirstReady k ↔ ((s.slot k).tiles.all fun t =>
    !(s.slot k).carries 0 t || ((s.tile t).imp == 0 && (s.tile t).st == .waitFrame)) = true := by
  rw [FirstReady, List.all_eq_true]
  refine forall_congr' fun u => forall_congr' fun _ => ?_
  cases (s.slot k).carries 0 u <;> simp

theorem exec_roundOpen_opens (hruns : s.CarriesRounds k) (hround : (s.slot k).imp.round = [])
    (hwaiting : (s.slot k).imp.waiting ≠ []) (hready : s.FirstReady k) (hgate : (s.slot k).imp.hostGate = false) :
    exec (.roundOpen k) s = .next (s.openRound k) := by
  obtain ⟨hk, hmulti, hst, hlost⟩ := hruns
  refine congrArg Host.Outcome.next ((if_pos ?opens).trans (if_pos ?ungated))
  case opens => exact ⟨hk, hmulti, hst, by rw [hlost]; rfl, hround, hwaiting, State.firstReady_iff.mp hready⟩
  case ungated => rw [hgate]; rfl

theorem exec_roundOpen_of_none_waiting (hwaiting : (s.slot k).imp.waiting = []) : exec (.roundOpen k) s = .next s :=
  congrArg Host.Outcome.next (if_neg fun ⟨_, _, _, _, _, h, _⟩ => h hwaiting)

theorem exec_roundEnd_closes (hruns : s.CarriesRounds k) (hround : (s.slot k).imp.round ≠ [])
    (hgone : ∀ e ∈ (s.slot k).imp.round, s.flightOf e.1 = none) :
    exec (.roundEnd k) s = .next (s.closeRound k) := by
  obtain ⟨hk, hmulti, -, hlost⟩ := hruns
  have hnone : s.lostFrames k = [] := if_pos (by rw [hlost]; rfl)
  have hall : ((s.slot k).imp.round.all fun e => (s.flightOf e.1).isNone) = true :=
    List.all_eq_true.mpr fun e he => Option.isNone_iff_eq_none.mpr (hgone e he)
  show execRoundEnd k s = _
  unfold execRoundEnd
  dsimp only
  rw [if_neg (not_or.mpr ⟨Nat.not_le.mpr hk, by rw [hmulti]; decide⟩), if_pos hnone, if_pos ⟨hround, hall⟩]

end Rounds

/-! ## Spill and refill streams (R209, R210) -/

section Streams

variable {s : State} {k j : Nat} {st : CutStream}

theorem exec_spillDone_signals (hst : (s.slot k).imp.streams[j]? = some st) (hspill : st.spill = true)
    (hdone : st.done = false) (hround : (s.slot k).imp.round ≠ []) (hlast : st.fslot = (s.slot k).imp.round.length) :
    exec (.spillDone k j) s = .next ((s.modStream k j (fun c => { c with done := true })).qsignal (0x10 + st.engine)
      ((s.slot k).imp.cuts.getD st.cut ⟨0, 0, 0, 0, 0, 0, 0⟩).quoin 1) := by
  show execSpillDone k j s = _
  unfold execSpillDone
  dsimp only
  rw [hst]
  exact congrArg Host.Outcome.next (if_pos ⟨hspill, by rw [hdone]; rfl, hround, hlast⟩)

/-- The state in which REFILL_START looks at the barriers: the sequencer's next WAITs are made. -/
def State.atBarriers (s : State) (k : Nat) : State := s.seqNext k ((s.slot k).imp.cuts.length + 1)

theorem exec_refillStart_of_not_passed (hcut : j ∉ ((s.atBarriers k).slot k).imp.passed) :
    exec (.refillStart k j) s = .next (s.atBarriers k) :=
  congrArg Host.Outcome.next (if_neg fun ⟨h, _⟩ => hcut (List.contains_iff_mem.mp h))

/-- Behind the barrier of its cut, the one stream of a plan starts once what it feeds is configured. -/
theorem exec_refillStart_starts (hcut : j ∈ ((s.atBarriers k).slot k).imp.passed)
    (hround : ((s.atBarriers k).slot k).imp.round ≠ []) (hlost : ((s.atBarriers k).slot k).imp.lost = false)
    (hst : ((s.atBarriers k).slot k).imp.streams = [st]) (hspill : st.spill = false) (hof : st.cut = j)
    (hstart : st.started = false) (hready : (s.atBarriers k).refillReady k 0 st = true) :
    exec (.refillStart k j) s =
      .next (((s.atBarriers k).modStream k 0 (fun c => { c with started := true })).refillNext k 0) := by
  show execRefillStart k j s = _
  unfold execRefillStart
  dsimp only
  rw [← State.atBarriers, if_pos ⟨List.contains_iff_mem.mpr hcut, hround, by rw [hlost]; rfl⟩, hst]
  exact congrArg Host.Outcome.next (if_pos (by simp [hspill, hof, hstart, hready]))

end Streams

/-! ## The steps of the wave (R211 to R213, Table 9-5) -/

section Wave

variable {s : State} {k t : Nat}

/-- The step of Table 9-5 that is tile `t`'s next, as far as its condition holds. -/
def State.waveStep (s : State) (k t : Nat) : State :=
  if (s.slot k).imp.due.contains t then s.wireTile k t
  else if (s.slot k).imp.drained.contains t then s.leaveTile k t
  else if s.drainedTile k t && s.mayLeave k t then s.drainTile k t
  else s

/-- What follows a tile's step: the words outside the slot's tiles, step 6 of its tiles, PHASE. -/
def State.afterStep (s : State) (k : Nat) : State := ((s.outsideWords k).waveWait k).impPhase k

theorem exec_tileReconfigure_of_held (hslot : s.tileSlot t = some k) (hruns : s.CarriesRounds k) :
    exec (.tileReconfigure t) s = .next ((s.waveStep k t).afterStep k) := by
  obtain ⟨-, hmulti, hst, hlost⟩ := hruns
  show execTileReconfigure t s = _
  unfold execTileReconfigure
  rw [hslot]
  exact congrArg Host.Outcome.next (if_pos ⟨hmulti, hst, by rw [hlost]; rfl⟩)

theorem exec_tileReconfigure_of_free (hslot : s.tileSlot t = none) : exec (.tileReconfigure t) s = .next s := by
  show execTileReconfigure t s = _
  unfold execTileReconfigure
  rw [hslot]

theorem State.waveStep_of_due (hdue : t ∈ (s.slot k).imp.due) : s.waveStep k t = s.wireTile k t :=
  if_pos (List.contains_iff_mem.mpr hdue)

theorem State.waveStep_of_drained (hdue : t ∉ (s.slot k).imp.due) (hdrained : t ∈ (s.slot k).imp.drained) :
    s.waveStep k t = s.leaveTile k t :=
  (if_neg (mt List.contains_iff_mem.mp hdue)).trans (if_pos (List.contains_iff_mem.mpr hdrained))

/-- A tile that is neither drained nor due goes to DRAINING where it may. -/
theorem State.waveStep_of_configured (hdue : t ∉ (s.slot k).imp.due) (hdrained : t ∉ (s.slot k).imp.drained) :
    s.waveStep k t = if s.drainedTile k t && s.mayLeave k t then s.drainTile k t else s :=
  (if_neg (mt List.contains_iff_mem.mp hdue)).trans (if_neg (mt List.contains_iff_mem.mp hdrained))

theorem State.waveStep_drains (hdue : t ∉ (s.slot k).imp.due) (hdrained : t ∉ (s.slot k).imp.drained)
    (hquiet : s.drainedTile k t = true) (hmay : s.mayLeave k t = true) : s.waveStep k t = s.drainTile k t :=
  (waveStep_of_configured hdue hdrained).trans (if_pos (by rw [hquiet, hmay]; rfl))

theorem State.waveStep_waits (hdue : t ∉ (s.slot k).imp.due) (hdrained : t ∉ (s.slot k).imp.drained)
    (h : s.drainedTile k t = false ∨ s.mayLeave k t = false) : s.waveStep k t = s :=
  (waveStep_of_configured hdue hdrained).trans (if_neg (by rcases h with h | h <;> simp [h]))

theorem State.drainTile_st (ht : t < s.tiles.length) : ((s.drainTile k t).tile t).st = .draining := by
  show ((s.modTile t _).tile t).st = _
  rw [tile_modTile_self s ht]

/-- Tile `t` with STATE at IDLE. -/
def State.idleTile (s : State) (t : Nat) : State := s.modTile t (fun z => { z with st := .idle, back := .idle })

theorem State.wave_idleTile (u : Nat) : ((s.idleTile t).tile u).wave = (s.tile u).wave := by
  unfold idleTile
  rw [tile_modTile]
  split
  next h => rw [h.1]
  next => rfl

/-- A tile of the slot is left in an earlier impression than tile `t`. -/
def State.LeftBehind (s : State) (k t : Nat) : Prop := ∃ u ∈ (s.slot k).tiles, (s.tile u).wave < (s.tile t).wave

theorem State.none_behind_iff :
    ((s.slot k).tiles.all fun u => decide ((s.tile t).wave ≤ ((s.idleTile t).tile u).wave)) = true ↔ ¬ s.LeftBehind k t := by
  simp [LeftBehind, wave_idleTile]

theorem State.leaveTile_of_behind (h : s.LeftBehind k t) : s.leaveTile k t = s.idleTile t :=
  if_neg (mt none_behind_iff.mp (not_not_intro h))

theorem State.leaveTile_of_none_behind (h : ¬ s.LeftBehind k t) : s.leaveTile k t =
    ((s.idleTile t).saveTile k t).giveTile k t (((s.tile t).imp + 1) % max 1 (s.slot k).imp.count) :=
  if_pos (none_behind_iff.mpr h)

end Wave

/-! ## Steps 3 and 4 without a stage, and step 5 (R212, R213) -/

section Give

variable {s : State} {k t next : Nat}

theorem State.imp_modImp_self (hk : k < s.slots.length) (f : ImpSt → ImpSt) :
    ((s.modImp k f).slot k).imp = f (s.slot k).imp := by
  unfold modImp
  rw [slot_modSlot, if_pos ⟨rfl, hk⟩]

/-- A tile that carries no stage in its next impression: as after a block reset, IDLE, one impression further. -/
def Tile.nextBare (x : Tile) (next : Nat) : Tile := { x.blockReset with imp := next, wave := x.wave + 1 }

/-- A tile's switch words due, its step out of the old impression done. -/
def ImpSt.wordsDue (x : ImpSt) (t : Nat) : ImpSt := { x with drained := x.drained.filter (fun u => u != t), due := x.due ++ [t] }

theorem ImpSt.notMem_wordsDue_drained (x : ImpSt) (t : Nat) : t ∉ (x.wordsDue t).drained := by simp [wordsDue]

theorem ImpSt.mem_wordsDue_due (x : ImpSt) (t : Nat) : t ∈ (x.wordsDue t).due := by simp [wordsDue]

/-- The store holds nothing for tile `t` in impression `next`: it carries no stage there. -/
def State.Bare (s : State) (k t next : Nat) : Prop :=
  (s.slot k).imp.store.find? (fun y => y.imp == next && y.phys == t) = none

theorem State.giveTile_of_bare (h : s.Bare k t next) :
    s.giveTile k t next = (s.modTile t (fun x => x.nextBare next)).modImp k (fun i => i.wordsDue t) := by
  unfold State.giveTile
  dsimp only
  split
  next => exact congrArg (fun w : State => w.modImp k (fun i => i.wordsDue t)) (s.modTile_modTile t _ _)
  next y hy => exact absurd (h.symm.trans hy) (by simp)

theorem State.tile_giveTile_self (h : s.Bare k t next) (ht : t < s.tiles.length) :
    (s.giveTile k t next).tile t = (s.tile t).nextBare next := by
  rw [giveTile_of_bare h]
  exact tile_modTile_self s ht _

theorem State.tile_giveTile_ne (h : s.Bare k t next) {u : Nat} (hu : u ≠ t) :
    (s.giveTile k t next).tile u = s.tile u := by
  rw [giveTile_of_bare h]
  exact tile_modTile_ne s hu _

theorem State.imp_giveTile (h : s.Bare k t next) (hk : k < s.slots.length) :
    ((s.giveTile k t next).slot k).imp = (s.slot k).imp.wordsDue t := by
  rw [giveTile_of_bare h]
  exact imp_modImp_self (s := s.modTile t _) hk _

/-- The impression that tile `t` has left. -/
def State.leftImp (s : State) (k t : Nat) : Nat :=
  ((s.tile t).imp + (s.slot k).imp.count - 1) % max 1 (s.slot k).imp.count

/-- The switch words of step 5 may follow: the switch is drained and no tile is left behind. -/
def State.wordsMayFollow (s : State) (k t : Nat) : Bool :=
  s.switchDrained k (s.leftImp k t) t && (s.slot k).tiles.all (fun u => decide ((s.tile t).wave ≤ (s.tile u).wave + 1))

theorem State.wireTile_waits (h : s.wordsMayFollow k t = false) : s.wireTile k t = s :=
  if_neg (Bool.eq_false_iff.mp h)

theorem State.wordsMayFollow_of_behind (h : ∃ u ∈ (s.slot k).tiles, (s.tile u).wave + 1 < (s.tile t).wave) :
    s.wordsMayFollow k t = false := by
  obtain ⟨u, hu, hlt⟩ := h
  refine Bool.and_eq_false_imp.mpr fun _ => List.all_eq_false.mpr ⟨u, hu, ?_⟩
  simpa using hlt

theorem State.wordsMayFollow_of_not_drained (h : s.switchDrained k (s.leftImp k t) t = false) :
    s.wordsMayFollow k t = false := by
  rw [wordsMayFollow, h, Bool.false_and]

theorem State.wordsMayFollow_of_drained (h : s.switchDrained k (s.leftImp k t) t = true)
    (hwave : ∀ u ∈ (s.slot k).tiles, (s.tile t).wave ≤ (s.tile u).wave + 1) : s.wordsMayFollow k t = true :=
  Bool.and_eq_true_iff.mpr ⟨h, List.all_eq_true.mpr fun u hu => decide_eq_true (hwave u hu)⟩

/-- Step 5 rewrites the fabric, and the tile's words are no longer due. -/
theorem State.wireTile_wires (h : s.wordsMayFollow k t = true) :
    ∃ w : State, s.wireTile k t = w.modImp k (fun i => { i with due := i.due.filter (fun u => u != t) }) ∧
      w.slots = s.slots ∧ w.tiles = s.tiles :=
  ⟨_, if_pos h, rfl, rfl⟩

theorem State.tiles_wireTile (h : s.wordsMayFollow k t = true) : (s.wireTile k t).tiles = s.tiles := by
  obtain ⟨w, hwire, -, htiles⟩ := wireTile_wires h
  rw [hwire]
  exact htiles

theorem State.notMem_due_wireTile (h : s.wordsMayFollow k t = true) (hk : k < s.slots.length) :
    t ∉ ((s.wireTile k t).slot k).imp.due := by
  obtain ⟨w, hwire, hslots, -⟩ := wireTile_wires h
  rw [hwire, imp_modImp_self (by rwa [hslots])]
  simp

end Give

/-! ## What an opened round holds (R207, R208) -/

/-- A part that a change keeps of every slot is kept of slot `j`. -/
theorem State.slot_modSlot_of_kept {s : State} {k j : Nat} {f : Slot → Slot} {α : Type} (part : Slot → α)
    (hf : ∀ x, part (f x) = part x) : part ((s.modSlot k f).slot j) = part (s.slot j) := by
  rw [slot_modSlot]
  split
  next h => rw [h.1, hf]
  next => rfl

/-- What the barriers, the frame table and PHASE leave alone: the rounds, the frames that wait, and which frames are in flight. -/
structure State.SameRounds (s w : State) : Prop where
  round : ∀ k, (w.slot k).imp.round = (s.slot k).imp.round
  waiting : ∀ k, (w.slot k).imp.waiting = (s.slot k).imp.waiting
  tickets : w.flightTickets = s.flightTickets

namespace State.SameRounds

theorem refl (s : State) : s.SameRounds s := ⟨fun _ => rfl, fun _ => rfl, rfl⟩

theorem trans {s u w : State} (h : s.SameRounds u) (h' : u.SameRounds w) : s.SameRounds w where
  round k := (h'.round k).trans (h.round k)
  waiting k := (h'.waiting k).trans (h.waiting k)
  tickets := h'.tickets.trans h.tickets

/-- A change of anything but slots and tickets. -/
theorem of_eq {s w : State} (hs : w.slots = s.slots) (ht : w.flightTickets = s.flightTickets) : s.SameRounds w where
  round k := by unfold State.slot; rw [hs]
  waiting k := by unfold State.slot; rw [hs]
  tickets := ht

theorem modSlot (s : State) (k : Nat) {f : Slot → Slot} (hround : ∀ x, (f x).imp.round = x.imp.round)
    (hwaiting : ∀ x, (f x).imp.waiting = x.imp.waiting) : s.SameRounds (s.modSlot k f) where
  round _ := slot_modSlot_of_kept (fun x => x.imp.round) hround
  waiting _ := slot_modSlot_of_kept (fun x => x.imp.waiting) hwaiting
  tickets := rfl

theorem modFlight (s : State) (n : Nat) {f : Flight → Flight} (hf : ∀ x, (f x).ticket = x.ticket) :
    s.SameRounds (s.modFlight n f) := of_eq rfl (s.flightTickets_modFlight n hf)

/-! WAITs (15 R346, R347) -/

theorem respond (s : State) (h : HostHdr) (op status : Nat) (payload : List Byte) :
    s.SameRounds (s.respond h op status payload) := by
  unfold State.respond
  dsimp only
  split <;> exact of_eq rfl rfl

theorem unhold (s : State) (mgmt : Bool) : s.SameRounds (s.unhold mgmt) := by cases mgmt <;> exact of_eq rfl rfl

theorem wake (s : State) (i : Nat) (w : Waiter) : s.SameRounds (s.wake i w) := by
  cases w with
  | tile t => exact of_eq rfl rfl
  | eng e => exact of_eq rfl rfl
  | merge c => exact of_eq rfl rfl
  | seq k tag => exact modSlot s k (by intro; rfl) (by intro; rfl)
  | host mgmt =>
    unfold State.wake
    dsimp only
    split
    · exact (unhold s mgmt).trans (respond _ _ _ _ _)
    · exact refl s
  | core c => exact refl s

theorem serve {s w : State} {i : Nat} (h : s.serve i = some w) : s.SameRounds w := by
  unfold State.serve at h
  split at h
  · split at h
    · cases h
      refine trans ?_ (wake _ i _)
      exact of_eq rfl rfl
    · cases h
  · cases h

theorem settleN (s : State) (i n : Nat) : s.SameRounds (s.settleN i n) := by
  induction n generalizing s with
  | zero => exact refl s
  | succ n ih =>
    unfold State.settleN
    split
    next u hu => exact (serve hu).trans (ih u)
    next => exact refl s

theorem qwait (s : State) (i n : Nat) (w : Waiter) : s.SameRounds (s.qwait i n w).2 := by
  have hsettle := settleN s i s.quoins.waits.length
  unfold State.qwait
  dsimp only
  split
  · exact hsettle
  · split <;> exact hsettle.trans (of_eq rfl rfl)

/-! The sequencer (R207, R210) -/

theorem seqNext (s : State) (k fuel : Nat) : s.SameRounds (s.seqNext k fuel) := by
  induction fuel generalizing s with
  | zero => exact refl s
  | succ fuel ih =>
    unfold State.seqNext
    dsimp only
    split
    · exact refl s
    · split
      · exact refl s
      · split
        · exact ((qwait s _ _ _).trans (modSlot _ k (by intro; rfl) (by intro; rfl))).trans (ih _)
        · exact qwait s _ _ _

theorem impPhase (s : State) (k : Nat) : s.SameRounds (s.impPhase k) := modSlot s k (by intro; rfl) (by intro; rfl)

/-- The frames of a round each given a frame slot (R208). -/
theorem giveFslots (s : State) (l : List Nat) (ticket : Nat → Nat) : s.SameRounds
    (l.foldl (fun (s : State) f => s.modFlight (ticket f) (fun g => { g with fslot := some f })) s) :=
  List.foldlRecOn (motive := s.SameRounds) l _ (refl s) (fun w h n _ => h.trans (modFlight w _ (by intro; rfl)))

end State.SameRounds

/-- The round's frame table: every waiting frame in order, with whether it is aborted. -/
def State.frameTable (s : State) (k : Nat) : List (Nat × Bool) :=
  (s.slot k).imp.waiting.map (fun n => (n, (s.flightOf n).all (fun f => f.aborted)))

/-- After the table is taken, the opening of a round leaves rounds and frames alone. -/
theorem State.openRound_sameRounds (s : State) (k : Nat) :
    ∃ f : ImpSt → ImpSt, (s.modImp k f).SameRounds (s.openRound k) ∧
      ∀ x, (f x).round = s.frameTable k ∧ (f x).waiting = [] :=
  ⟨_, .trans (.giveFslots _ _ _) (.trans (.seqNext _ k _) (.impPhase _ k)), fun x => ⟨by rfl, by rfl⟩⟩

/-- Settles O31: the commands branch by branch, the steps of Table 9-5 by where the tile stands, and an opened round by what
follows its frame table. -/
theorem impressions : Obligations.Impressions := by
  unfold Obligations.Impressions
  refine ⟨fun s k j t st => ?commands, fun s k t next ht hk => ?steps, fun s k hk => ?opened⟩
  case commands =>
    have hturn {w : State} (hslot : s.tileSlot t = some k) (hruns : s.CarriesRounds k) (hstep : s.waveStep k t = w) :
        exec (.tileReconfigure t) s = .next (w.afterStep k) := by
      rw [exec_tileReconfigure_of_held hslot hruns, hstep]
    exact ⟨exec_roundOpen_opens, fun _ => exec_roundOpen_of_none_waiting, exec_roundEnd_closes, exec_spillDone_signals,
      ⟨exec_refillStart_of_not_passed, exec_refillStart_starts⟩,
      fun hslot hruns hdue hdrained hquiet hmay =>
        ⟨hturn hslot hruns (State.waveStep_drains hdue hdrained hquiet hmay), State.drainTile_st⟩,
      fun hslot hruns hdue hdrained h => hturn hslot hruns (State.waveStep_waits hdue hdrained h),
      fun hslot hruns hdue hdrained => ⟨hturn hslot hruns (State.waveStep_of_drained hdue hdrained),
        State.leaveTile_of_behind, State.leaveTile_of_none_behind⟩,
      fun hslot hruns hdue => hturn hslot hruns (State.waveStep_of_due hdue),
      exec_tileReconfigure_of_free⟩
  case steps =>
    refine ⟨fun hbare => ?bare, fun hbehind => State.wireTile_waits (State.wordsMayFollow_of_behind hbehind),
      fun hdrained => State.wireTile_waits (State.wordsMayFollow_of_not_drained hdrained), fun hdrained hwave => ?wires⟩
    case bare =>
      have htile := State.tile_giveTile_self hbare ht
      have himp := State.imp_giveTile hbare hk
      refine ⟨congrArg Tile.st htile, congrArg Tile.imp htile, congrArg Tile.wave htile, congrArg Tile.core htile,
        congrArg Tile.plat htile, congrArg Tile.ports htile, (congrArg Tile.sram htile :),
        fun u hu => State.tile_giveTile_ne hbare hu, ?due, ?drained⟩
      case due => exact himp ▸ ImpSt.mem_wordsDue_due _ t
      case drained => exact himp ▸ ImpSt.notMem_wordsDue_drained _ t
    case wires =>
      have hmay := State.wordsMayFollow_of_drained hdrained hwave
      exact ⟨State.notMem_due_wireTile hmay hk, State.tiles_wireTile hmay⟩
  case opened =>
    obtain ⟨f, hsame, hf⟩ := s.openRound_sameRounds k
    obtain ⟨hround, hwaiting⟩ := hf (s.slot k).imp
    rw [← State.imp_modImp_self hk f] at hround hwaiting
    refine ⟨?_, (hsame.waiting k).trans hwaiting, hsame.tickets⟩
    rw [hsame.round k, hround]
    simp [State.frameTable, Function.comp_def]

end Sys2Proof.Machine
end
